-- ==== Sys2Proof/Word.lean ====
section
/-! DEFINITION. The word types of the model and the plainest arithmetic on them: bit fields of a natural number
(R7, R8), saturating counters (R83), and the little-endian order of bytes (R8). -/

namespace Sys2Proof

/-- A byte. -/
abbrev Byte := BitVec 8

/-- A 64-bit word, the unit of the scratchpad and of descriptors. -/
abbrev W64 := BitVec 64

/-- A binary32 pattern. -/
abbrev F32 := BitVec 32

/-- Bits `[hi:lo]` of `v` (R7). -/
def bits (v hi lo : Nat) : Nat := (v / 2 ^ lo) % 2 ^ (hi + 1 - lo)

/-- Bit `b` of `v` (R7). -/
def bit (v b : Nat) : Bool := v.testBit b

/-- `x` placed at bit `lo` of a word. -/
def place (x lo : Nat) : Nat := x * 2 ^ lo

/-- `v` with bit `b` set. -/
def setBit (v b : Nat) : Nat := v ||| 2 ^ b

/-- `v` with bit `b` cleared. -/
def clearBit (v b : Nat) : Nat := if v.testBit b then v - 2 ^ b else v

/-- A counter of `w` bits that counts `d` more and saturates (R83). -/
def satAdd (w v d : Nat) : Nat := min (v + d) (2 ^ w - 1)

/-- The number of bits set in the low `n` bits of `v`. -/
def popCount : Nat → Nat → Nat
  | 0, _ => 0
  | n + 1, v => popCount n v + (if v.testBit n then 1 else 0)

/-- The bytes of `v`, little-endian, `n` of them (R8). -/
def toBytes : Nat → Nat → List Byte
  | 0, _ => []
  | n + 1, v => BitVec.ofNat 8 v :: toBytes n (v / 256)

/-- The number that a list of little-endian bytes spells (R8). -/
def ofBytes : List Byte → Nat
  | [] => 0
  | b :: bs => b.toNat + 256 * ofBytes bs

/-- `a / b` rounded up. -/
def ceilDiv (a b : Nat) : Nat := (a + b - 1) / b

/-- The value of an `n`-bit two's-complement pattern. -/
def signed (n v : Nat) : Int := if v < 2 ^ (n - 1) then (v : Int) else (v : Int) - 2 ^ n

/-- The `n`-bit two's-complement pattern of an integer. -/
def unsigned (n : Nat) (v : Int) : Nat := (v % (2 ^ n : Int)).toNat

/-- The first `n` bytes of a list, zero-filled to `n`. -/
def padTo (n : Nat) (bs : List Byte) : List Byte := (bs ++ List.replicate (n - bs.length) 0).take n

end Sys2Proof
end

