-- ==== Sys2Proof/Syntax.lean ====
section
/-! DEFINITION. The commands of the block, one constructor of `Instr` per row of spec/opcode_table.json, and the
types of their operands. A unit number is a `Fin` of its range in Table 00-2, so no command names a unit that does
not exist. A command that the outside world sends carries what it writes; an event that happens to the device
carries what the environment decides (an error that occurred, a measured value, a count of beats waited). -/

namespace Sys2Proof

/-! ## Unit numbers (Table 00-2) -/

/-- A physical site P(row, pcol) as row × 68 + pcol. -/
abbrev Site := Fin 3264
/-- A context. -/
abbrev Ctx := Fin 64
/-- An S-tile index. -/
abbrev STile := Fin 768
/-- A power island. -/
abbrev Island := Fin 24
/-- A stitching field with its steward. -/
abbrev FieldNo := Fin 12
/-- A region. -/
abbrev Region := Fin 8
/-- An HBM stack. -/
abbrev Stack := Fin 32
/-- A memory X-tile. -/
abbrev XTile := Fin 128
/-- A quoin die. -/
abbrev Die := Fin 4
/-- An Ethernet port. -/
abbrev EthPort := Fin 16
/-- A host port. -/
abbrev HostPort := Fin 2
/-- A CAN bus, A then B. -/
abbrev Bus := Fin 2
/-- A ring by its logical number. -/
abbrev RingNo := Fin 12288
/-- A link direction: 0 N, 1 E, 2 S, 3 W. -/
abbrev Dir := Fin 4
/-- A Mortar plane: 0 A, 1 B. -/
abbrev Plane := Fin 2
/-- A Mortar class: 0 SYNC, 1 CTRL, 2 BULK. -/
abbrev Cls := Fin 3
/-- A Mortar endpoint number (Table 09-1). -/
abbrev Endpoint := Fin 4096
/-- A queue pair of one die. -/
abbrev PairNo := Fin 256

/-- The five access paths of the dictionary (Table 18-3). -/
inductive Path where
  | host0 | host1 | canA | canB | jtag
  deriving DecidableEq, Repr

/-! ## What the environment decides -/

/-- What one access met: the numbers of the units (words, lines, registers) that the code corrected, those that were
uncorrectable, the tag groups that were uncorrectable (R95, R163, R164), on a scratchpad port the beats that the
requester waited for its grant (R153), and at an operand store whether the array held the bank that a write reached (R93). -/
structure Ecc where
  fixed : List Nat := []
  bad : List Nat := []
  tagBad : List Nat := []
  waitBeats : Nat := 0
  conflict : Bool := false
  deriving DecidableEq, Repr

/-- What the codes found at the tiles that an access of an engine outside the grid reaches, by site: the words of an S-tile's
scratchpad or of an M-tile's operand store. -/
abbrev SiteEcc := List (Site × Ecc)

/-- The training of one stack in step 7 (R304, R305): its identity, and the rate
it reached in Mb/s, 0 when it failed at every rate. -/
structure StackReport where
  stack : Stack
  identity : Nat
  rate : Nat
  deriving DecidableEq, Repr

/-- One failing place found by a memory test (R309): the granule's device address, its cause (1 march, 2 retention),
whether its bank has a spare row, and the row. -/
structure TestFinding where
  address : Nat
  cause : Nat
  spareRow : Bool
  row : Nat
  deriving DecidableEq, Repr

/-- What a slice or a pattern run found (Table 15-6). -/
structure SliceReport where
  site : Site
  kind : Nat := 1
  pass : Bool := true
  pattern : Nat := 0
  block : Nat := 0
  chain : Nat := 0
  position : Nat := 0
  bitNo : Nat := 0
  signature : Nat := 0
  temperature : Nat := 0
  unfixable : List Nat := []
  deriving DecidableEq, Repr

/-- Where a slice stood when its budget ended (R404): the phase, and the words that its restore could not correct (R408). -/
structure BudgetEnd where
  phase : Fin 3
  unfixable : List Nat := []
  deriving DecidableEq, Repr

/-- What a bring-up step found when it ended (Table 16-1). Every field that the step does not look at is ignored. -/
structure StepReport where
  /-- how long the whole bring-up has taken so far, in ms -/
  ms : Nat := 0
  /-- step 2: the health record's CRC checks (R425) -/
  healthOk : Bool := true
  /-- step 3: the input has been within 40 to 60 V for 1 s, in mV -/
  inputMv : Nat := 48000
  /-- step 5: dies that are silent or whose link did not train (R427) -/
  silentDies : List Die := []
  /-- step 5: host links that trained, with rate in GT/s and width -/
  hostLinks : List (HostPort × Nat × Nat) := []
  /-- step 6: the saved PHY record was not valid and the lanes were trained in full -/
  phyTrained : Bool := false
  /-- step 7: what each stack did -/
  trained : List StackReport := []
  /-- step 8: what the memory test found -/
  findings : List TestFinding := []
  /-- step 9: the bring-up slices that failed -/
  failedSlices : List SliceReport := []
  /-- step 10: sites whose monitor did not answer -/
  silentSites : List Site := []
  /-- step 10: a field whose monitors report a wrong number (0) or type (1) -/
  mismatch : Option (FieldNo × Fin 2) := none
  /-- step 10: dies whose identity differs from the fuses -/
  wrongDies : List Die := []
  /-- step 11: sites whose microcode CRC check failed -/
  failedMicrocode : List Site := []
  deriving DecidableEq, Repr

/-- How a regulator phase failed (R352). -/
inductive PhaseFaultKind where
  | open_ | short | overCurrent
  deriving DecidableEq, Repr

/-- What the power manager has measured at a 50 µs period (R356, R357, R361), in watts, and in hundredths of a watt what
tiles in wait-idle draw. -/
structure PowerReadings where
  islandW : List Nat
  idleCw : List (Site × Nat) := []
  hbmW : Nat
  quoinW : Nat
  converterW : Nat
  mean10msW : Nat
  mean1sW : Nat
  /-- islands one of whose groups would exceed 90 % of its limit if it borrowed -/
  nearLimit : List Island := []
  deriving DecidableEq, Repr

/-- One sample of an island regulator (R349): the site readings in mV, the four reference sensors in mV and °C, and
the island's current in A. -/
structure RegulatorReading where
  sites : List (Site × Nat)
  references : List (Nat × Int)
  amps : Nat
  deriving DecidableEq, Repr

/-- The present current of one phase group, in tenths of an ampere (R360). -/
structure GroupDraw where
  island : Island
  group : Fin 6
  amps10 : Nat
  deriving DecidableEq, Repr

/-- The copy of a flag map that an error was found in (R286, R385). -/
inductive MapCopy where
  | region (r : Region) | queueEngine
  deriving DecidableEq, Repr

/-- A bit fault in one output of a step: the block of a slice, the row and column, and the bits that differ in the main
array's and the checker's block sum and accumulator. -/
structure Upset where
  row : Nat
  col : Nat
  block : Nat := 0
  mainSum : F32 := 0
  mainAcc : F32 := 0
  checkSum : F32 := 0
  checkAcc : F32 := 0
  deriving DecidableEq, Repr

/-- What the hardware of an M-tile did in one step besides what its operands fix (R95, R100). -/
structure StepEnv where
  upsets : List Upset := []
  ecc : Ecc := {}
  /-- beats that the step waited for its operands (R88, R95) -/
  stallBeats : Nat := 0
  deriving DecidableEq, Repr

/-- A vote's verdict (R102). -/
inductive Verdict where
  | main | checker | unresolved
  deriving DecidableEq, Repr

/-- A write that reaches an operand store (R93, R94): the engine input whose route brought it, where Bond did, the byte offset
in the store, the bytes, the poison mark, the source and the context of the WRITE where Mortar did, and whether the array held
its bank in that beat. -/
structure StoreWrite where
  bond : Option (Fin 4) := none
  source : Endpoint := 0
  ctx : Ctx := 0
  offset : Nat
  bytes : List Byte
  poison : Bool
  conflict : Bool
  deriving DecidableEq, Repr

/-- A scratchpad access of a requester other than an address generator: the window, the byte offset in the 4 MiB, the
length in bytes, the bytes written, the poison mark and the context it is for (R148, R149). -/
structure Access where
  aliased : Bool
  off : Nat
  len : Nat
  bytes : List Byte := []
  poison : Bool := false
  ctx : Ctx := 0
  deriving DecidableEq, Repr

/-- A requester of a scratchpad port (R153). An address generator's access is the next unit of its stream record. -/
inductive Requester where
  | ag (k : Fin 4)
  | ringEngine (a : Access)
  | ingress (a : Access)
  | memop (a : Access)
  deriving DecidableEq, Repr

/-- What the register file did in one function record (R177, R183): reads corrected, words uncorrectable as register
and lane, beats waited for a register. -/
structure LaneEnv where
  fixed : Nat := 0
  bad : List (Nat × Nat) := []
  waitBeats : Nat := 0
  stallBeats : Nat := 0
  deriving DecidableEq, Repr

/-- Where a Bond transfer moves from: the stage that faces inbound link `d` of a site, the stage that faces the bypass stage
of a fenced site from side `d`, an engine output, a steering output or the head of a route's queue of a site, or an edge stage
into an X-tile. -/
inductive HopFrom where
  | inbound (site : Site) (d : Dir)
  | bypass (site : Site) (d : Dir)
  | engineOut (site : Site) (k : Fin 16)
  | steering (site : Site) (e : Fin 16) (o : Fin 4)
  | queue (site : Site) (route : Nat)
  | intoX (x : XTile)
  deriving DecidableEq, Repr

/-- What the link code found on a Bond hop (R192). -/
inductive LinkError where
  | none | corrected | data | token
  deriving DecidableEq, Repr

/-- What the link code found on a Mortar flit (R247, R248). -/
inductive FlitError where
  | none | corrected | bad
  deriving DecidableEq, Repr

/-- A Mortar packet: the header fields of Table 09-3, the payload, and marks of the model: that its multicast hold has been
reported (R244) or that a flag packet does not count in object 0x2700 + c:0A (R285), that it is management traffic (R20), the
plane that it travels on (R236), whether it has left its minimal route (R238), and whether FENCE_ORDER waits for it (R265). -/
structure Packet where
  dst : Nat
  src : Nat
  ctx : Nat
  cls : Nat
  typ : Nat
  len : Nat
  poison : Bool := false
  axis : Bool := false
  includeSource : Bool := false
  farEnd : Nat := 0
  operand : Nat := 0
  payload : List Byte := []
  reported : Bool := false
  copy : Bool := false
  management : Bool := false
  plane : Nat := 0
  detoured : Bool := false
  followed : Bool := false
  deriving DecidableEq, Repr

/-- A line of an HBM channel by its channel offset (R291). -/
structure HbmLine where
  stack : Stack
  channel : Fin 32
  offset : Nat
  deriving DecidableEq, Repr

/-- What the line code and the stack found on a line (R301, R302). -/
inductive LineError where
  | none | corrected | uncorrectable
  deriving DecidableEq, Repr

/-- A lintel (Table 12-2). -/
inductive Lintel where
  | memory (x : XTile) | ucie (q : Die) | can (b : Bus) | jtag | timebase
  deriving DecidableEq, Repr

/-- A side of a lintel. -/
inductive LintelSide where
  | core | clocked | both
  deriving DecidableEq, Repr

/-- What a RoCEv2 packet is (R331): the operations of the reliable-connected transport, whole messages. -/
inductive RoceOp where
  | send (bytes : List Byte)
  | sendTensor (bytes : List Byte)
  | write (rkey addr : Nat) (bytes : List Byte)
  | writeImm (rkey addr : Nat) (bytes : List Byte) (imm : Nat)
  | readRequest (rkey addr len : Nat)
  | readResponse (bytes : List Byte)
  | ack
  | nakRemoteAccess
  | nakReceiverNotReady
  | nakOther
  | nakSequence
  deriving DecidableEq, Repr

/-- A received RoCEv2 message: the pair of its port's die, the sequence number of its first packet, whether its ICRC checks, the
message, and how many codewords the port's FEC corrected and could not correct since the last one (objects 0x2E20 + e:08 and :09). -/
structure RoceFrame where
  pair : PairNo
  psn : Nat
  icrcOk : Bool
  op : RoceOp
  fecFixed : Nat
  fecLost : Nat
  deriving DecidableEq, Repr

/-- A USDO request on a CAN bus (R462). -/
inductive UsdoRequest where
  | read (idx sub : Nat)
  | write (idx sub : Nat) (bytes : List Byte)
  deriving DecidableEq, Repr

/-- The error counters of a CAN controller under ISO 11898-1 after an error frame (R342). -/
structure CanErr where
  transmit : Nat
  receive : Nat
  deriving DecidableEq, Repr

/-- What the referee's hardware did in a vote besides what the dispute record fixes (R378, R382). -/
structure RefereeOutcome where
  sumUpsets : List (Nat × F32) := []
  accUpsets : List (Nat × F32) := []
  sequencerMismatch : Bool := false
  deriving DecidableEq, Repr

/-- The kind of a self-test slice (R402). -/
inductive SliceKind where
  | logic | memory
  deriving DecidableEq, Repr

/-- What stops a self-calibration (R437). -/
inductive StopCause where
  | command (p : Path) (v : Nat) | reset | protection | steward | heat
  deriving DecidableEq, Repr

/-! ## The commands -/

/-- The commands of the block, one constructor per row of spec/opcode_table.json, in its order. -/
inductive Instr where
  /-- AUX_SUPPLY_RISE (R441). -/
  | auxSupplyRise
  /-- AUX_SUPPLY_FAIL (R478). -/
  | auxSupplyFail
  /-- RESET_COLD (R442). -/
  | resetCold (p : Path)
  /-- RESET_WARM_FULL (R442). -/
  | resetWarmFull (p : Path)
  /-- RESET_COMPUTE (R453). -/
  | resetCompute (p : Path)
  /-- RESET_COMPUTE_RETRAIN (R453). -/
  | resetComputeRetrain (p : Path)
  /-- COMPUTE_RESET_COMPLETE (R453). -/
  | computeResetComplete (tookMs : Nat)
  /-- HRESET_N_LOW (R480). -/
  | hresetNLow (ns : Nat)
  /-- HRESET_N_RISE (R480). -/
  | hresetNRise
  /-- CONTEXT_RESET (R447). -/
  | contextReset (p : Path) (v : Nat)
  /-- TILE_RESET (R443). -/
  | tileReset (p : Path) (v : Nat)
  /-- BRING_UP_STEP_END (R421). -/
  | bringUpStepEnd (r : StepReport)
  /-- PHASE_FAULT (R352). -/
  | phaseFault (i : Island) (group : Fin 6) (phase : Fin 8) (kind : PhaseFaultKind)
  /-- PACING_TICK (R353). -/
  | pacingTick (i : Island) (group : Fin 6) (amps10 : Nat)
  /-- INPUT_VOLTAGE_SAMPLE (R355). -/
  | inputVoltageSample (mV : Nat) (powerW : Nat)
  /-- BUDGET_PERIOD (R357). -/
  | budgetPeriod (m : PowerReadings)
  /-- OFFER_HOLD_EXPIRE (R362). -/
  | offerHoldExpire (site : Site)
  /-- REGULATOR_SAMPLE (R349). -/
  | regulatorSample (i : Island) (r : RegulatorReading)
  /-- RESET_MINIMUM_RECORDS (R350). -/
  | resetMinimumRecords (p : Path) (v : Nat)
  /-- ISLAND_POWER_ON (R359). -/
  | islandPowerOn (p : Path) (i : Island)
  /-- ISLAND_POWER_OFF (R359). -/
  | islandPowerOff (p : Path) (i : Island)
  /-- RAMP_CHECK (R360). -/
  | rampCheck (i : Island) (draw : List GroupDraw)
  /-- RAMP_WAIT_LIMIT (R360). -/
  | rampWaitLimit (i : Island) (draw : List GroupDraw)
  /-- ISLAND_RAMP_DONE (R360). -/
  | islandRampDone (i : Island) (lowest highest : Nat) (rampUs : Nat)
  /-- THERMAL_CAP_STEP (R366). -/
  | thermalCapStep (i : Island) (hottest : Int)
  /-- THERMAL_TRIP (R367). -/
  | thermalTrip (i : Island) (hottest : Int)
  /-- BEAT_RATE_MEASURE (R365). -/
  | beatRateMeasure (i : Island) (rate : Nat)
  /-- CANARY_ALARM (R369). -/
  | canaryAlarm (site : Site) (margin : Nat)
  /-- REPLAN_START (R371). -/
  | replanStart (p : Path) (v : Nat)
  /-- REPLAN_PERIOD (R371). -/
  | replanPeriod
  /-- REPLAN_COMPLETE (R371), with the canary margin that each site read, and the voltage in mV and the temperature in °C at
  which it read it (R370). -/
  | replanComplete (margins : List (Site × Nat)) (points : List (Site × Nat × Int))
  /-- FENCE_SITE (R45). -/
  | fenceSite (p : Path) (v : Nat)
  /-- FENCE_START (R392), with the words that the codes could not correct when the course's state was moved (R393, R408). -/
  | fenceStart (ecc : SiteEcc)
  /-- ROUTE_TABLE_UPDATE (R239). -/
  | routeTableUpdate
  /-- FENCE_COMPLETE (R392). -/
  | fenceComplete
  /-- RELEASE_SITE (R46). -/
  | releaseSite (p : Path) (v : Nat)
  /-- PARTITION_WRITE (R51). -/
  | partitionWrite (p : Path) (k : Fin 8) (mask : Nat)
  /-- REMAP_TABLE_ERROR (R44). -/
  | remapTableError (r : Region) (holder : Fin 13) (both : Bool)
  /-- PLAN_SLOT_ERROR (R218). -/
  | planSlotError (site : Site) (slot : Fin 4) (corrected : Bool)
  /-- ROUTE_TABLE_ERROR (R239). -/
  | routeTableError (site : Site)
  /-- FLAG_MAP_ERROR (R286). -/
  | flagMapError (c : Ctx) (copy : MapCopy)
  /-- OPERATION_RECORD_START (R89). -/
  | operationRecordStart (site : Site) (env : StepEnv)
  /-- BLOCK_STEP (R85). -/
  | blockStep (site : Site) (env : StepEnv)
  /-- WEIGHT_SLICE (R88). -/
  | weightSlice (site : Site) (env : StepEnv)
  /-- DRAIN_ROW (R96). -/
  | drainRow (site : Site) (stallBeats : Nat)
  /-- VERDICT_APPLY (R102). -/
  | verdictApply (site : Site) (v : Verdict) (holdBeats : Nat)
  /-- SEQUENCER_MISMATCH (R105), after a dispute that the tile held for so many beats (R101). -/
  | sequencerMismatch (site : Site) (holdBeats : Nat)
  /-- OPERAND_STORE_WRITE (R93). -/
  | operandStoreWrite (site : Site) (w : StoreWrite)
  /-- LANE_BEAT (R124). -/
  | laneBeat (site : Site) (env : StepEnv)
  /-- CAM_WINDOW_LOAD (R127). -/
  | camWindowLoad (site : Site) (env : StepEnv)
  /-- PLAIN_READ (R160). -/
  | plainRead (t : STile) (q : Requester) (ecc : Ecc)
  /-- PLAIN_WRITE (R160). -/
  | plainWrite (t : STile) (q : Requester) (ecc : Ecc)
  /-- CONSUME (R160). -/
  | consume (t : STile) (q : Requester) (ecc : Ecc)
  /-- PEEK (R160). -/
  | peek (t : STile) (q : Requester) (ecc : Ecc)
  /-- SYNCHRONISED_WRITE (R160). -/
  | synchronisedWrite (t : STile) (q : Requester) (ecc : Ecc)
  /-- BLOCKED_ACCESS_RETRY (R162). -/
  | blockedAccessRetry (t : STile) (n : Nat) (beats : Nat) (ecc : Ecc)
  /-- SLOT_PASSAGE_END (R161), with the outcome of the accesses that it lets present their slots. -/
  | slotPassageEnd (t : STile) (slot : Nat) (ecc : Ecc)
  /-- CORRECTED_WRITE_BACK (R163). -/
  | correctedWriteBack (t : STile) (word : Nat)
  /-- POISON_REWRITE (R164). -/
  | poisonRewrite (t : STile) (word : Nat)
  /-- PATROL_SCRUB (R165). -/
  | patrolScrub (t : STile) (bank : Fin 32) (ecc : Ecc)
  /-- STREAM_RECORD_START (R157). -/
  | streamRecordStart (t : STile) (ag : Fin 4)
  /-- MEMOP_FILL (R168). -/
  | memopFill (t : STile) (ecc : Ecc)
  /-- MEMOP_COPY (R168). -/
  | memopCopy (t : STile) (ecc : Ecc)
  /-- FMA (R174). -/
  | fma (site : Site) (env : LaneEnv)
  /-- ADD (R177). -/
  | add (site : Site) (env : LaneEnv)
  /-- MUL (R177). -/
  | mul (site : Site) (env : LaneEnv)
  /-- MAX (R177). -/
  | max (site : Site) (env : LaneEnv)
  /-- MIN (R177). -/
  | min (site : Site) (env : LaneEnv)
  /-- EXP (R178). -/
  | exp (site : Site) (env : LaneEnv)
  /-- LOG (R178). -/
  | log (site : Site) (env : LaneEnv)
  /-- RSQRT (R178). -/
  | rsqrt (site : Site) (env : LaneEnv)
  /-- RECIP (R178). -/
  | recip (site : Site) (env : LaneEnv)
  /-- TANH (R178). -/
  | tanh (site : Site) (env : LaneEnv)
  /-- ERF (R178). -/
  | erf (site : Site) (env : LaneEnv)
  /-- REDUCE_SUM (R179). -/
  | reduceSum (site : Site) (env : LaneEnv)
  /-- REDUCE_MAX (R179). -/
  | reduceMax (site : Site) (env : LaneEnv)
  /-- SOFTMAX_STATS (R181). -/
  | softmaxStats (site : Site) (env : LaneEnv)
  /-- SOFTMAX_COMBINE (R180). -/
  | softmaxCombine (site : Site) (env : LaneEnv)
  /-- F_QUANTISE (R182). -/
  | fQuantise (site : Site) (env : LaneEnv)
  /-- F_COMPRESS (R183). -/
  | fCompress (site : Site) (env : LaneEnv)
  /-- DEQUANTISE (R183). -/
  | dequantise (site : Site) (env : LaneEnv)
  /-- MOVE (R177). -/
  | move (site : Site) (env : LaneEnv)
  /-- EXECUTION_MODE_WRITE (R184). -/
  | executionModeWrite (p : Path) (c : Ctx) (v : Nat)
  /-- U2_HALT_WORD (R189), after so many beats of running U2 stages (object 0x3000 + n:65). -/
  | u2HaltWord (site : Site) (stageBeats : Nat)
  /-- BOND_TRANSFER_HOP (R190): the place that it enters waited so many beats for it, and the stage or element that it
  leaves held it for so many (R205). -/
  | bondTransferHop (h : HopFrom) (err : LinkError) (waited held : Nat)
  /-- SPILL_REFILL (R209): the route waited so many beats to enter its place (R205); the access to the ring has its
  error-correction outcome (R153, R163, R164). -/
  | spillRefill (site : Site) (route waited : Nat) (ecc : Ecc)
  /-- FORK_FIRE (R198). -/
  | forkFire (site : Site) (e : Fin 16)
  /-- JOIN_FIRE (R198). -/
  | joinFire (site : Site) (e : Fin 16)
  /-- SWITCH_FIRE (R199). -/
  | switchFire (site : Site) (e : Fin 16)
  /-- MERGE_FIRE (R199). -/
  | mergeFire (site : Site) (e : Fin 16)
  /-- FILTER_FIRE (R199). -/
  | filterFire (site : Site) (e : Fin 16)
  /-- TILE_DONE (R220). -/
  | tileDone (site : Site)
  /-- PACKET_INJECT (R228), so many beats after the endpoint's last SYNC packet on the same plane (R241). -/
  | packetInject (src : Endpoint) (beats : Nat)
  /-- ROUTER_HOP (R233). -/
  | routerHop (plane : Plane) (node : Endpoint) (port : Fin 5) (cls : Cls) (claimBeats : Nat)
  /-- FLIT_RECEIVE (R247). -/
  | flitReceive (node : Endpoint) (plane : Plane) (d : Dir) (err : FlitError)
  /-- LINK_RETRY (R248). -/
  | linkRetry (node : Endpoint) (plane : Plane) (d : Dir)
  /-- PACKET_EJECT (R249), with the packet and its CRC as the flits brought them, where they are not what was sent. -/
  | packetEject (plane : Plane) (node : Endpoint) (cls : Cls) (damage : Option (Packet × Nat))
  /-- MULTICAST_FORWARD (R244). -/
  | multicastForward (plane : Plane) (node : Endpoint) (port : Fin 5) (cls : Cls)
  /-- FLAG_SET (R279). -/
  | flagSet (p : Packet)
  /-- FLAG_CLEAR (R279). -/
  | flagClear (p : Packet)
  /-- REBIND (R283). -/
  | rebind (p : Packet)
  /-- FLAG_WAIT (R280). -/
  | flagWait (p : Packet)
  /-- FLAG_WAKE (R266), with the outcome of the access to a gate slot (R153, R164). -/
  | flagWake (p : Packet) (ecc : Ecc)
  /-- WAIT_RETRY (R281), with the outcome of the access to a gate slot (R153, R164). -/
  | waitRetry (c : Ctx) (handle : Nat) (ecc : Ecc)
  /-- SECTION_DONE (R262). -/
  | sectionDone (p : Packet)
  /-- SECTION_RELEASE (R262) to a tile that was done for so many beats (R223). -/
  | sectionRelease (p : Packet) (waitBeats : Nat)
  /-- CHANNEL_MESSAGE (R270). -/
  | channelMessage (p : Packet) (ecc : Ecc)
  /-- CREDIT_RETURN (R273). -/
  | creditReturn (p : Packet)
  /-- READ_REQUEST (R296). -/
  | readRequest (p : Packet) (ecc : Ecc)
  /-- WRITE (R296). -/
  | write (p : Packet) (ecc : Ecc)
  /-- WRITE_ORDERED (R235). -/
  | writeOrdered (p : Packet) (ecc : Ecc)
  /-- SYNC_WRITE (R231). -/
  | syncWrite (p : Packet) (ecc : Ecc)
  /-- READ_RESPONSE (R250). -/
  | readResponse (p : Packet)
  /-- RING_POST (R270). -/
  | ringPost (p : Packet) (ecc : Ecc)
  /-- PLAN_WRITE (R219). -/
  | planWrite (p : Packet)
  /-- RETURN (R246), with the outcome of the access to a gate slot (R153, R164). -/
  | returnPacket (p : Packet) (ecc : Ecc)
  /-- CONTEXT_OPEN (R253). -/
  | contextOpen (p : Path) (c : Ctx)
  /-- CONTEXT_CLOSE (R254). -/
  | contextClose (p : Path) (c : Ctx)
  /-- DOORBELL (R256): a write of bytes at an offset of the doorbell page of a context (R319). -/
  | doorbell (h : HostPort) (c : Ctx) (off : Fin 4096) (bytes : List Byte)
  /-- DESCRIPTOR_FETCH (R257). -/
  | descriptorFetch (c : Ctx) (bad : Bool)
  /-- LOAD_PLAN (R261). -/
  | loadPlan (c : Ctx) (p : Nat)
  /-- RUN_SECTION (R261). -/
  | runSection (c : Ctx) (p : Nat)
  /-- COPY (R263). -/
  | copy (c : Ctx) (p : Nat) (ecc : SiteEcc)
  /-- FILL (R263). -/
  | fill (c : Ctx) (p : Nat) (ecc : SiteEcc)
  /-- SET_FLAG (R265). -/
  | setFlag (c : Ctx) (p : Nat)
  /-- CLEAR_FLAG (R265). -/
  | clearFlag (c : Ctx) (p : Nat)
  /-- WAIT_FLAG (R266). -/
  | waitFlag (c : Ctx) (p : Nat)
  /-- POST_RING (R270). -/
  | postRing (c : Ctx) (p : Nat) (ecc : SiteEcc)
  /-- QUANTISE (R264). -/
  | quantise (c : Ctx) (p : Nat) (ecc : SiteEcc)
  /-- COMPRESS (R264). -/
  | compress (c : Ctx) (p : Nat) (ecc : SiteEcc)
  /-- FENCE_ORDER (R265). -/
  | fenceOrder (c : Ctx) (p : Nat)
  /-- NOTE (R264). -/
  | note (c : Ctx) (p : Nat)
  /-- DESCRIPTOR_COMPLETE (R258). -/
  | descriptorComplete (c : Ctx) (p : Nat) (lost : Bool)
  /-- RING_DESCRIPTOR_WRITE (R268). -/
  | ringDescriptorWrite (p : Path) (v : Nat)
  /-- SIGNAL_RING_SET (R271). -/
  | signalRingSet (r : RingNo) (ecc : Ecc)
  /-- SIGNAL_RING_CLEAR (R271). -/
  | signalRingClear (r : RingNo) (ecc : Ecc)
  /-- SIGNAL_RING_WAIT (R271). -/
  | signalRingWait (r : RingNo) (ecc : Ecc)
  /-- CHANNEL_SHIP (R272). -/
  | channelShip (r : RingNo) (waitBeats : Nat) (ecc : Ecc)
  /-- FLAG_MAP_ENTRY_WRITE (R283). -/
  | flagMapEntryWrite (p : Path) (c : Ctx) (v : Nat)
  /-- FLAG_MAP_DOMAIN_WRITE (R276). -/
  | flagMapDomainWrite (p : Path) (c : Ctx) (bytes : List Byte)
  /-- WAIT_IDLE_ENTER (R287). -/
  | waitIdleEnter (site : Site) (beats : Nat)
  /-- WAIT_IDLE_EXIT (R287). -/
  | waitIdleExit (site : Site) (beats : Nat)
  /-- BOND_MEMORY_READ (R298). -/
  | bondMemoryRead (x : XTile) (ecc : Ecc) (waited : Nat)
  /-- BOND_MEMORY_WRITE (R297). -/
  | bondMemoryWrite (x : XTile)
  /-- BOND_MEMORY_WRITE_ACK (R298). -/
  | bondMemoryWriteAck (x : XTile)
  /-- HBM_LINE_READY (R301), for an access of context `c`. -/
  | hbmLineReady (c : Ctx) (line : HbmLine) (err : LineError)
  /-- HBM_PATROL (R303). -/
  | hbmPatrol (st : Stack) (ch : Fin 32) (err : LineError)
  /-- STACK_TEMPERATURE (R307). -/
  | stackTemperature (st : Stack) (celsius : Int)
  /-- MEMORY_TEST_QUICK (R308). -/
  | memoryTestQuick (p : Path)
  /-- MEMORY_TEST_FULL (R308). -/
  | memoryTestFull (p : Path)
  /-- MEMORY_TEST_END (R309). -/
  | memoryTestEnd (findings : List TestFinding)
  /-- X_TILE_ORPHANED (R295). -/
  | xTileOrphaned (x : XTile)
  /-- UCIE_LINK_FAILURE (R311) after so many more retries of the adapter (R310). -/
  | ucieLinkFailure (q : Die) (failedModules : List (Fin 2)) (retries : Nat)
  /-- LINTEL_CLOCK_STOP (R314), with the events that its counts could not take meanwhile (R317). -/
  | lintelClockStop (l : Lintel) (excess : Nat)
  /-- LINTEL_CLOCK_RETURN (R314). -/
  | lintelClockReturn (l : Lintel)
  /-- LINTEL_RESET (R315). -/
  | lintelReset (l : Lintel) (side : LintelSide)
  /-- LINTEL_REOPEN (R315). -/
  | lintelReopen (l : Lintel)
  /-- BAR4_WRITE (R321). -/
  | bar4Write (h : HostPort) (off : Nat) (bytes : List Byte) (poison : Bool) (ecc : SiteEcc)
  /-- BAR4_READ (R321). -/
  | bar4Read (h : HostPort) (off len : Nat) (ecc : SiteEcc)
  /-- HOST_PORT_SWITCH (R325). -/
  | hostPortSwitch (p : Path) (v : Nat)
  /-- HOST_LINK_DOWN (R326). -/
  | hostLinkDown (h : HostPort)
  /-- HOST_LINK_UP (R326). -/
  | hostLinkUp (h : HostPort) (rate width : Nat)
  /-- HOST_FAILOVER (R326). -/
  | hostFailover (downMs : Nat)
  /-- PERST_N (R479). -/
  | perstN (h : HostPort)
  /-- HOST_WINDOW_COMPLETION (R328). -/
  | hostWindowCompletion (n : Nat) (ok : Bool) (bytes : List Byte)
  /-- ETHERNET_LINK_UP (R329). -/
  | ethernetLinkUp (e : EthPort)
  /-- ETHERNET_LINK_DOWN (R329). -/
  | ethernetLinkDown (e : EthPort)
  /-- ROCE_PACKET_RECEIVE (R331). -/
  | rocePacketReceive (e : EthPort) (f : RoceFrame) (ecc : SiteEcc)
  /-- INCOMING_RDMA (R336). -/
  | incomingRdma (q : Die) (ecc : SiteEcc)
  /-- CNP_RECEIVE (R331), so many microseconds after the pair's rate last halved. -/
  | cnpReceive (q : Die) (i : PairNo) (usSinceHalving : Nat)
  /-- RATE_INCREASE_TICK (R331). -/
  | rateIncreaseTick (q : Die) (i : PairNo)
  /-- QUEUE_PAIR_RECORD_WRITE (R332). -/
  | queuePairRecordWrite (p : Path) (q : Die) (bytes : List Byte)
  /-- SEND_PRODUCER_WRITE (R333). -/
  | sendProducerWrite (q : Die) (i : PairNo) (v : Nat)
  /-- RECEIVE_PRODUCER_WRITE (R333). -/
  | receiveProducerWrite (q : Die) (i : PairNo) (v : Nat)
  /-- SEND (R334). -/
  | send (q : Die) (i : PairNo) (ecc : SiteEcc)
  /-- SEND_TENSOR (R338). -/
  | sendTensor (q : Die) (i : PairNo) (ecc : SiteEcc)
  /-- RDMA_WRITE (R334). -/
  | rdmaWrite (q : Die) (i : PairNo) (ecc : SiteEcc)
  /-- RDMA_WRITE_IMM (R334). -/
  | rdmaWriteImm (q : Die) (i : PairNo) (ecc : SiteEcc)
  /-- RDMA_READ (R334). -/
  | rdmaRead (q : Die) (i : PairNo)
  /-- RECEIVE (R334). -/
  | receive (q : Die) (i : PairNo)
  /-- RECEIVE_TENSOR (R339). -/
  | receiveTensor (q : Die) (i : PairNo)
  /-- WORK_REQUEST_COMPLETE (R334). -/
  | workRequestComplete (q : Die) (i : PairNo) (recv : Bool)
  /-- ACK_TIMEOUT (R337). -/
  | ackTimeout (q : Die) (i : PairNo)
  /-- USDO_REQUEST (R462). -/
  | usdoRequest (b : Bus) (r : UsdoRequest)
  /-- NMT_START (R462). -/
  | nmtStart (node : Nat)
  /-- NMT_STOP (R462). -/
  | nmtStop (node : Nat)
  /-- NMT_RESET_NODE (R462). -/
  | nmtResetNode (node : Nat)
  /-- NMT_RESET_COMMUNICATION (R462). -/
  | nmtResetCommunication (node : Nat)
  /-- CAN_BUS_OFF (R342). -/
  | canBusOff (b : Bus)
  /-- HEARTBEAT_TIMER (R340). -/
  | heartbeatTimer
  /-- PTP_SYNC_MESSAGE (R344). -/
  | ptpSyncMessage (port : EthPort) (domain : Nat) (offset : Int)
  /-- PTP_HOLDOVER (R345). -/
  | ptpHoldover
  /-- PPS_IN_EDGE (R345). -/
  | ppsInEdge
  /-- PPS_OUT_SECOND (R345). -/
  | ppsOutSecond
  /-- DICT (R463). -/
  | dict (dr : BitVec 128)
  /-- DICT_WINDOW (R463). -/
  | dictWindow (dr : BitVec 128)
  /-- EXTEST (R346). -/
  | extest (dr : Nat)
  /-- BYPASS (R346). -/
  | bypass (tdi : Bool)
  /-- IDCODE (R346). -/
  | idcode
  /-- SAMPLE_PRELOAD (R346). -/
  | samplePreload (dr : Nat)
  /-- SUSPICION_DECAY (R375). -/
  | suspicionDecay
  /-- CLEAR_SITE_SUSPICION (R375). -/
  | clearSiteSuspicion (p : Path) (v : Nat)
  /-- VOTE_START (R377). -/
  | voteStart (site : Site)
  /-- VOTE_VERDICT (R378). -/
  | voteVerdict (site : Site) (outcome : RefereeOutcome)
  /-- ACKNOWLEDGE_DECISION (R391). -/
  | acknowledgeDecision (p : Path) (v : Nat)
  /-- STEWARD_DISAGREE (R386). -/
  | stewardDisagree (f : FieldNo)
  /-- RESTART_STEWARD (R387). -/
  | restartSteward (p : Path) (v : Nat)
  /-- STEWARD_RESTART_COMPLETE (R387). -/
  | stewardRestartComplete (f : FieldNo)
  /-- CONTROLLER_DISAGREE (R388). -/
  | controllerDisagree
  /-- CONTROLLER_RESTART_COMPLETE (R388). -/
  | controllerRestartComplete
  /-- CLOSE_ALL_FINDINGS (R398). -/
  | closeAllFindings (p : Path) (v : Nat)
  /-- HEALTH_INDEX_RECOMPUTE (R399). -/
  | healthIndexRecompute
  /-- SELF_TEST_LOGIC (R409). -/
  | selfTestLogic (p : Path) (w : Nat)
  /-- SELF_TEST_MEMORY (R409). -/
  | selfTestMemory (p : Path) (w : Nat)
  /-- SELF_TEST_LOGIC_MEMORY (R409). -/
  | selfTestLogicMemory (p : Path) (w : Nat)
  /-- SLICE_START (R410). -/
  | sliceStart (site : Site) (kind : SliceKind)
  /-- SLICE_END (R415). -/
  | sliceEnd (site : Site) (r : SliceReport)
  /-- SLICE_BUDGET_EXPIRE (R404). -/
  | sliceBudgetExpire (site : Site) (phase : BudgetEnd)
  /-- SLICE_OVERDUE (R412). -/
  | sliceOverdue (site : Site) (kind : SliceKind)
  /-- CANCEL_SLICES (R413). -/
  | cancelSlices (p : Path) (v : Nat)
  /-- SAVE_AREA_WRITE (R405). -/
  | saveAreaWrite (p : Path) (i : Island) (v : Nat)
  /-- MARIGOLD_START (R418). -/
  | marigoldStart (p : Path) (v : Nat)
  /-- MARIGOLD_STOP (R418). -/
  | marigoldStop (p : Path) (v : Nat)
  /-- MARIGOLD_HEAT_REACHED (R419). -/
  | marigoldHeatReached (i : Island)
  /-- MARIGOLD_HEAT_TIMEOUT (R419). -/
  | marigoldHeatTimeout (i : Island)
  /-- MARIGOLD_PATTERN_RUN (R419). -/
  | marigoldPatternRun (i : Island) (r : SliceReport)
  /-- MARIGOLD_END (R420). -/
  | marigoldEnd (i : Island)
  /-- CALIBRATION_SET_WRITE (R434). -/
  | calibrationSetWrite (p : Path) (bytes : List Byte)
  /-- CALIBRATION_ERASE (R434). -/
  | calibrationErase (p : Path) (v : Nat)
  /-- SELF_CALIBRATION_START (R436). -/
  | selfCalibrationStart (p : Path) (v : Nat)
  /-- SELF_CALIBRATION_STOP (R437). -/
  | selfCalibrationStop (cause : StopCause)
  /-- SELF_CALIBRATION_COMPLETE (R436). -/
  | selfCalibrationComplete (sections : List (List Byte))
  /-- LICENCE_REMOVE (R439). -/
  | licenceRemove (p : Path) (v : Nat)
  /-- WATCHDOG_EXPIRY (R449). -/
  | watchdogExpiry (c : Ctx) (beats : Nat)
  /-- CAPTURE (R451). -/
  | capture (p : Path) (v : Nat)
  /-- DUMP_CAPTURE_COMPLETE (R452). -/
  | dumpCaptureComplete (k : Fin 4)
  /-- DUMP_FLASH_COPY_COMPLETE (R452). -/
  | dumpFlashCopyComplete
  /-- EMPTY_SLOT (R452). -/
  | emptySlot (p : Path) (v : Nat)
  /-- EVENT_LOG_FLUSH (R450). -/
  | eventLogFlush
  /-- EMCY_INHIBIT_END (R471). -/
  | emcyInhibitEnd
  /-- ERROR_REGISTER_CLEAR (R470). -/
  | errorRegisterClear (bitNo : Fin 8)
  /-- ERROR_HISTORY_CLEAR (R472). -/
  | errorHistoryClear (p : Path) (v : Nat)
  /-- DOMAIN_SELECT (R460). -/
  | domainSelect (p : Path) (v : Nat)
  /-- APERTURE_WRITE (R460). -/
  | apertureWrite (p : Path) (off : Nat) (bytes : List Byte)
  /-- DOMAIN_COMMIT (R461). -/
  | domainCommit (p : Path) (len : Nat)
  /-- SNAPSHOT_LATCH (R466). -/
  | snapshotLatch (p : Path) (idx : Nat)
  /-- SNAPSHOT_EXPIRE (R466). -/
  | snapshotExpire (p : Path)
  /-- RESTORE_DEFAULTS (R468). -/
  | restoreDefaults (p : Path) (v : Nat)
  /-- CLEAR_ARITHMETIC_COUNTERS (R84). -/
  | clearArithmeticCounters (p : Path) (v : Nat)
  /-- CLEAR_SCRATCHPAD_COUNTERS (R84). -/
  | clearScratchpadCounters (p : Path) (v : Nat)
  /-- CLEAR_BOND_COUNTERS (R225). -/
  | clearBondCounters (p : Path) (v : Nat)
  /-- CLEAR_MORTAR_COUNTERS (R251). -/
  | clearMortarCounters (p : Path) (v : Nat)
  /-- CLEAR_SYNC_COUNTERS (R289). -/
  | clearSyncCounters (p : Path) (v : Nat)
  /-- CLEAR_HBM_COUNTERS (R84). -/
  | clearHbmCounters (p : Path) (v : Nat)
  /-- CLEAR_PORT_COUNTERS (R84). -/
  | clearPortCounters (p : Path) (v : Nat)
  /-- CLEAR_POWER_COUNTERS (R373). -/
  | clearPowerCounters (p : Path) (v : Nat)
  /-- CLEAR_VOTE_COUNTERS (R84). -/
  | clearVoteCounters (p : Path) (v : Nat)
  /-- CLEAR_SELF_TEST_COUNTERS (R84). -/
  | clearSelfTestCounters (p : Path) (v : Nat)
  /-- REGISTER_WRITE (R456). -/
  | registerWrite (p : Path) (idx sub size v : Nat)
  /-- BUS_OFF_RECOVERY (R342). -/
  | busOffRecovery (b : Bus)
  /-- CAN_ERROR_FRAME (R342). -/
  | canErrorFrame (b : Bus) (st : CanErr)
  /-- MULTICAST_HOLD_THRESHOLD (R244). -/
  | multicastHoldThreshold (plane : Plane) (node : Endpoint) (port : Fin 5) (cls : Cls) (beats : Nat)
  /-- PARTITION_RESET_COMPLETE (R454). -/
  | partitionResetComplete (tookUs : Nat)
  /-- CONTEXT_RESET_WAIT_END (R447). -/
  | contextResetWaitEnd (c : Ctx)
  deriving DecidableEq, Repr

end Sys2Proof
end

