-- ==== Sys2Proof/WellFormed.lean ====
section
/-! DEFINITION. When a command is well formed: every number fits the widest scalar of the dictionary (R455), every byte
string fits the largest domain (Table 18-5), and every composite operand meets the limits that its type cannot say. -/

namespace Sys2Proof

/-- A number fits 64 bits (R455). -/
def natOk (v : Nat) : Bool := decide (v < 2 ^ 64)

/-- A byte string fits the largest domain, a 16 MiB firmware image (Table 18-5). -/
def bytesOk (b : List Byte) : Bool := decide (b.length ≤ 2 ^ 24)

/-- A packet's fields fit Table 09-3 and its payload has the length it states (R229, R230). -/
def packetOk (p : Packet) : Bool :=
  decide (p.dst < 4096) && decide (p.src < 4096) && decide (p.ctx < 64) && decide (p.cls < 4) && decide (p.typ < 64)
    && decide (p.len ≤ 2047) && decide (p.payload.length = p.len) && decide (p.farEnd < 4096)
    && decide (p.operand < 2 ^ 64)

/-- A store write lies in the 512 KiB store. -/
def storeWriteOk (w : StoreWrite) : Bool :=
  decide (w.offset + (if w.bond.isSome then 64 else w.bytes.length) ≤ 2 ^ 19)

/-- A scratchpad access states the number of bytes it carries and begins in the 4 MiB window. -/
def accessOk (a : Access) : Bool := decide (a.off < 2 ^ 22) && decide (a.len < 2 ^ 23)
  && (a.bytes.isEmpty || decide (a.bytes.length = a.len))

/-- A requester's access is well formed. -/
def requesterOk (q : Requester) : Bool :=
  match q with
  | .ag _ => true
  | .ringEngine a => accessOk a
  | .ingress a => accessOk a
  | .memop a => accessOk a

/-- A step report names each stack at most once. -/
def stepReportOk (r : StepReport) : Bool := decide ((r.trained.map fun t => t.stack).Nodup)

/-- Power readings name all 24 islands, and each tile once. -/
def readingsOk (m : PowerReadings) : Bool := decide (m.islandW.length = 24) && decide (m.idleCw.map fun x => x.1).Nodup

/-- The bytes of a RoCE message do not exceed 2^31 (Table 12-7), and a packet sequence number has 24 bits (R331). -/
def frameOk (f : RoceFrame) : Bool := decide (f.psn < 2 ^ 24) &&
  natOk f.fecFixed && natOk f.fecLost && match f.op with
  | .send b => decide (b.length ≤ 2 ^ 31)
  | .sendTensor b => decide (16 ≤ b.length ∧ b.length ≤ 2 ^ 31 + 16)
  | .write _ _ b => decide (b.length ≤ 2 ^ 31)
  | .writeImm _ _ b imm => decide (b.length ≤ 2 ^ 31) && decide (imm < 2 ^ 32)
  | .readRequest _ _ n => decide (n ≤ 2 ^ 31)
  | .readResponse b => decide (b.length ≤ 2 ^ 31)
  | .ack => true
  | .nakRemoteAccess => true
  | .nakReceiverNotReady => true
  | .nakOther => true
  | .nakSequence => true

/-- A USDO request names a 16-bit index and an 8-bit subindex. -/
def usdoOk (r : UsdoRequest) : Bool :=
  match r with
  | .read i s => decide (i < 2 ^ 16 ∧ s < 256)
  | .write i s b => decide (i < 2 ^ 16 ∧ s < 256) && bytesOk b

/-- A line's channel offset lies in its 2 GiB channel. -/
def lineOk (l : HbmLine) : Bool := decide (l.offset < 2 ^ 31)

/-- A slice report's fields fit Table 15-6. -/
def sliceReportOk (r : SliceReport) : Bool :=
  decide (r.kind < 16) && decide (r.pattern < 2 ^ 16) && decide (r.block < 256) && decide (r.chain < 2 ^ 16)
    && decide (r.position < 2 ^ 24) && decide (r.bitNo < 256) && decide (r.signature < 2 ^ 64)
    && decide (r.temperature < 256)

/-- What the codes found names each site at most once, with waits that fit. -/
def eccsOk (es : SiteEcc) : Bool := decide ((es.map fun e => e.1).Nodup) && es.all fun e => natOk e.2.waitBeats

/-- The command is well formed. -/
def Instr.wellFormed (i : Instr) : Bool :=
  match i with
  | .auxSupplyRise => true
  | .auxSupplyFail => true
  | .resetCold _ => true
  | .resetWarmFull _ => true
  | .resetCompute _ => true
  | .resetComputeRetrain _ => true
  | .computeResetComplete tookMs => natOk tookMs
  | .hresetNLow ns => natOk ns
  | .hresetNRise => true
  | .contextReset _ v => natOk v
  | .tileReset _ v => natOk v
  | .bringUpStepEnd r => stepReportOk r
  | .phaseFault _ _ _ _ => true
  | .pacingTick _ _ amps10 => natOk amps10
  | .inputVoltageSample mV powerW => natOk mV && natOk powerW
  | .budgetPeriod m => readingsOk m
  | .offerHoldExpire _ => true
  | .regulatorSample _ _ => true
  | .resetMinimumRecords _ v => natOk v
  | .islandPowerOn _ _ => true
  | .islandPowerOff _ _ => true
  | .rampCheck _ _ => true
  | .rampWaitLimit _ _ => true
  | .islandRampDone _ lowest highest rampUs => natOk lowest && natOk highest && natOk rampUs
  | .thermalCapStep _ _ => true
  | .thermalTrip _ _ => true
  | .beatRateMeasure _ rate => natOk rate
  | .canaryAlarm _ margin => natOk margin
  | .replanStart _ v => natOk v
  | .replanPeriod => true
  | .replanComplete margins points => decide (margins.map fun x => x.1).Nodup && decide (points.map fun x => x.1).Nodup
  | .fenceSite _ v => natOk v
  | .fenceStart ecc => eccsOk ecc
  | .routeTableUpdate => true
  | .fenceComplete => true
  | .releaseSite _ v => natOk v
  | .partitionWrite _ _ mask => natOk mask
  | .remapTableError _ _ _ => true
  | .planSlotError _ _ _ => true
  | .routeTableError _ => true
  | .flagMapError _ _ => true
  | .operationRecordStart _ _ => true
  | .blockStep _ _ => true
  | .weightSlice _ _ => true
  | .drainRow _ stallBeats => natOk stallBeats
  | .verdictApply _ _ b => natOk b
  | .sequencerMismatch _ b => natOk b
  | .operandStoreWrite _ w => storeWriteOk w
  | .laneBeat _ _ => true
  | .camWindowLoad _ _ => true
  | .plainRead _ q e => requesterOk q && natOk e.waitBeats
  | .plainWrite _ q e => requesterOk q && natOk e.waitBeats
  | .consume _ q e => requesterOk q && natOk e.waitBeats
  | .peek _ q e => requesterOk q && natOk e.waitBeats
  | .synchronisedWrite _ q e => requesterOk q && natOk e.waitBeats
  | .blockedAccessRetry _ n beats e => natOk n && natOk beats && natOk e.waitBeats
  | .slotPassageEnd _ slot e => natOk slot && natOk e.waitBeats
  | .correctedWriteBack _ word => natOk word
  | .poisonRewrite _ word => natOk word
  | .patrolScrub _ _ _ => true
  | .streamRecordStart _ _ => true
  | .memopFill _ e => natOk e.waitBeats
  | .memopCopy _ e => natOk e.waitBeats
  | .fma _ _ => true
  | .add _ _ => true
  | .mul _ _ => true
  | .max _ _ => true
  | .min _ _ => true
  | .exp _ _ => true
  | .log _ _ => true
  | .rsqrt _ _ => true
  | .recip _ _ => true
  | .tanh _ _ => true
  | .erf _ _ => true
  | .reduceSum _ _ => true
  | .reduceMax _ _ => true
  | .softmaxStats _ _ => true
  | .softmaxCombine _ _ => true
  | .fQuantise _ _ => true
  | .fCompress _ _ => true
  | .dequantise _ _ => true
  | .move _ _ => true
  | .executionModeWrite _ _ v => natOk v
  | .u2HaltWord _ n => natOk n
  | .bondTransferHop _ _ w h => natOk w && natOk h
  | .spillRefill _ route w e => natOk route && natOk w && natOk e.waitBeats
  | .forkFire _ _ => true
  | .joinFire _ _ => true
  | .switchFire _ _ => true
  | .mergeFire _ _ => true
  | .filterFire _ _ => true
  | .tileDone _ => true
  | .packetInject _ beats => natOk beats
  | .routerHop _ _ _ _ claimBeats => natOk claimBeats
  | .flitReceive _ _ _ _ => true
  | .linkRetry _ _ _ => true
  | .packetEject _ _ _ damage => damage.all fun x => packetOk x.1 && decide (x.2 < 2 ^ 32)
  | .multicastForward _ _ _ _ => true
  | .flagSet p => packetOk p
  | .flagClear p => packetOk p
  | .rebind p => packetOk p
  | .flagWait p => packetOk p
  | .flagWake p e => packetOk p && natOk e.waitBeats
  | .waitRetry _ handle e => natOk handle && natOk e.waitBeats
  | .sectionDone p => packetOk p
  | .sectionRelease p w => packetOk p && natOk w
  | .channelMessage p e => packetOk p && natOk e.waitBeats
  | .creditReturn p => packetOk p
  | .readRequest p e => packetOk p && natOk e.waitBeats
  | .write p e => packetOk p && natOk e.waitBeats
  | .writeOrdered p e => packetOk p && natOk e.waitBeats
  | .syncWrite p e => packetOk p && natOk e.waitBeats
  | .readResponse p => packetOk p
  | .ringPost p e => packetOk p && natOk e.waitBeats
  | .planWrite p => packetOk p
  | .returnPacket p e => packetOk p && natOk e.waitBeats
  | .contextOpen _ _ => true
  | .contextClose _ _ => true
  | .doorbell _ _ off bytes => !bytes.isEmpty && decide (off.val + bytes.length ≤ 4096)
  | .descriptorFetch _ _ => true
  | .loadPlan _ p => natOk p
  | .runSection _ p => natOk p
  | .copy _ p ecc => eccsOk ecc && natOk p
  | .fill _ p ecc => eccsOk ecc && natOk p
  | .setFlag _ p => natOk p
  | .clearFlag _ p => natOk p
  | .waitFlag _ p => natOk p
  | .postRing _ p ecc => eccsOk ecc && natOk p
  | .quantise _ p ecc => eccsOk ecc && natOk p
  | .compress _ p ecc => eccsOk ecc && natOk p
  | .fenceOrder _ p => natOk p
  | .note _ p => natOk p
  | .descriptorComplete _ p _ => natOk p
  | .ringDescriptorWrite _ v => natOk v
  | .signalRingSet _ e => natOk e.waitBeats
  | .signalRingClear _ e => natOk e.waitBeats
  | .signalRingWait _ e => natOk e.waitBeats
  | .channelShip _ waitBeats e => natOk waitBeats && natOk e.waitBeats
  | .flagMapEntryWrite _ _ v => natOk v
  | .flagMapDomainWrite _ _ bytes => bytesOk bytes
  | .waitIdleEnter _ beats => natOk beats
  | .waitIdleExit _ beats => natOk beats
  | .bondMemoryRead _ _ waited => natOk waited
  | .bondMemoryWrite _ => true
  | .bondMemoryWriteAck _ => true
  | .hbmLineReady _ line _ => lineOk line
  | .hbmPatrol _ _ _ => true
  | .stackTemperature _ _ => true
  | .memoryTestQuick _ => true
  | .memoryTestFull _ => true
  | .memoryTestEnd _ => true
  | .xTileOrphaned _ => true
  | .ucieLinkFailure _ _ retries => natOk retries
  | .lintelClockStop _ excess => natOk excess
  | .lintelClockReturn _ => true
  | .lintelReset _ _ => true
  | .lintelReopen _ => true
  | .bar4Write _ off bytes _ ecc => eccsOk ecc && natOk off && bytesOk bytes
  | .bar4Read _ off len ecc => eccsOk ecc && natOk off && natOk len
  | .hostPortSwitch _ v => natOk v
  | .hostLinkDown _ => true
  | .hostLinkUp _ rate width => natOk rate && natOk width
  | .hostFailover downMs => natOk downMs
  | .perstN _ => true
  | .hostWindowCompletion n _ bytes => natOk n && bytesOk bytes
  | .ethernetLinkUp _ => true
  | .ethernetLinkDown _ => true
  | .rocePacketReceive _ f ecc => eccsOk ecc && frameOk f
  | .incomingRdma _ ecc => eccsOk ecc
  | .cnpReceive _ _ usSinceHalving => natOk usSinceHalving
  | .rateIncreaseTick _ _ => true
  | .queuePairRecordWrite _ _ bytes => bytesOk bytes
  | .sendProducerWrite _ _ v => natOk v
  | .receiveProducerWrite _ _ v => natOk v
  | .send _ _ ecc => eccsOk ecc
  | .sendTensor _ _ ecc => eccsOk ecc
  | .rdmaWrite _ _ ecc => eccsOk ecc
  | .rdmaWriteImm _ _ ecc => eccsOk ecc
  | .rdmaRead _ _ => true
  | .receive _ _ => true
  | .receiveTensor _ _ => true
  | .workRequestComplete _ _ _ => true
  | .ackTimeout _ _ => true
  | .usdoRequest _ r => usdoOk r
  | .nmtStart node => natOk node
  | .nmtStop node => natOk node
  | .nmtResetNode node => natOk node
  | .nmtResetCommunication node => natOk node
  | .canBusOff _ => true
  | .heartbeatTimer => true
  | .ptpSyncMessage _ domain _ => natOk domain
  | .ptpHoldover => true
  | .ppsInEdge => true
  | .ppsOutSecond => true
  | .dict _ => true
  | .dictWindow _ => true
  | .extest dr => natOk dr
  | .bypass _ => true
  | .idcode => true
  | .samplePreload dr => natOk dr
  | .suspicionDecay => true
  | .clearSiteSuspicion _ v => natOk v
  | .voteStart _ => true
  | .voteVerdict _ _ => true
  | .acknowledgeDecision _ v => natOk v
  | .stewardDisagree _ => true
  | .restartSteward _ v => natOk v
  | .stewardRestartComplete _ => true
  | .controllerDisagree => true
  | .controllerRestartComplete => true
  | .closeAllFindings _ v => natOk v
  | .healthIndexRecompute => true
  | .selfTestLogic _ w => natOk w
  | .selfTestMemory _ w => natOk w
  | .selfTestLogicMemory _ w => natOk w
  | .sliceStart _ _ => true
  | .sliceEnd _ r => sliceReportOk r
  | .sliceBudgetExpire _ _ => true
  | .sliceOverdue _ _ => true
  | .cancelSlices _ v => natOk v
  | .saveAreaWrite _ _ v => natOk v
  | .marigoldStart _ v => natOk v
  | .marigoldStop _ v => natOk v
  | .marigoldHeatReached _ => true
  | .marigoldHeatTimeout _ => true
  | .marigoldPatternRun _ r => sliceReportOk r
  | .marigoldEnd _ => true
  | .calibrationSetWrite _ bytes => bytesOk bytes
  | .calibrationErase _ v => natOk v
  | .selfCalibrationStart _ v => natOk v
  | .selfCalibrationStop _ => true
  | .selfCalibrationComplete _ => true
  | .licenceRemove _ v => natOk v
  | .watchdogExpiry _ beats => natOk beats
  | .capture _ v => natOk v
  | .dumpCaptureComplete _ => true
  | .dumpFlashCopyComplete => true
  | .emptySlot _ v => natOk v
  | .eventLogFlush => true
  | .emcyInhibitEnd => true
  | .errorRegisterClear _ => true
  | .errorHistoryClear _ v => natOk v
  | .domainSelect _ v => natOk v
  | .apertureWrite _ off bytes => natOk off && bytesOk bytes
  | .domainCommit _ len => natOk len
  | .snapshotLatch _ idx => natOk idx
  | .snapshotExpire _ => true
  | .restoreDefaults _ v => natOk v
  | .clearArithmeticCounters _ v => natOk v
  | .clearScratchpadCounters _ v => natOk v
  | .clearBondCounters _ v => natOk v
  | .clearMortarCounters _ v => natOk v
  | .clearSyncCounters _ v => natOk v
  | .clearHbmCounters _ v => natOk v
  | .clearPortCounters _ v => natOk v
  | .clearPowerCounters _ v => natOk v
  | .clearVoteCounters _ v => natOk v
  | .clearSelfTestCounters _ v => natOk v
  | .registerWrite _ idx sub size v => natOk idx && natOk sub && natOk size && natOk v
  | .busOffRecovery _ => true
  | .canErrorFrame _ _ => true
  | .multicastHoldThreshold _ _ _ _ beats => natOk beats
  | .partitionResetComplete tookUs => natOk tookUs
  | .contextResetWaitEnd _ => true

end Sys2Proof
end

