-- ==== Sys2Proof/Config.lean ====
section
/-! DEFINITION. What the manual leaves to the implementation: constants with no body, so that nothing can be proved of
their values. A claim that mentions one holds for every value of it. -/

namespace Sys2Proof.Config

open Sys2Proof

/-- Which of the words within the stated error a special function gives on an input that is not one of its special cases
(R178, Table 07-3): the table lookup and refinement are the device's own. Code 0x06 EXP, 0x07 LOG, 0x08 RSQRT, 0x0A TANH,
0x0B ERF. -/
opaque specialChoice : Nat → F32 → Nat

/-- A special function's result in a U2 context, from the U2 tables that the configuration image carries (R186): opcode, the
64-bit words of the tables, the input. The manual gives no layout of the tables (DESIGN CHOICE, notes/assumptions/22.md). -/
opaque u2Special : Nat → List Nat → F32 → F32

/-- Operation `i` of the program of a U2 compute unit by the unit's configuration words, as a function record of Table 07-1
with a fifth word for its U2 input port (bits [3:0]) and output port (bits [7:4]): the manual gives no layout of the
configuration words (DESIGN CHOICE, notes/assumptions/22.md). -/
opaque u2Record : List Nat → Nat → List Nat

/-- Access descriptor `i` of address generator `g` of a U2 memory unit by the unit's configuration words, as a stream record
of Table 06-5, likewise. -/
opaque u2Access : List Nat → Nat → Nat → List Nat

/-- The constant tables of a U2 compute unit by its configuration words, likewise (R185, R186). -/
opaque u2Tables : List Nat → List Byte

/-- Where a function record finds the existing mask of a COMPRESS with mask source 1: the manual does not say
(DESIGN CHOICE, notes/assumptions/7.md). Argument: the record; result: a word of the tile's register file. -/
opaque maskPlace : List Nat → Nat

/-- Whether the configuration of a U2 unit uses a feature that U2 mode does not carry (R187): the kind of the unit and its
configuration words, of which the manual gives no layout. -/
opaque u2Feature : Nat → List Nat → Bool

/-- Whether the program of a U2 unit holds a plan-slot switch (R187), likewise. -/
opaque u2Switch : Nat → List Nat → Bool

/-- The queue entries that the plan loader gives each route of a U2 static link (R189): the manual gives no number
(DESIGN CHOICE, notes/assumptions/22.md). -/
opaque u2QueueEntries : Nat

/-- Whether the ECDSA P-384 signature of a licence record verifies against the key in ROM (R438). -/
opaque signatureVerifies : List Byte → Bool

/-- Whether the SHA-384 digest of a firmware image checks (R424), and the version the image names. -/
opaque digestChecks : List Byte → Bool

/-- The version of a firmware image (event 0xB001). -/
opaque firmwareVersion : List Byte → Nat

/-- Byte `i` of the 16 KiB microcode image of a tile type in a firmware image (R424, R428): the manual gives its size and no
content. Type 0 M, 1 S, 2 F. -/
opaque tileMicrocode : List Byte → Nat → Nat → Byte

/-- How object 0x100A spells the version of a firmware copy (Table 18-6): the manual gives no form. -/
opaque versionString : Nat → List Byte

/-- Where field `k` of the 64-byte header of a calibration image begins (R431): 0 version, 1 serial, 2 origin, 3 time of writing,
4 + j the CRC-32 of section j. The manual gives no places (DESIGN CHOICE, notes/assumptions/85.md). -/
opaque calPlace : Nat → Nat

/-- The bytes of section `k` of a calibration image (Table 16-5), likewise. -/
opaque calSectionLength : Nat → Nat

/-- The identity and pin rate of each stack in section 2 of a calibration image (Table 16-5), likewise. Argument: the section. -/
opaque calibrationStacks : List Byte → List (Nat × Nat)

/-- The ageing offset of an island in section 1 of a calibration image, in mV, likewise. Arguments: the section, the island. -/
opaque calibrationOffset : List Byte → Nat → Nat

/-- The baseline of a site's reference-point margin in section 1, in steps of 0.5 %, likewise. Arguments: the section, the site. -/
opaque calibrationMargin : List Byte → Nat → Nat

/-- A site's margin at the reference point, in steps of 0.5 %, from its reading (R370): the manual gives no formula. Arguments:
section 0 of the set, with the site's canary scale; the site; the margin read; the voltage in mV and the temperature in °C. -/
opaque referenceMargin : List Byte → Nat → Nat → Nat → Int → Nat

/-- A training section of a calibration set that the device itself has written (R435), as a free value. Argument: the number of
free values drawn before. -/
opaque calibrationImage : Nat → List Byte

/-- The body of a dump after its 64 header bytes (R451): the manual names what the tile records hold and gives no
layout for them. Argument: the number of free values drawn before. -/
opaque dumpBody : Nat → List Byte

/-- A free value of the model, one for each drawing (DESIGN CHOICE, notes/assumptions/7.md). -/
opaque freeNat : Nat → Nat

/-- A free byte of the model. -/
opaque freeByte : Nat → Byte

/-- How one event argument holds two items that its table names together, such as "site and slot": the manual gives no
layout, except for the region masks of R22 (DESIGN CHOICE, notes/assumptions/4.md). -/
opaque packArgs : Nat → Nat → Nat

/-- The cause code in event 0xA00D, which the manual names and does not list (DESIGN CHOICE, notes/assumptions/4.md). Argument: 0
retries exhausted, 1 error NAK, 2 poison in local data, 3 death or reset of the context, 4 a failed tensor message, 5 a
failed local access, 6 a payload above 2^31 bytes, 7 a message longer than its receive request. -/
opaque pairErrorCause : Nat → Nat

/-- The cause in event 0xB00E, which the manual names and does not list (DESIGN CHOICE, notes/assumptions/4.md). Argument: 0 a command,
1 a reset, 2 a protection switch-off, 3 a stopped steward, 4 an island that cannot hold its temperature. -/
opaque selfCalStopCause : Nat → Nat

/-- The reason in event 0xB00F, likewise. Argument: 0 a context is not free, 1 the device is not ready, 2 a
self-calibration runs, 3 the serial differs, 4 a CRC fails, 5 a partition is defined, 6 a Marigold run or a slice is
active, 7 an island is off. -/
opaque calRejectReason : Nat → Nat

/-- The reason in event 0x9004, likewise. Argument: 0 a reserved code, 1 a number outside its scope, 2 an island that is
not on, 3 an island whose region belongs to a partition, 4 an island that runs Marigold. -/
opaque selfTestRejectReason : Nat → Nat

/-- The JTAG IDCODE value (object 0x2E40:08), which the manual does not give. -/
opaque idcode : BitVec 32

end Sys2Proof.Config
end

