-- ==== Sys2Proof/Machine/State.lean ====
section
/-! DEFINITION. The state of the block as plain data, the stop reasons, and the state right after reset. A table
(`Tab`) is a list of pairs with strictly rising keys that lists only the entries that differ from the table's default,
so equal tables are equal lists. The object dictionary is the one home of every scalar that it names: `regs` holds a
scalar of object `idx:sub` under the key `idx * 256 + sub`, and its default is in Machine/Dictionary.lean. -/

namespace Sys2Proof.Machine

open Sys2Proof

/-- A sparse table in canonical form: strictly rising keys, no entry that equals the default. -/
abbrev Tab (α : Type) := List (Nat × α)

/-! ## Words and operands with their poison marks -/

/-- An FP32 word of an accumulator or a register file with its poison mark (R65, R174). A lane of the register file that holds
an element of a block format holds its code, with the block word and the index word of its block, which the manual gives no lane
(DESIGN CHOICE, notes/assumptions/14.md). -/
structure FWord where
  val : F32 := 0
  poison : Bool := false
  blockWord : Nat := 0
  blockIndex : Nat := 0
  deriving DecidableEq, Repr

/-- A narrow block as it is stored: block word, index word, payload, whether its map marks it absent, poison. -/
structure RawBlock where
  word : Nat := 0
  index : Nat := 0
  payload : Nat := 0
  absent : Bool := false
  poison : Bool := false
  deriving DecidableEq, Repr

/-- A Bond transfer: 64 data bytes and the token lane of Table 08-1. -/
structure Transfer where
  data : Nat := 0
  chan : Nat := 0
  poison : Bool := false
  control : Bool := false
  isMeta : Bool := false
  value : Nat := 0
  deriving DecidableEq, Repr

/-! ## Plans (R216 to R218, Tables 08-2, 08-4, 08-6, 08-9) -/

/-- A route entry (Table 08-2). -/
structure Route where
  srcKind : Nat
  srcNum : Nat
  srcOut : Nat
  dstKind : Nat
  dstNum : Nat
  dstIn : Nat
  entries : Nat
  tokens : Nat
  ring : Nat
  spill : Bool
  slack : Nat
  first : Nat
  deriving DecidableEq, Repr

/-- A link schedule entry (Table 08-6). -/
structure SchedEntry where
  link : Nat
  chan : Nat
  run : Nat
  last : Bool
  deriving DecidableEq, Repr

/-- A steering element word (Table 08-4), decoded. -/
structure Elem where
  kind : Nat
  ways : Nat
  carriers : Nat
  takes : List Nat
  group : Nat
  deriving DecidableEq, Repr

/-- A tile plan (R217), its lists decoded, its engine records as lists of 64-bit words, and the numbers of the records
that the loader marked to run on the dense path (R134, R135). -/
structure TilePlan where
  logical : Nat
  kind : Nat
  own : Nat
  routes : List Route
  sched : List SchedEntry
  elems : List Elem
  tokens : List Transfer
  consts : List (List Nat)
  recs : List (List Nat)
  streams : List (List (List Nat))
  denseRecs : List Nat := []
  deriving DecidableEq, Repr

/-- What a loaded plan slot holds: its context, the remap generation it was stamped with (R43), its section number, the
tile plan, the configuration words of a U2 unit where the slot holds one (R188), and while the slot loads the bytes that
PLAN_WRITE packets have still to bring and the number of the LOAD_PLAN descriptor (R219), and whether words came poisoned
(R250). -/
structure SlotPlan where
  ctx : Nat
  stamp : Nat
  section_ : Nat
  plan : TilePlan
  u2 : Option (List Nat) := none
  left : Nat := 0
  desc : Nat := 0
  poison : Bool := false
  deriving DecidableEq, Repr

/-! ## Tiles -/

/-- A weight slice or CAM window part that a weight register holds (R88, R127): its block range along the reduction
dimension, its B blocks column by column, and, for a CAM part, its union positions. -/
structure WPart where
  lo : Nat
  hi : Nat
  blocks : List RawBlock
  union : List Nat := []
  deriving DecidableEq, Repr

/-- An operation of an M-tile: its record (R89), the loader's mark that it runs on the dense path (R134, R135), its
accumulator bank, the steps or blocks along the reduction dimension that are done, the blocks decoded from the A and B
streams and those not yet used, the loaded weight parts, the next lane slot and the A blocks of the part that runs, the
keep mask with the rows whose bit came poisoned, the accumulators that the audited rows began with (R132), those of the rows
that a masked output computes on the dense path and never drains (R134), the next row to drain and the drained blocks that
wait for their run. -/
structure MOp where
  words : List Nat
  dense : Bool := false
  bank : Nat := 0
  step : Nat := 0
  aTaken : Nat := 0
  bTaken : Nat := 0
  aBuf : List RawBlock := []
  bBuf : List RawBlock := []
  loaded : Nat := 0
  parts : List WPart := []
  lane : Nat := 0
  aPart : List RawBlock := []
  keep : Nat := 0
  keepBad : Nat := 0
  audited : List (Nat × FWord) := []
  off : List (Nat × FWord) := []
  row : Nat := 0
  outBlocks : List RawBlock := []
  deriving DecidableEq, Repr

/-- One row of a dispute (R101): its A blocks and the B blocks that they met, the prior accumulator value, the main and
checker values, block sums then accumulator, the mark that the step leaves, and whether the row was compared. -/
structure DisputeRow where
  row : Nat
  aBlocks : List RawBlock
  bBlocks : List RawBlock
  prior : FWord
  mainSums : List F32
  checkSums : List F32
  mainAcc : F32
  checkAcc : F32
  poison : Bool := false
  compared : Bool := true
  deriving DecidableEq, Repr

/-- A dispute record (R101): the record of the operation, the column, the step index, the accumulator bank, the context,
the rows of the column with their blocks, and the verdict once the controller has delivered it (R378). -/
structure Dispute where
  words : List Nat
  col : Nat
  step : Nat
  bank : Nat
  ctx : Nat
  rows : List DisputeRow
  verdict : Option Verdict := none
  deriving DecidableEq, Repr

/-- The state of an M-tile's engine, and of the duplicated sequencers of any tile (`halted`): the next record, the
operation in the array, those that drain (oldest first), the next accumulator bank in rotation, the bank that the last
operation left held, the steps completed in the section, and whether the checker lane runs in this section. -/
structure MTile where
  recIx : Nat := 0
  cur : Option MOp := none
  drains : List MOp := []
  bank : Nat := 0
  held : Option Nat := none
  steps : Nat := 0
  dispute : Option Dispute := none
  halted : Bool := false
  checkerOn : Bool := true
  deriving DecidableEq, Repr

/-- The position of an address generator: the next record of its list, the record it runs, the unit it is at, and of a
striped stream the slots that its present wide beat has moved and whether that beat is late (R157, R163). -/
structure AgState where
  recIx : Nat := 0
  cur : Option (List Nat) := none
  unit : Nat := 0
  blocked : Bool := false
  inBeat : Nat := 0
  late : Bool := false
  deriving DecidableEq, Repr

/-- A synchronised access mode (Table 06-3). -/
inductive SyncKind where
  | consume | peek | write
  deriving DecidableEq, Repr

/-- A tag-blocked access (R162): its requester, its mode, its slot, the bytes it writes from that slot on, their poison, the
slots that it writes after this one, whether it writes a ring engine's message (R173), and the tag that it last met. -/
structure Blocked where
  who : Requester
  kind : SyncKind
  slot : Nat
  bytes : List Byte := []
  poison : Bool := false
  more : List Nat := []
  msg : Bool := false
  tag : Nat := 0
  deriving DecidableEq, Repr

/-- A narrow synchronised access in passage (R161), with what a write goes on to as in `Blocked`. -/
structure Passage where
  who : Requester
  kind : SyncKind
  slot : Nat
  bytes : List Byte := []
  poison : Bool := false
  more : List Nat := []
  msg : Bool := false
  deriving DecidableEq, Repr

/-- A message that a ring engine writes (R173): its ring, its packet and its header slot. -/
structure RingMsg where
  ring : Nat
  packet : Packet
  header : Nat
  deriving DecidableEq, Repr

/-- A gate slot that a ring engine has still to write (R162, R271): the signal ring, the slot, the handle, and whether the write is
poisoned. -/
structure GateWrite where
  ring : Nat
  slot : Nat
  handle : Nat
  poison : Bool
  deriving DecidableEq, Repr

/-- The state of an S-tile besides its words and tags. -/
structure SCore where
  ags : List AgState := [{}, {}, {}, {}]
  blocked : List Blocked := []
  passages : List Passage := []
  writeBacks : List Nat := []
  rewrites : List Nat := []
  patrol : List Nat := List.replicate 32 0
  memIx : Nat := 0
  message : Option RingMsg := none
  gates : List GateWrite := []
  deriving DecidableEq, Repr

/-- The state of an F-tile besides its registers: the next record, and whether its U2 unit has halted (R189). -/
structure FCore where
  recIx : Nat := 0
  u2Halted : Bool := false
  deriving DecidableEq, Repr

/-- The state of one steering element (Table 08-3): data queues 0 to 3, the control queue, how many transfers the head
token has governed, and what a join still has to emit. -/
structure ElemState where
  ins : List (List Transfer) := [[], [], [], []]
  ctl : List Transfer := []
  governed : Nat := 0
  emit : List Transfer := []
  outs : List (Option Transfer) := [none, none, none, none]
  deriving DecidableEq, Repr

/-- The Bond state of one tile: the four outbound stages, the stopped directions, one queue per route with the number
of its transfers that lie in its spill ring, the elements, the engine inputs and outputs, and for each link the
position in its schedule. -/
structure BondTile where
  stages : List (Option Transfer) := [none, none, none, none]
  stopped : List Bool := [false, false, false, false]
  queues : List (List Transfer) := []
  spilled : List Nat := []
  elems : List ElemState := List.replicate 16 {}
  engineIn : List (List Transfer) := [[], [], [], []]
  engineOut : List (List Transfer) := [[], [], [], []]
  schedIx : List Nat := [0, 0, 0, 0]
  schedSent : List Nat := [0, 0, 0, 0]
  deriving DecidableEq, Repr

/-- What a tile runs: the context, the slot, and whether its records are complete and its queues drained (R220). -/
structure RunTile where
  ctx : Nat
  slot : Nat
  done : Bool := false
  deriving DecidableEq, Repr

/-! ## Contexts -/

/-- An active descriptor (R257, R258). `status` is the event code it ended with once it has ended, 0 for success. -/
structure ActiveDesc where
  num : Nat
  words : List Nat
  started : Bool := false
  startTime : Nat := 0
  status : Option Nat := none
  retry : Bool := false
  deriving DecidableEq, Repr

/-- The footprint of a slot of a context: its logical tiles, the image address it was loaded from, its section number. -/
structure Footprint where
  slot : Nat
  tiles : List Nat
  image : Nat
  section_ : Nat
  links : List (Nat × Nat) := []
  deriving DecidableEq, Repr

/-- A section switch in progress (R221, R262): the next slot and its footprint, the union of footprints, who has sent SECTION_DONE to the coordinator,
whether the queue engine's has come, the tiles that have switched, and whether it restarts the running section for a replay
(R395). -/
structure SwitchState where
  next : Nat
  union : List Nat
  coordinator : Nat
  foot : Footprint := ⟨0, [], 0, 0, []⟩
  doneFrom : List Nat := []
  armedCame : Bool := false
  released : Bool := false
  switched : List Nat := []
  replay : Bool := false
  deriving DecidableEq, Repr

/-- The queue engine's own state of one context. A section that runs or is armed keeps the footprint that it was armed with,
whatever its slot is loaded with on other tiles (R219, R262). `doorbell` is the count written while the doorbell-present
indication could not cross (R316). -/
structure CtxCore where
  active : List ActiveDesc := []
  records : List Nat := []
  foot : List Footprint := []
  runFoot : Option Footprint := none
  armFoot : Option Footprint := none
  switch : Option SwitchState := none
  runDesc : Option Nat := none
  armDesc : Option Nat := none
  ringPosts : List Nat := []
  flagOps : List Nat := []
  replaysDone : Nat := 0
  resetWaiting : Bool := false
  doorbell : Option Nat := none
  deriving DecidableEq, Repr

/-- A boundary snapshot of a context (R394): the values of its cells, and of its rings head, tail, messages, credits
and slot tags. -/
structure Snapshot where
  cells : List (Nat × Bool)
  rings : List (Nat × Nat × Nat × Nat × Nat)
  tags : List (Nat × Nat)
  deriving DecidableEq, Repr

/-! ## Flags and rings -/

/-- A flag cell (R276, Table 10-9). -/
structure Cell where
  value : Bool := false
  bound : Bool := false
  ctx : Nat := 0
  gen : Nat := 0
  index : Nat := 0
  lastEp : Nat := 0
  lastCtx : Nat := 0
  deriving DecidableEq, Repr

/-- A waiter entry (R280, R281). -/
structure Waiter where
  ep : Nat
  ctx : Nat
  handle : Nat
  mask : Nat
  deriving DecidableEq, Repr

/-- A ring besides its slots (R267, R269, R272). `gate` is the gate slot and handle of an outstanding WAIT. -/
structure Ring where
  desc : Nat := 0
  head : Nat := 0
  tail : Nat := 0
  placed : Nat := 0
  messages : Nat := 0
  senderStall : Nat := 0
  receiverStall : Nat := 0
  rejected : Nat := 0
  credits : Nat := 0
  gate : Option (Nat × Nat) := none
  busy : Option (Nat × Nat) := none
  deriving DecidableEq, Repr

/-! ## Mortar -/

/-- Who is told when a request's packet ends: a descriptor, a ring engine's flag operation, a host access, a queue
pair, or nobody. -/
inductive Origin where
  | none
  | descriptor (c p : Nat)
  | ring (r : Nat)
  | host (h : Nat)
  | pair (n : Nat)
  deriving DecidableEq, Repr

/-- What an engine has asked the injection stage to send (R228): `byAddr` when the destination is to be found by
translating the address in the operand. -/
structure Request where
  packet : Packet
  byAddr : Bool := false
  origin : Origin := .none
  deriving DecidableEq, Repr

/-- A read of the host window in flight (R328): its number on the host port, the address and length, who asked, and the
READ_REQUEST packet where a packet asked. -/
structure HostAccess where
  id : Nat
  port : Nat
  addr : Nat
  len : Nat
  origin : Origin
  packet : Option Packet := none
  deriving DecidableEq, Repr

/-- What a read of the host window has brought to an engine of a quoin die. -/
structure HostData where
  origin : Origin
  addr : Nat
  bytes : List Byte
  ok : Bool
  deriving DecidableEq, Repr

/-- A packet of which flits sent on a link are not acknowledged (R248): as the sender sent it, the buffers of the receiver that
it went into, and how many flits are left. -/
structure Flight where
  packet : Packet
  keys : List Nat
  left : Nat
  deriving DecidableEq, Repr

/-- One outbound direction of one plane of a router (R247, R248); `failed` is that of an X-tile, which has no object for it. -/
structure LinkState where
  nextSeq : Nat := 0
  expected : Nat := 0
  flight : List Flight := []
  rejecting : Bool := false
  fails : Nat := 0
  second : Nat := 0
  retries : Nat := 0
  failed : Bool := false
  deriving DecidableEq, Repr

/-! ## Memory edges, ports and lintels -/

/-- A stack besides its objects (R303, R307, R368). -/
structure StackCore where
  doubled : Bool := false
  level : Nat := 0
  second : Nat := 0
  inSecond : Nat := 0
  patrol : List Nat := List.replicate 32 0
  deriving DecidableEq, Repr

/-- An X-tile: the transfers on its Bond link in both directions, whether its outbound direction is stopped (R192), whether it
is orphaned, whether the route tables send its Mortar traffic to its substitute (R295), and the lines that it has sent of the
read at the head of its inbound link (R300). -/
structure XCore where
  inq : List Transfer := []
  outq : List Transfer := []
  stopped : Bool := false
  orphan : Bool := false
  rerouted : Bool := false
  served : Nat := 0
  deriving DecidableEq, Repr

/-- A send request that the engine has taken: its eight words, the message that it sent, its first sequence number, and
the status it ended with once it has ended, 0 for success (R334). -/
structure SendReq where
  words : List Nat
  op : Option RoceOp := none
  psn : Nat := 0
  status : Option Nat := none
  deriving DecidableEq, Repr

/-- A queue pair (Tables 12-5 to 12-7, R331): the record's eight words, the counts, the sequence numbers, the retries left
after timeouts and after receiver-not-ready, the rate in units of 2^-64 of the port rate, the requests taken and not
complete, the receives taken with the status and the immediate they ended with, the remote-access NAKs answered and the
packets whose ICRC failed. -/
structure Pair where
  words : List Nat := [0, 0, 0, 0, 0, 0, 0, 0]
  sendProd : Nat := 0
  recvProd : Nat := 0
  sendCons : Nat := 0
  recvCons : Nat := 0
  psn : Nat := 0
  expPsn : Nat := 0
  retries : Nat := 0
  rnrRetries : Nat := 0
  rate : Nat := 18446744073709551616
  sends : List SendReq := []
  recvs : List (List Nat × Option (Nat × Nat)) := []
  nakked : Nat := 0
  icrcErrors : Nat := 0
  deriving DecidableEq, Repr

/-- A control signal that crosses a lintel as a toggle (R316): its level has changed and the acknowledge is still out, and pulses
raised since have merged into the next toggle. -/
structure Toggle where
  out : Bool := false
  again : Bool := false
  deriving DecidableEq, Repr

/-- A lintel (R314 to R316): its clock has stopped, it is closed, which sides are in reset, whether its flush is owed
at the moment it reopens, since the indication of a reset has not crossed yet, and its doorbell-present indication. -/
structure LintelCore where
  stopped : Bool := false
  closed : Bool := false
  coreReset : Bool := false
  clockedReset : Bool := false
  owed : Bool := false
  bell : Toggle := {}
  deriving DecidableEq, Repr

/-! ## Power -/

/-- An island besides its objects (R349 to R366): for each phase group the sixteenths that the pacing limiter holds and
the microseconds for which its current has stayed low, the budget reduction of the target in mV, the microseconds since
the target was last raised, the budget in W, how the last measured power stood to it, the thermal cap, the 10 ms steps
for which the island has been cool, how long it has waited, whether its ramp runs at half slew, its dark groups and
those whose event 0x1002 is owed, the groups whose sensors disagree, whether an off command waits for the steward, the
watts in its pool (R361), the mV of its ageing offset that are still to be applied (R371), the mV by which the regulator
moves its output after its last sample (R349, R351), and the slew of its ramp in tenths of an ampere per microsecond (R360). -/
structure IslandCore where
  hold : List Nat := [0, 0, 0, 0, 0, 0]
  quiet : List Nat := [0, 0, 0, 0, 0, 0]
  reduction : Nat := 0
  raise_ : Nat := 0
  budgetW : Nat := 0
  measured : Nat := 0
  capped : Bool := false
  capPct : Nat := 100
  cool : Nat := 0
  waitedUs : Nat := 0
  half : Bool := false
  dark : Nat := 0
  owed : Nat := 0
  disagree : Nat := 0
  offHeld : Bool := false
  pool : Nat := 0
  offsetLeft : Int := 0
  correction : Int := 0
  slew : Nat := 0
  deriving DecidableEq, Repr

/-- The 48 V input (R355): consecutive samples below 36 V and within 40 to 60 V, and whether it is below 40 V. -/
structure InputCore where
  low : Nat := 0
  good : Nat := 0
  under : Bool := false
  deriving DecidableEq, Repr

/-- A loan of budget (R361). -/
structure Loan where
  lender : Nat
  borrower : Nat
  watts : Nat
  deriving DecidableEq, Repr

/-! ## Healing -/

/-- A fence action (R45, R392). `cause` is the code of Table 14-1; `policy` is the class of a policy fence. -/
structure FenceReq where
  site : Nat
  cause : Nat
  policy : Option Nat := none
  deriving DecidableEq, Repr

/-- The fence in progress (Table 14-3): its request, whether the site becomes link-dead, whether the entry and the
route tables have changed, and the contexts it stopped, each with whether a released section switch was under way. -/
structure FenceRun where
  req : FenceReq
  linkDead : Bool
  routed : Bool := false
  stopped : List (Nat × Bool) := []
  deriving DecidableEq, Repr

/-- A vote in progress (R377): the disputing site, the referee, and the region it was borrowed from. -/
structure Vote where
  site : Nat
  referee : Nat
  borrowed : Bool
  deriving DecidableEq, Repr

/-- A health-record entry (R49). -/
structure HealthEntry where
  site : Nat
  cause : Nat
  time : Nat
  deriving DecidableEq, Repr

/-- A marginal finding (Table 14-5). -/
structure Finding where
  site : Nat
  margin : Nat
  temperature : Nat
  pattern : Nat
  isOpen : Bool
  time : Nat
  deriving DecidableEq, Repr

/-! ## Self-test -/

/-- Power that the power manager has reserved for a slice (R364): hundredths of a watt, and whether from the pool of its island
instead of its budget headroom. -/
structure Reservation where
  centiwatts : Nat
  pool : Bool
  deriving DecidableEq, Repr

/-- A due slice (R409). -/
structure DueSlice where
  site : Nat
  kind : SliceKind
  deadline : Nat
  reported : Bool := false
  power : Option Reservation := none
  deriving DecidableEq, Repr

/-- A slice in progress (R410). -/
structure RunSlice where
  site : Nat
  kind : SliceKind
  compartment : Option Nat
  power : Option Reservation := none
  deriving DecidableEq, Repr

/-- The result of a slice that a tile monitor holds while its steward or the controller is stopped (R414): when the slice
ended, its outcome and what it found. -/
structure HeldResult where
  time : Nat
  outcome : Nat
  report : SliceReport
  deriving DecidableEq, Repr

/-- A run of one pattern on one site by Marigold (R419): at which temperature and margin, and for a failure the block. -/
structure MariResult where
  site : Nat
  pattern : Nat
  temperature : Nat
  margin : Nat
  block : Nat
  deriving DecidableEq, Repr

/-- A Marigold run of one island (R419): the temperature steps still to do, whether the step is reached, the margin,
the failures and the passes so far, the steps that ran, and whether a stop was commanded. -/
structure MariRun where
  stepsLeft : List Nat
  reached : Bool := false
  margin : Nat := 0
  fails : List MariResult := []
  passes : List MariResult := []
  ran : List Nat := []
  stopping : Bool := false
  deriving DecidableEq, Repr

/-! ## Management plane -/

/-- An event that has been raised (Table 17-3). -/
structure Event where
  time : Nat
  code : Nat
  kind : Nat
  num : Nat
  arg1 : Nat
  arg2 : Nat
  deriving DecidableEq, Repr

/-- An entry of the event log: an event and its sequence number (Table 17-3). -/
structure LogEntry where
  seq : Nat
  ev : Event
  deriving DecidableEq, Repr

/-- A stored calibration set (R431): its image, the header's serial and time, its origin, a bit for each valid section, the
identity and pin rate that section 2 records of each stack, the ageing offsets of the islands that section 1 records
(Table 16-5), and the ageing index of each island at the last re-plan (R370). -/
structure CalSet where
  image : List Byte := []
  serial : Nat := 0
  written : Nat := 0
  origin : Nat := 1
  valid : Nat := 3
  training : List (Nat × Nat) := []
  offsets : List Nat := []
  indexes : List Nat := []
  deriving DecidableEq, Repr

/-- A site's microcode (R428): the packets of an image that its tile monitor has still to receive, the lines that have come,
whether one came poisoned, the microcode store, and whether the last image failed its CRC check. -/
structure Microcode where
  left : Nat := 0
  parts : List (Nat × List Byte) := []
  bad : Bool := false
  store : List Byte := []
  failed : Bool := false
  deriving DecidableEq, Repr

/-- A firmware copy (R424): its image and whether its digest checks. -/
structure Firmware where
  image : List Byte := []
  good : Bool := true
  version : Nat := 0
  deriving DecidableEq, Repr

/-- A dump slot (R451): its state code of object 0x2F20:03, its bytes, when its capture ended, its context, and while the
capture runs whether a watchdog asked for it, so that the context dies at its end (R449). -/
structure DumpSlot where
  state : Nat := 0
  bytes : List Byte := []
  since : Nat := 0
  ctx : Nat := 0
  watchdog : Bool := false
  deriving DecidableEq, Repr

/-- A dictionary snapshot of a path (R466): the index, the values latched, and when. -/
structure DictSnap where
  index : Nat
  vals : List (Nat × Nat)
  deriving DecidableEq, Repr

/-- The domain window of a path (Table 18-4). -/
structure Window where
  selector : Nat := 0
  offset : Nat := 0
  status : Nat := 0
  staging : List Byte := []
  deriving DecidableEq, Repr

/-- A reset in progress or waiting (R441, R443): its width in Table 17-1, its cause, whether memory retrains, the object that
the bring-up step in progress reads as it stood when the step began, and whether a self-calibration was asked for before
ready (R423). -/
structure ResetRun where
  width : Nat
  cause : Nat
  retrain : Bool := false
  latched : Nat := 0
  selfCal : Bool := false
  deriving DecidableEq, Repr

/-- A CAN bus besides its state object (R342). -/
structure CanCore where
  txErrors : Nat := 0
  rxErrors : Nat := 0
  deriving DecidableEq, Repr

/-- An NMT state of the node (R462). -/
inductive Nmt where
  | initialising | preOperational | operational | stopped
  deriving DecidableEq, Repr

/-- The JTAG instruction in force (R346, R463). -/
inductive JtagIr where
  | idcode | bypass | sample | extest | dict | dictWindow
  deriving DecidableEq, Repr

/-- What the device sends out. -/
inductive Output where
  | usdoReply (bus : Nat) (abort : Nat) (bytes : List Byte)
  | dictDone (path : Path) (abort : Nat) (value : Nat)
  | nmtBoot
  | heartbeat (bus state : Nat)
  | emcy (bus code register event kind num : Nat) (arg : Nat)
  | msix (port vector : Nat)
  | hostRead (port : Nat) (status : Nat) (bytes : List Byte) (poison : Bool)
  | hostRequest (id : Nat) (write : Bool) (addr len : Nat) (bytes : List Byte) (poison : Bool)
  | roce (pair : Nat) (op : RoceOp) (psn : Nat)
  | pause (port priority : Nat)
  | readData (site : Nat) (bytes : List Byte) (poison : Bool)
  | tdo (value : Nat)
  | pins (value : Nat)
  | ppsRise
  deriving DecidableEq, Repr

/-- No command of the block faults: every error that the spec describes is a value of the state (an abort code, an
event, a poison mark, a status word), so this type has no constructor and no step answers with a fault. Safe. -/
inductive Fault where
  deriving DecidableEq, Repr

/-- Why the model has no answer for a command. -/
inductive Refusal where
  /-- Raised only by an arm of Machine/Dispatch.lean whose command has no meaning yet. Safe: nothing is concluded. -/
  | notModelled (mnemonic : String)
  deriving DecidableEq, Repr

/-- The state of the device. -/
structure State where
  /-- the commands that wait, oldest first -/
  pending : List Instr
  /-- every scalar of the object dictionary, by index × 256 + subindex -/
  regs : Tab Nat
  /-- the selectors of R465, by path × 2^32 + index × 256 + subindex -/
  selectors : Tab Nat
  /-- bytes of HBM, scratchpads, operand stores and queue-pair windows, by device address -/
  mem : List Host.Cell
  /-- slot tags by S-tile × 65,536 + slot: 0 empty, 1 full, 2 poisoned, 3 reserved -/
  tags : Tab Nat
  /-- the poison marks of HBM lines, by address div 64 (R302) -/
  poisonLines : Tab Bool
  /-- the poison marks of operand-store words, by address div 8 (R250) -/
  poisonWords : Tab Bool
  /-- accumulators by site × 16,384 + bank × 4,096 + row × 64 + column (R96) -/
  acc : Tab FWord
  /-- F-tile registers by site × 16,384 + register × 256 + lane (R174) -/
  vreg : Tab FWord
  /-- non-zero inputs dropped at absent positions of an existing mask (R141), by site or engine endpoint -/
  maskDrops : Tab Nat
  /-- corrected errors of a site's plan slots (R218), by site -/
  slotFixes : Tab Nat
  /-- microcode by site (R428) -/
  microcode : Tab Microcode
  mtiles : Tab MTile
  stiles : Tab SCore
  ftiles : Tab FCore
  bond : Tab BondTile
  /-- what each site runs -/
  running : Tab (Option RunTile)
  /-- plan slots by logical tile × 4 + slot -/
  plans : Tab (Option SlotPlan)
  ctxs : Tab CtxCore
  snaps : Tab (Option Snapshot)
  /-- flag cells by logical tile × 32 + cell -/
  cells : Tab Cell
  /-- waiter entries by logical tile, oldest first -/
  waiters : Tab (List Waiter)
  /-- flag-map entries by context × 4,096 + index -/
  fmap : Tab Nat
  rings : Tab Ring
  /-- tiles in wait-idle (1 offering, 2 not offering), by site -/
  idle : Tab Nat
  /-- tiles whose offer hold runs, by site -/
  offerHold : Tab Bool
  /-- router input buffers, ejection queues and escape buffers, by the key of Machine/Mortar.lean -/
  net : Tab (List Packet)
  /-- priority claims held, by the same key (R241) -/
  claims : Tab Nat
  /-- what each output of a router has granted, by the key of Machine/Routing.lean: the input after the last of each class, and the CTRL grants in a row (R240) -/
  arbs : Tab Nat
  links : Tab LinkState
  /-- requests of engines that wait for injection, oldest first -/
  issue : List Request
  /-- packets that an endpoint has taken and checked, not yet applied, oldest first -/
  delivered : List Packet
  /-- partitions whose ordered injection is stopped (R239), as a region mask -/
  injectStop : Nat
  /-- the state of each site in every route table, 0 serving, 1 bypass, 2 link-dead (R238) -/
  routeState : Tab Nat
  /-- fenced sites: 3 by fuse, 4 in the field, 5 link-dead (Table 02-5) -/
  fencedAs : Tab Nat
  hbm : Tab StackCore
  xtiles : Tab XCore
  /-- retired granules: address and cause (R309) -/
  retired : List (Nat × Nat)
  /-- writes to retired granules that were discarded (R309) -/
  retiredDrops : Nat
  /-- the memory test in progress: 1 quick, 2 full -/
  memTest : Option Nat
  pairs : Tab Pair
  /-- incoming RoCEv2 messages that wait to be served, oldest first: pair number, sequence number and message -/
  rdmaIn : List (Nat × Nat × RoceOp)
  lintels : Tab LintelCore
  /-- the modules of a die's UCIe link that have failed since its last training, a mask by die (R311) -/
  dieModules : Tab Nat
  /-- host-window reads in flight, oldest first -/
  hostWindow : List HostAccess
  /-- what such reads have brought to the engines that asked -/
  hostData : List HostData
  nextHostId : Nat
  islands : Tab IslandCore
  input : InputCore
  loans : List Loan
  /-- reports limited to one in a period: code × 2^32 + unit to period number + 1 -/
  limits : Tab Nat
  /-- events of a once-per-section rule that are used up: code, context, site (R83) -/
  onceUsed : List (Nat × Nat × Nat)
  /-- fence actions waiting, in order (R45) -/
  fences : List FenceReq
  /-- fence actions held for a stopped steward (R47) -/
  heldFences : List FenceReq
  fence : Option FenceRun
  /-- sites named for release (R46) -/
  releases : List Nat
  candidates : Tab Bool
  /-- fence candidates of the healing policy that wait for the controller: site and class (R388, R390) -/
  heldPolicies : List (Nat × Nat)
  /-- device times of policy fences (R391), of automatic steward restarts by field (R387) -/
  policyTimes : List Nat
  restartTimes : List (Nat × Nat)
  /-- the fields that bring-up left out, whose islands stay off until the next cold reset, as a mask (R430) -/
  fieldsOff : Nat
  /-- device times of evidence (R400) -/
  evidence : List Nat
  /-- last completed logic and memory slice of a site: key site × 2 + kind, to time + 1 -/
  sliceTimes : Tab Nat
  /-- disputing sites whose vote waits, in order (R379) -/
  votesWaiting : List Nat
  votes : List Vote
  controllerDown : Bool
  heldEvents : List Event
  replanning : Bool
  findings : List Finding
  health : List HealthEntry
  /-- fences in the field that the full health record has no entry for, oldest first (R49) -/
  unpersisted : List HealthEntry
  due : List DueSlice
  slices : List RunSlice
  heldResults : List HeldResult
  marigold : Tab (Option MariRun)
  resultLog : List (List Nat)
  cal : CalSet
  calNext : Option CalSet
  selfCal : Bool
  licence : List Byte
  firmware : List Firmware
  fuseSerial : Nat
  fuseSites : List Nat
  fuseDies : List Nat
  fuseMacs : List Nat
  auxOk : Bool
  mainOn : Bool
  hresetLow : Bool
  booted : Bool
  recovery : Bool
  reset_ : Option ResetRun
  resetWaiting : Option ResetRun
  /-- partition resets in progress, as region masks, with the rebuild done (R454) -/
  partResets : List Nat
  restoreDefaults : Bool
  /-- The quoin dies whose PHY record is treated as invalid at the next cold reset (Table 16-3). -/
  phyStale : Nat
  dumps : List DumpSlot
  dumpFlash : List Byte
  /-- the dump that the controller copies to flash -/
  dumpCopying : Option (List Byte)
  raised : List Event
  log : List LogEntry
  logSeq : Nat
  errorHistory : List Nat
  emcyBusy : Bool
  emcyResetOwed : Bool
  can : Tab CanCore
  nmt : Nmt
  nodeId : Nat
  windows : Tab Window
  dictSnaps : Tab (Option DictSnap)
  /-- entry writes that wait for their rebinds: path, context, index, rebinds left (R283) -/
  entryWaits : List (Path × Nat × Nat × Nat)
  ir : JtagIr
  dr : Nat
  boundary : Nat
  /-- what the timebase has still to slew, in ns (R344, R345) -/
  slew : Int
  /-- the module oscillator's nanoseconds, modulo 5,000: the model's own field, for slewing at 200 ppm -/
  oscillator : Nat
  /-- the next whole second at which PPS_OUT has not risen yet (R345) -/
  ppsNext : Nat
  /-- MSI-X vectors that could not be sent yet (R325) -/
  msixWaiting : List Nat
  out : List Output
  /-- the model's own field: how many free values have been drawn -/
  free : Nat
  deriving DecidableEq, Repr

/-- The machine right after the auxiliary supply has risen: a cold reset has begun and step 1 of bring-up is in
progress (R421, R422), main power is off, the timebase is 0 (R343), every table lists nothing, module flash is as it
left the factory: no licence, the factory calibration set with empty training records (R421), two good firmware
copies, no health record. The fuse values are the model's (DESIGN CHOICE, notes/assumptions/2.md).
(PRESUMED: notes/assumptions/6.md.) -/
def State.reset : State where
  pending := []
  regs := []
  selectors := []
  mem := []
  tags := []
  poisonLines := []
  poisonWords := []
  acc := []
  vreg := []
  maskDrops := []
  slotFixes := []
  microcode := []
  mtiles := []
  stiles := []
  ftiles := []
  bond := []
  running := []
  plans := []
  ctxs := []
  snaps := []
  cells := []
  waiters := []
  fmap := []
  rings := []
  idle := []
  offerHold := []
  net := []
  claims := []
  arbs := []
  links := []
  issue := []
  delivered := []
  injectStop := 0
  routeState := []
  fencedAs := []
  hbm := []
  xtiles := []
  retired := []
  retiredDrops := 0
  memTest := none
  pairs := []
  rdmaIn := []
  lintels := []
  dieModules := []
  hostWindow := []
  hostData := []
  nextHostId := 0
  islands := []
  input := {}
  loans := []
  limits := []
  onceUsed := []
  fences := []
  heldFences := []
  fence := none
  releases := []
  candidates := []
  heldPolicies := []
  policyTimes := []
  restartTimes := []
  fieldsOff := 0
  evidence := []
  sliceTimes := []
  votesWaiting := []
  votes := []
  controllerDown := false
  heldEvents := []
  replanning := false
  findings := []
  health := []
  unpersisted := []
  due := []
  slices := []
  heldResults := []
  marigold := []
  resultLog := []
  cal := {}
  calNext := none
  selfCal := false
  licence := []
  firmware := [{}, {}]
  fuseSerial := 0
  fuseSites := []
  fuseDies := [0, 0, 0, 0]
  fuseMacs := List.replicate 16 0
  auxOk := true
  mainOn := false
  hresetLow := false
  booted := false
  recovery := false
  reset_ := some { width := 6, cause := 0 }
  resetWaiting := none
  partResets := []
  restoreDefaults := false
  phyStale := 0
  dumps := [{}, {}, {}, {}]
  dumpFlash := []
  dumpCopying := none
  raised := []
  log := []
  logSeq := 0
  errorHistory := []
  emcyBusy := false
  emcyResetOwed := false
  can := []
  nmt := .initialising
  nodeId := 127
  windows := []
  dictSnaps := []
  entryWaits := []
  ir := .idcode
  dr := 0
  boundary := 0
  slew := 0
  oscillator := 0
  ppsNext := 0
  msixWaiting := []
  out := []
  free := 0

end Sys2Proof.Machine
end

