-- ==== Sys2Proof/Machine/Operands.lean ====
section
/-! DEFINITION. Number formats, conversions and exact block arithmetic (chapter 03, and the forms of chapter 05), the
CRC-32 of plans and packets, and the stochastic-rounding generator. Every function here looks only at its arguments. -/

namespace Sys2Proof.Machine

open Sys2Proof

/-! ## Exact values -/

/-- The exact value `m × 2^e`. -/
structure Dy where
  m : Int
  e : Int
  deriving DecidableEq, Repr

/-- What an element or word is worth (Tables 03-1 and 03-2). -/
inductive Num where
  | fin (d : Dy)
  | inf (neg : Bool)
  | nan
  deriving DecidableEq, Repr

/-- `2^k` for a non-negative power, 1 otherwise. -/
def pow2 (k : Int) : Int := (2 : Int) ^ k.toNat

/-- The exact sum. -/
def Dy.add (a b : Dy) : Dy :=
  if a.e ≤ b.e then ⟨a.m + b.m * pow2 (b.e - a.e), a.e⟩ else ⟨a.m * pow2 (a.e - b.e) + b.m, b.e⟩

/-- The exact product. -/
def Dy.mul (a b : Dy) : Dy := ⟨a.m * b.m, a.e + b.e⟩

/-- The negation. -/
def Dy.neg (a : Dy) : Dy := ⟨-a.m, a.e⟩

/-- The magnitude. -/
def Dy.abs (a : Dy) : Dy := ⟨(a.m.natAbs : Int), a.e⟩

/-- The product with `2^k`. -/
def Dy.scale (a : Dy) (k : Int) : Dy := ⟨a.m, a.e + k⟩

/-- `a < b`. -/
def Dy.lt (a b : Dy) : Bool := decide ((a.add b.neg).m < 0)

/-- `a ≤ b`. -/
def Dy.le (a b : Dy) : Bool := decide ((a.add b.neg).m ≤ 0)

/-- The exponent of a non-zero value: floor of the base-2 logarithm of its magnitude. -/
def Dy.log2 (a : Dy) : Int := (Nat.log2 a.m.natAbs : Int) + a.e

/-- Zero. -/
def Dy.zero : Dy := ⟨0, 0⟩

/-! ## Rounding -/

/-- A rounding mode (Table 03-7, bits [15:14]). -/
inductive Rnd where
  | nearest | stochastic | towardZero
  deriving DecidableEq, Repr

/-- The number of quanta `2^q` that magnitude `v` rounds to; `r` is the random value of R76 (R77). -/
def roundQuanta (md : Rnd) (r : Nat) (v : Dy) (q : Int) : Nat :=
  if q ≤ v.e then v.m.natAbs * (pow2 (v.e - q)).toNat
  else
    let d := 2 ^ (q - v.e).toNat
    let n := v.m.natAbs / d
    let rem := v.m.natAbs % d
    match md with
    | .nearest => if d < 2 * rem ∨ (2 * rem = d ∧ n % 2 = 1) then n + 1 else n
    | .towardZero => n
    | .stochastic => if r < rem * 2 ^ 32 / d then n + 1 else n

/-- An element format of Table 03-2 or MXINT8. -/
inductive EFmt where
  | e4m3 | e5m2 | e3m2 | e2m3 | e2m1 | int8 | bf16 | fp32
  deriving DecidableEq, Repr

/-- Exponent bits, fraction bits and bias (Table 03-2). -/
def EFmt.shape (f : EFmt) : Nat × Nat × Int :=
  match f with
  | .e4m3 => (4, 3, 7) | .e5m2 => (5, 2, 15) | .e3m2 => (3, 2, 3) | .e2m3 => (2, 3, 1) | .e2m1 => (2, 1, 1)
  | .int8 => (0, 7, 0) | .bf16 => (8, 7, 127) | .fp32 => (8, 23, 127)

/-- The width of an element in bits. -/
def EFmt.width (f : EFmt) : Nat := 1 + f.shape.1 + f.shape.2.1

/-- The greatest finite magnitude (Table 03-2; R55). -/
def EFmt.maxMag (f : EFmt) : Dy :=
  match f with
  | .e4m3 => ⟨7, 6⟩ | .e5m2 => ⟨7, 13⟩ | .e3m2 => ⟨7, 2⟩ | .e2m3 => ⟨15, -1⟩ | .e2m1 => ⟨3, 1⟩
  | .int8 => ⟨127, -6⟩ | .bf16 => ⟨255, 120⟩ | .fp32 => ⟨16777215, 104⟩

/-- The exponent of the largest power of two not above the greatest magnitude (Table 03-8). -/
def EFmt.emax (f : EFmt) : Int := f.maxMag.log2

/-- The value that an element pattern encodes (Table 03-2, R55, R57). -/
def EFmt.decode (f : EFmt) (v : Nat) : Num :=
  match f with
  | .int8 => .fin ⟨signed 8 (v % 256), -6⟩
  | _ =>
    let (eb, mb, bias) := f.shape
    let frac := v % 2 ^ mb
    let ex := v / 2 ^ mb % 2 ^ eb
    let neg := v.testBit (eb + mb)
    let fin := fun (m : Nat) (e : Int) => Num.fin ⟨if neg then -(m : Int) else m, e⟩
    let top := decide (ex = 2 ^ eb - 1)
    match f with
    | .e4m3 => if top && frac == 7 then .nan else if ex = 0 then fin frac (1 - bias - mb) else fin (2 ^ mb + frac) (ex - bias - mb)
    | .e5m2 | .bf16 | .fp32 =>
      if top then (if frac = 0 then .inf neg else .nan)
      else if ex = 0 then fin frac (1 - bias - mb) else fin (2 ^ mb + frac) (ex - bias - mb)
    | _ => if ex = 0 then fin frac (1 - bias - mb) else fin (2 ^ mb + frac) (ex - bias - mb)

/-- The pattern of magnitude `n × 2^q` with a sign, `q` its quantum; a zero is positive (R56). -/
def EFmt.encode (f : EFmt) (neg : Bool) (n : Nat) (q : Int) : Nat :=
  if n = 0 then 0
  else match f with
  | .int8 => if neg then 256 - n else n
  | _ =>
    let (eb, mb, bias) := f.shape
    let n' := if n = 2 ^ (mb + 1) then n / 2 else n
    let q' := if n = 2 ^ (mb + 1) then q + 1 else q
    let mag := if n' < 2 ^ mb then n' else ((q' + mb + bias).toNat) * 2 ^ mb + (n' - 2 ^ mb)
    mag + (if neg then 2 ^ (eb + mb) else 0)

/-- The quantum of a value in a format, its exponent range unbounded above. -/
def EFmt.quantum (f : EFmt) (v : Dy) : Int :=
  match f with
  | .int8 => -6
  | _ =>
    let (_, mb, bias) := f.shape
    max v.log2 (1 - bias) - mb

/-- A conversion's pattern, and whether it saturated (R69) or flushed (R70). -/
structure Conv where
  code : Nat
  sat : Bool := false
  flush : Bool := false
  deriving DecidableEq, Repr

/-- The conversion of a finite value into a format other than FP32 (R69, R70). -/
def EFmt.convert (f : EFmt) (md : Rnd) (r : Nat) (v : Dy) : Conv :=
  if v.m = 0 then ⟨0, false, false⟩
  else
    let neg := decide (v.m < 0)
    let q := f.quantum v.abs
    let isOver := f.maxMag.lt v.abs
    let n := roundQuanta (if isOver && md == .stochastic then .towardZero else md) r v.abs q
    let big := f.maxMag.lt ⟨n, q⟩ || (isOver && md == .stochastic)
    if big then
      let mq := f.quantum f.maxMag
      ⟨f.encode neg (roundQuanta .towardZero 0 f.maxMag mq) mq, true, false⟩
    else ⟨f.encode neg n q, false, decide (n = 0)⟩

/-! ## FP32 arithmetic (R57, R58, R80) -/

/-- The canonical quiet NaN of FP32 (R57). -/
def nan32 : F32 := 0x7FC00000

/-- An infinity. -/
def inf32 (neg : Bool) : F32 := if neg then 0xFF800000 else 0x7F800000

/-- The sign bit. -/
def neg32 (x : F32) : Bool := x.toNat.testBit 31

/-- The value of an FP32 word. -/
def num32 (x : F32) : Num := EFmt.fp32.decode x.toNat

/-- An exact value rounded once to FP32, to nearest even; `zneg` is the sign of an exact zero. -/
def round32 (v : Dy) (zneg : Bool) : F32 :=
  if v.m = 0 then (if zneg then 0x80000000 else 0)
  else
    let neg := decide (v.m < 0)
    let q := EFmt.fp32.quantum v.abs
    let n := roundQuanta .nearest 0 v.abs q
    if EFmt.fp32.maxMag.lt ⟨n, q⟩ then inf32 neg
    else if n = 0 then (if neg then 0x80000000 else 0)
    else BitVec.ofNat 32 (EFmt.fp32.encode neg n q)

/-- The FP32 word of a number whose zero is positive. -/
def of32 (n : Num) : F32 :=
  match n with
  | .fin d => round32 d false
  | .inf s => inf32 s
  | .nan => nan32

/-- FP32 addition, to nearest even. -/
def add32 (a b : F32) : F32 :=
  match num32 a, num32 b with
  | .nan, _ => nan32
  | _, .nan => nan32
  | .inf s, .inf t => if s = t then inf32 s else nan32
  | .inf s, .fin _ => inf32 s
  | .fin _, .inf t => inf32 t
  | .fin x, .fin y => round32 (x.add y) (neg32 a && neg32 b && decide (x.m = 0))

/-- FP32 multiplication, to nearest even. -/
def mul32 (a b : F32) : F32 :=
  let s := neg32 a != neg32 b
  match num32 a, num32 b with
  | .nan, _ => nan32
  | _, .nan => nan32
  | .inf _, .inf _ => inf32 s
  | .inf _, .fin y => if y.m = 0 then nan32 else inf32 s
  | .fin x, .inf _ => if x.m = 0 then nan32 else inf32 s
  | .fin x, .fin y => round32 (x.mul y) s

/-- FP32 fused multiply-add, rounded once, to nearest even (R174). -/
def fma32 (a b c : F32) : F32 :=
  let s := neg32 a != neg32 b
  match num32 a, num32 b, num32 c with
  | .nan, _, _ => nan32
  | _, .nan, _ => nan32
  | _, _, .nan => nan32
  | .fin x, .fin y, .fin z => round32 ((x.mul y).add z) (s && neg32 c && decide (x.m = 0 ∨ y.m = 0))
  | .fin _, .fin _, .inf t => inf32 t
  | .inf _, .fin y, z => if y.m = 0 then nan32 else (match z with | .inf t => if t = s then inf32 s else nan32 | _ => inf32 s)
  | .fin x, .inf _, z => if x.m = 0 then nan32 else (match z with | .inf t => if t = s then inf32 s else nan32 | _ => inf32 s)
  | .inf _, .inf _, z => (match z with | .inf t => if t = s then inf32 s else nan32 | _ => inf32 s)

/-- The quotient of two exact values, `b` not zero, rounded once to FP32 to nearest even: the quotient to 64 more bits
than it needs, with a sticky bit. -/
def div32 (a b : Dy) (zneg : Bool) : F32 :=
  if a.m = 0 then (if zneg then 0x80000000 else 0)
  else
    let k := Nat.log2 b.m.natAbs + 64
    let n := a.m.natAbs * 2 ^ k / b.m.natAbs
    let rem := a.m.natAbs * 2 ^ k % b.m.natAbs
    let sgn : Int := if (a.m < 0) = (b.m < 0) then 1 else -1
    round32 ⟨sgn * ((2 * n + if rem = 0 then 0 else 1 : Nat) : Int), a.e - b.e - k - 1⟩ zneg

/-- `a < b` for FP32 words that are not NaN, with −0 below +0 (R177). -/
def less32 (a b : F32) : Bool :=
  match num32 a, num32 b with
  | .inf s, .inf t => s && !t
  | .inf s, _ => s
  | _, .inf t => !t
  | .fin x, .fin y => if x.m = 0 ∧ y.m = 0 then neg32 a && !neg32 b else x.lt y
  | _, _ => false

/-- The greater of two words; NaN when either is NaN (R177). -/
def max32 (a b : F32) : F32 :=
  if num32 a = .nan ∨ num32 b = .nan then nan32 else if less32 a b then b else a

/-- The lesser of two words; NaN when either is NaN (R177). -/
def min32 (a b : F32) : F32 :=
  if num32 a = .nan ∨ num32 b = .nan then nan32 else if less32 a b then a else b

/-! ## The tensor format word (Table 03-7) -/

/-- The base format code. -/
def fwBase (w : Nat) : Nat := bits w 31 28
/-- The ceiling tag. -/
def fwCeil (w : Nat) : Nat := bits w 27 26
/-- The underflow threshold. -/
def fwThreshold (w : Nat) : Nat := bits w 21 16
/-- The framed layout is selected. -/
def fwFramed (w : Nat) : Bool := bit w 10
/-- The rounding mode. -/
def fwRnd (w : Nat) : Rnd :=
  match bits w 15 14 with
  | 0 => .nearest | 1 => .stochastic | _ => .towardZero
/-- The outlier ratio ρ. -/
def fwRho (w : Nat) : Nat :=
  match bits w 12 11 with
  | 0 => 4 | 1 => 8 | 2 => 16 | _ => 2
/-- The base tag of a format word of base 0x0 to 0x3. -/
def fwBaseTag (w : Nat) : Nat := fwBase w
/-- The base is a format that carries tags. -/
def fwTagged (w : Nat) : Bool := decide (fwBase w ≤ 3)

/-- The element format of a tag under a format word (Table 03-6). Tag 0 is T2, whose values are E4M3. -/
def tagFmt (w tag : Nat) : EFmt :=
  match tag with
  | 1 => .e2m1
  | 2 => if bit w 24 then .e3m2 else .e2m3
  | 3 => if bit w 25 then .e5m2 else .e4m3
  | _ => .e4m3

/-- The element width of a tag. -/
def tagWidth (tag : Nat) : Nat := 2 * (tag + 1)

/-- The frame size of a ceiling tag in bytes (R62, R112). -/
def frameBytes (ceil : Nat) (s24 : Bool) : Nat := if s24 then 4 * (ceil + 1) else 8 * (ceil + 1)

/-- A format word is rejected (R66); `count` is the tensor's element count. -/
def fwBad (w count : Nat) : Bool :=
  decide (6 < fwBase w) || decide (32 < fwThreshold w) || decide (bits w 15 14 = 3)
    || (if fwTagged w then decide (fwCeil w < fwBaseTag w) else decide (fwCeil w ≠ 0))
    || (!fwTagged w && (bit w 23 || bit w 22))
    || (if fwFramed w then !fwTagged w else fwTagged w && (fwBase w == 0 || fwCeil w != fwBaseTag w))
    || (decide (bits w 15 14 = 1) && decide (2 ^ 40 < count))
    || decide (bits w 9 0 ≠ 0)

/-! ## Stochastic rounding -/

/-- The random value of element `i` of tensor `t` under seed `k` (R76). -/
def randomValue (k t i : Nat) : Nat :=
  let c : W64 := BitVec.ofNat 64 (t * 2 ^ 40 + i)
  let z := BitVec.ofNat 64 k + (0x9E3779B97F4A7C15 : W64) * (c + 1)
  let z := (z ^^^ (z >>> 30)) * (0xBF58476D1CE4E5B9 : W64)
  let z := (z ^^^ (z >>> 27)) * (0x94D049BB133111EB : W64)
  let z := z ^^^ (z >>> 31)
  (z >>> 32).toNat

/-! ## Quantisers (R67 to R75, R82) -/

/-- A quantised block: its tag, scales, side entries and element codes, and what happened to it. -/
structure QBlock where
  tag : Nat := 0
  scale0 : Nat := 0
  scale1 : Nat := 0
  side0 : Nat := 0
  side1 : Nat := 0
  codes : List Nat := []
  width : Nat := 8
  sat : Nat := 0
  flush : Nat := 0
  surplus : Nat := 0
  nonFinite : Bool := false
  deriving DecidableEq, Repr

/-- The magnitude of a number, 0 for one that is not finite. -/
def numAbs (n : Num) : Dy := match n with
  | .fin d => d.abs
  | _ => Dy.zero

/-- The finite value of a number. -/
def numVal (n : Num) : Dy := match n with
  | .fin d => d
  | _ => Dy.zero

/-- A number is finite. -/
def numFinite (n : Num) : Bool := match n with
  | .fin _ => true
  | _ => false

/-- The greatest magnitude of a list. -/
def maxAbs (xs : List Num) : Dy := xs.foldl (fun a x => if a.lt (numAbs x) then numAbs x else a) Dy.zero

/-- The block exponent (R68). -/
def blockExp (f : EFmt) (ocp : Bool) (a : Dy) : Int :=
  if ocp then a.log2 - f.emax
  else
    let e0 := a.log2 - f.emax - 1
    if a.le (f.maxMag.scale e0) then e0
    else if a.le (f.maxMag.scale (e0 + 1)) then e0 + 1 else e0 + 2

/-- An MX block of a floating-point format or MXINT8; `rand i` is the random value of the block's element `i` (R68 to R71). -/
def mxEncode (f : EFmt) (tag : Nat) (md : Rnd) (ocp : Bool) (rand : Nat → Nat) (xs : List Num) : QBlock :=
  if xs.any fun x => !numFinite x then
    { tag := tag, scale0 := 0xFF, codes := xs.map fun _ => 0, width := f.width, nonFinite := true }
  else
    let a := maxAbs xs
    if a.m = 0 then { tag := tag, codes := xs.map fun _ => 0, width := f.width }
    else
      let e := blockExp f ocp a
      let sc : Nat := if e < -127 then 0 else if 127 < e then 0xFE else (e + 127).toNat
      let es : Int := (sc : Int) - 127
      let cs := (xs.zip (List.range xs.length)).map fun p => f.convert md (rand p.2) ((numVal p.1).scale (-es))
      { tag := tag, scale0 := sc, codes := cs.map fun c => c.code, width := f.width,
        sat := (cs.filter fun (c : Conv) => c.sat).length, flush := (cs.filter fun (c : Conv) => c.flush).length }

/-- A sub-block's T2 scale (R72): its code and whether it saturated. -/
def t2Scale (sub : List Num) : Conv :=
  let mags := sub.map numAbs
  let big := maxAbs sub
  let m := mags.findIdx fun d => big.le d
  let total := (mags.zip (List.range mags.length)).foldl
    (fun t p => if p.2 = m then t else add32 t (round32 p.1 false)) (0 : F32)
  let mean := match num32 total with
    | .fin d => num32 (div32 d ⟨15, 0⟩ false)
    | n => n
  let c : Conv := match mean with
    | .fin d => EFmt.e4m3.convert .nearest 0 d
    | _ => ⟨0x7E, true, false⟩
  if c.code = 0 then EFmt.e4m3.convert .nearest 0 big else c

/-- What R72 makes of one element under its sub-block's scale: 0 zero, 1 plus or minus one, 2 outlier candidate. -/
def t2Class (rho : Nat) (s : Dy) (x : Num) : Nat :=
  if s.m = 0 || (numAbs x).le (s.scale (-1)) then 0
  else if (numAbs x).lt ⟨s.m * rho, s.e⟩ then 1 else 2

/-- A T2 block of 32 inputs (R71, R72). -/
def t2Encode (rho : Nat) (xs : List Num) : QBlock :=
  if xs.any fun x => !numFinite x then
    { tag := 0, scale0 := 0x7F, scale1 := 0x7F, codes := xs.map fun _ => 0, width := 2, nonFinite := true }
  else
    let c0 := t2Scale (xs.take 16)
    let c1 := t2Scale (xs.drop 16)
    let sc := fun (i : Nat) => numVal (EFmt.e4m3.decode (if i < 16 then c0.code else c1.code))
    let ix := xs.zip (List.range xs.length)
    let cand := ix.filter fun p => t2Class rho (sc p.2) p.1 == 2
    let first := cand.foldl (fun (b : Option (Num × Nat)) p => match b with
      | none => some p
      | some q => if (numAbs q.1).lt (numAbs p.1) then some p else some q) none
    let rest := cand.filter fun p => match first with | some q => p.2 != q.2 | none => true
    let next := rest.foldl (fun (b : Option (Num × Nat)) p => match b with
      | none => some p
      | some q => if (numAbs q.1).lt (numAbs p.1) then some p else some q) none
    let kept := (first.toList ++ next.toList).map fun p => p.2
    let outs := ix.filter fun p => kept.contains p.2
    let side := outs.map fun p =>
      match num32 (div32 (numVal p.1) (sc p.2) false) with
      | .fin d => (p.2, EFmt.e4m3.convert .nearest 0 d)
      | .inf neg => (p.2, (⟨if neg then 0xFE else 0x7E, true, false⟩ : Conv))
      | .nan => (p.2, (⟨0x7F, false, false⟩ : Conv))
    let entry := fun (o : Option (Nat × Conv)) => match o with
      | some (p, c) => 0x8000 + p * 0x400 + c.code
      | none => 0
    { tag := 0, scale0 := c0.code, scale1 := c1.code, side0 := entry side[0]?, side1 := entry side[1]?,
      codes := ix.map fun p => match t2Class rho (sc p.2) p.1 with
        | 0 => 0
        | _ => if kept.contains p.2 then 2 else if (numVal p.1).m < 0 then 3 else 1
      width := 2,
      sat := (if c0.sat then 1 else 0) + (if c1.sat then 1 else 0) + (side.filter fun p => p.2.sat).length,
      flush := (ix.filter fun p => t2Class rho (sc p.2) p.1 == 0 && (numVal p.1).m != 0).length,
      surplus := cand.length - 2 }

/-- The block of inputs `xs` in a tag of a format word. -/
def encodeTag (w tag : Nat) (md : Rnd) (rand : Nat → Nat) (xs : List Num) : QBlock :=
  if tag = 0 then t2Encode (fwRho w) xs else mxEncode (tagFmt w tag) tag md (bit w 13) rand xs

/-- What a quantiser counts for one emitted block (R69 to R73, R80, R82). -/
structure QStats where
  sat : Nat := 0
  flush : Nat := 0
  toFp4 : Nat := 0
  toFp6 : Nat := 0
  toFp8 : Nat := 0
  exhausted : Nat := 0
  nonFinite : Nat := 0
  surplus : Nat := 0
  span : Nat := 0
  deriving DecidableEq, Repr

/-- The sum of two counts. -/
def QStats.add (a b : QStats) : QStats :=
  ⟨a.sat + b.sat, a.flush + b.flush, a.toFp4 + b.toFp4, a.toFp6 + b.toFp6, a.toFp8 + b.toFp8,
    a.exhausted + b.exhausted, a.nonFinite + b.nonFinite, a.surplus + b.surplus, a.span + b.span⟩

/-- The tag that R73 chooses, counting down `fuel` tags, and whether it is exhausted. -/
def chooseTag (w : Nat) (xs : List Num) (tag fuel : Nat) : Nat × Bool :=
  let t := encodeTag w tag .nearest (fun _ => 0) xs
  let isOver := (decide (0 < t.sat) || decide (0 < t.surplus)) && bit w 23
  let under := decide (fwThreshold w < t.flush) && bit w 22
  if t.nonFinite || !(isOver || under) then (tag, false)
  else if tag = fwCeil w then (tag, true)
  else match fuel with
  | 0 => (tag, true)
  | n + 1 => chooseTag w xs (tag + 1) n

/-- The block's span exceeds the threshold (R82), taken over the block's finite inputs.
(DESIGN CHOICE: notes/assumptions/116.md.) -/
def spanExceeds (limit : Nat) (xs : List Num) : Bool :=
  let nz := xs.filter fun x => numFinite x && (numVal x).m != 0
  match nz with
  | [] => false
  | x :: rest =>
    let lo := rest.foldl (fun a y => min a (numVal y).log2) (numVal x).log2
    let hi := rest.foldl (fun a y => max a (numVal y).log2) (numVal x).log2
    decide ((limit : Int) < hi - lo)

/-- Quantises one block of 32 inputs under a format word of base 0x0 to 0x4 (R73, R75). -/
def quantiseBlock (w limit : Nat) (rand : Nat → Nat) (xs : List Num) : QBlock × QStats :=
  let sp := if spanExceeds limit xs then 1 else 0
  if fwBase w = 4 then
    let b := mxEncode .int8 3 (fwRnd w) (bit w 13) rand xs
    (b, { sat := b.sat, flush := b.flush, nonFinite := if b.nonFinite then 1 else 0, span := sp })
  else
    let c := chooseTag w xs (fwBaseTag w) 3
    let b := encodeTag w c.1 (fwRnd w) rand xs
    let up := fun (t : Nat) => if fwBaseTag w < t ∧ t ≤ c.1 then 1 else 0
    (b, { sat := b.sat, flush := b.flush, toFp4 := up 1, toFp6 := up 2, toFp8 := up 3,
          exhausted := if c.2 then 1 else 0, nonFinite := if b.nonFinite then 1 else 0,
          surplus := if c.1 = 0 ∧ 0 < b.surplus then 1 else 0, span := sp })

/-- Codes packed under R63. -/
def packCodes (w : Nat) (cs : List Nat) : Nat :=
  match cs with
  | [] => 0
  | c :: cs => c + 2 ^ w * packCodes w cs

/-- The block word of a quantised block (Table 03-6). -/
def QBlock.word (b : QBlock) : Nat :=
  place b.tag 62 + place b.scale0 40 + place b.scale1 32 + place b.side1 16 + b.side0

/-- A quantised block as it is stored. -/
def QBlock.raw (b : QBlock) : RawBlock := { word := b.word, payload := packCodes b.width b.codes }

/-- The FP32 pattern that a quantiser writes for an FP32 word: every zero is positive, every NaN canonical (R56, R57). -/
def toFp32 (x : F32) : F32 :=
  match num32 x with
  | .nan => nan32
  | .inf _ => x
  | .fin d => if d.m = 0 then 0 else x

/-- The BF16 pattern of an FP32 word (R57, R69, R70). -/
def toBf16 (md : Rnd) (r : Nat) (x : F32) : Conv :=
  match num32 x with
  | .nan => ⟨0x7FC0, false, false⟩
  | .inf s => ⟨if s then 0xFF80 else 0x7F80, false, false⟩
  | .fin d => EFmt.bf16.convert md r d

/-- The FP32 word of a BF16 pattern, exactly (R174): a NaN's payload is not propagated (R57), and a
negative zero keeps its sign (DESIGN CHOICE, notes/assumptions/116.md). -/
def ofBf16 (v : Nat) : F32 :=
  let x : F32 := BitVec.ofNat 32 (v % 65536 * 65536)
  if num32 x = .nan then nan32 else x

/-- An FP32 word that is widened or copied by a conversion: a NaN's payload is not propagated (R57). -/
def canonNan (x : F32) : F32 := if num32 x = .nan then nan32 else x

/-- The pattern that a BF16 or FP32 output writes for one FP32 word (R56, R57, R69, R70). -/
def rawConv (fw r : Nat) (x : F32) : Conv :=
  if fwBase fw = 5 then toBf16 (fwRnd fw) r x else ⟨(toFp32 x).toNat, false, false⟩

/-- What the conversions of raw elements count: a poisoned element counts nothing (R65), and raw elements form no blocks
for a range monitor (R82). -/
def rawStats (xs : List (Conv × Bool)) : QStats :=
  let ok := xs.filter fun x => !x.2
  { sat := (ok.filter fun x => x.1.sat).length, flush := (ok.filter fun x => x.1.flush).length }

/-! ## Consuming blocks (R56, R59 to R65, R107 to R116) -/

/-- A sparse form (Table 05-2): 0 dense, 1 S24 or S24T, 2 BSB16, 3 PIX. -/
abbrev Form := Nat

/-- The positions that an S24 index word names in group `g` (R112). -/
def s24Pair (index g : Nat) : Nat × Nat := (bits index (4 * g + 1) (4 * g), bits index (4 * g + 3) (4 * g + 2))

/-- The element positions present in a block by its index word. -/
def presentOf (form index : Nat) : List Nat :=
  match form with
  | 1 => (List.range 8).flatMap fun g => [4 * g + (s24Pair index g).1, 4 * g + (s24Pair index g).2]
  | 3 => (List.range 32).filter fun e => index.testBit e
  | _ => List.range 32

/-- The element code at a logical position of a block's payload; none at a structural zero (R63, R112, R113). -/
def codeAt (form w : Nat) (b : RawBlock) (e : Nat) : Option Nat :=
  if b.absent then none
  else match form with
  | 1 =>
    let p := s24Pair b.index (e / 4)
    if p.1 = e % 4 then some (b.payload / 2 ^ (w * (2 * (e / 4))) % 2 ^ w)
    else if p.2 = e % 4 then some (b.payload / 2 ^ (w * (2 * (e / 4) + 1)) % 2 ^ w)
    else none
  | 3 => if b.index.testBit e then some (b.payload / 2 ^ (w * e) % 2 ^ w) else none
  | _ => some (b.payload / 2 ^ (w * e) % 2 ^ w)

/-- A side entry of a T2 block breaks R61 (R112). -/
def t2SideBad (form : Nat) (b : RawBlock) : Bool :=
  let s0 := bits b.word 15 0
  let s1 := bits b.word 31 16
  let v0 := bit s0 15
  let v1 := bit s1 15
  let nOut := ((List.range 32).filter fun e => codeAt form 2 b e == some 2).length
  let nValid := (if v0 then 1 else 0) + (if v1 then 1 else 0)
  decide (nOut ≠ nValid) || (v1 && !v0) || (v0 && v1 && decide (bits s1 14 10 ≤ bits s0 14 10))
    || (v0 && codeAt form 2 b (bits s0 14 10) != some 2) || (v1 && codeAt form 2 b (bits s1 14 10) != some 2)

/-- A T2 block is malformed (R59, R61, R112). -/
def t2Bad (form : Nat) (b : RawBlock) : Bool := t2SideBad form b || bit b.word 47 || bit b.word 39

/-- A block's tag is outside its tensor's tags, or a T2 block breaks R61 (R64). -/
def tagBad (w : Nat) (form : Form) (b : RawBlock) : Bool :=
  let tag := bits b.word 63 62
  decide (fwCeil w < tag) || decide (tag < fwBaseTag w) || (tag == 0 && t2Bad form b)

/-- A sparse block has one of the faults of R115. -/
def sparseFault (form : Form) (b : RawBlock) : Bool :=
  form != 0 &&
    (decide (bits b.word 55 54 ≠ form)
      || (match form with
          | 1 => decide (bits b.word 61 56 ≠ 16)
            || (List.range 8).any fun g => decide ((s24Pair b.index g).2 ≤ (s24Pair b.index g).1)
          | 3 => decide (bits b.word 61 56 ≠ (presentOf 3 b.index).length)
          | _ => decide (bits b.word 61 56 ≠ 32))
      || (bit b.word 53 && form != 1)
      || (decide (bits b.word 63 62 = 0) && t2SideBad form b))

/-- A block read under a format word and a form is malformed (R64, R115). -/
def blockBad (w : Nat) (form : Form) (b : RawBlock) : Bool := fwTagged w && (tagBad w form b || sparseFault form b)

/-- How many blocks of a list of malformed ones report event 0x7004 (R64) and how many event 0x7803 (R115).
(DEDUCED: notes/assumptions/105.md.) -/
def malformedKinds (bs : List (RawBlock × Nat)) : Nat × Nat :=
  ((bs.filter fun p => !sparseFault p.2 p.1).length, (bs.filter fun p => sparseFault p.2 p.1).length)

/-- The product of two numbers; NaN where R80 says so. -/
def numMul (a b : Num) : Num :=
  match a, b with
  | .nan, _ => .nan
  | _, .nan => .nan
  | .inf s, .inf t => .inf (s != t)
  | .inf s, .fin y => if y.m = 0 then .nan else .inf (s != decide (y.m < 0))
  | .fin x, .inf t => if x.m = 0 then .nan else .inf (t != decide (x.m < 0))
  | .fin x, .fin y => .fin (x.mul y)

/-- The exact sum of two numbers. -/
def numAdd (a b : Num) : Num :=
  match a, b with
  | .nan, _ => .nan
  | _, .nan => .nan
  | .inf s, .inf t => if s = t then .inf s else .nan
  | .inf s, .fin _ => .inf s
  | .fin _, .inf t => .inf t
  | .fin x, .fin y => .fin (x.add y)

/-- The scaled value of a number. -/
def numScale (a : Num) (k : Int) : Num := match a with
  | .fin d => .fin (d.scale k)
  | n => n

/-- The value of element `e` of a well-formed block; none at a structural zero (R56, R59, R71, R107). -/
def elemNum (w : Nat) (form : Form) (b : RawBlock) (e : Nat) : Option Num :=
  match fwBase w with
  | 6 => some (EFmt.fp32.decode (b.payload / 2 ^ (32 * e) % 2 ^ 32))
  | 5 => some (EFmt.bf16.decode (b.payload / 2 ^ (16 * e) % 2 ^ 16))
  | 4 =>
    let k := bits b.word 47 40
    some (if k = 0xFF then .nan else numScale (EFmt.int8.decode (b.payload / 2 ^ (8 * e) % 256)) ((k : Int) - 127))
  | _ =>
    let tag := bits b.word 63 62
    match codeAt form (tagWidth tag) b e with
    | none => none
    | some c =>
      if tag = 0 then
        let sb := if e < 16 then bits b.word 47 40 else bits b.word 39 32
        let s := EFmt.e4m3.decode sb
        let side := if bits (bits b.word 15 0) 14 10 = e ∧ bit b.word 15 then bits b.word 7 0 else bits b.word 23 16
        some (match s with
          | .nan => .nan
          | s => match c with
            | 0 => .fin Dy.zero
            | 1 => s
            | 3 => numMul (.fin ⟨-1, 0⟩) s
            | _ => numMul (EFmt.e4m3.decode side) s)
      else
        let k := bits b.word 47 40
        some (if k = 0xFF then .nan else numScale ((tagFmt w tag).decode c) ((k : Int) - 127))

/-- The exact sum of the products of two lists of elements, structural zeros left out (R79, R107). -/
def sumProducts (a b : List (Option Num)) : Num :=
  (a.zip b).foldl (fun acc p => match p.1, p.2 with
    | some x, some y => numAdd acc (numMul x y)
    | _, _ => acc) (.fin Dy.zero)

/-- A block sum rounded once; an exact sum of zero is positive zero (R79, R80). -/
def blockSum (a b : List (Option Num)) : F32 := of32 (sumProducts a b)

/-! ## CRC-32 (R216, R249) -/

/-- One bit of the reflected IEEE 802.3 CRC-32. -/
def crcBit (c : BitVec 32) : BitVec 32 := if c.toNat % 2 = 1 then (c >>> 1) ^^^ 0xEDB88320 else c >>> 1

/-- One byte of it. -/
def crcByte (c : BitVec 32) (b : Byte) : BitVec 32 :=
  let x := c ^^^ BitVec.ofNat 32 b.toNat
  crcBit (crcBit (crcBit (crcBit (crcBit (crcBit (crcBit (crcBit x)))))))

/-- The IEEE 802.3 CRC-32 of a byte string. -/
def crc32 (bs : List Byte) : Nat := (bs.foldl crcByte 0xFFFFFFFF ^^^ 0xFFFFFFFF).toNat

end Sys2Proof.Machine
end

