-- ==== Sys2Proof/Machine/Compress.lean ====
section
/-! DEFINITION. Compressors: the present set and the sparse block of a vector of inputs (R136 to R142), and compressed block
records (R143, R144). Every function here looks only at its arguments. -/

namespace Sys2Proof.Machine

open Sys2Proof

/-! ## The sparse form word (Table 05-9) -/

/-- The form: 0 none, 1 S24, 2 BSB16, 3 PIX. -/
def sfForm (w : Nat) : Nat := bits w 31 30
/-- Transposable: S24T. -/
def sfS24T (w : Nat) : Bool := bit w 29
/-- PRUNE. -/
def sfPrune (w : Nat) : Bool := bit w 28
/-- The mask is the existing array. -/
def sfMask (w : Nat) : Bool := bit w 27
/-- Transpose. -/
def sfTranspose (w : Nat) : Bool := bit w 26
/-- PIX drop. -/
def sfDrop (w : Nat) : Bool := bit w 25
/-- The drop threshold byte. -/
def sfDropByte (w : Nat) : Nat := bits w 24 17

/-- A tensor format word meets R111: T2, MXFP4, MXFP6 or MXFP8 in framed layout. -/
def sparseTensor (fw : Nat) : Bool := fwTagged fw && fwFramed fw

/-- A sparse form word is rejected (R136). -/
def sfBad (w fw : Nat) : Bool :=
  (sfS24T w && sfForm w != 1) || (sfTranspose w && !sfS24T w) || (sfDrop w && sfForm w != 3)
    || sfDropByte w == 0xFF || decide (bits w 16 0 ≠ 0) || (sfForm w != 0 && !sparseTensor fw)

/-! ## Ranking inputs -/

/-- A magnitude for ranking: NaN above infinity above every finite value (R140). -/
def rankOf (x : Num) : Dy := match x with
  | .fin d => d.abs
  | .inf _ => ⟨1, 2000⟩
  | .nan => ⟨1, 3000⟩

/-- A non-zero input (R138). -/
def isNonZero (x : Num) : Bool := match x with
  | .fin d => decide (d.m ≠ 0)
  | _ => true

/-- Input `p` of a list ranks before input `q`: greater, or equal and lower. -/
def ranksBefore (xs : List Num) (p q : Nat) : Bool :=
  let a := rankOf (xs.getD p (.fin Dy.zero))
  let b := rankOf (xs.getD q (.fin Dy.zero))
  b.lt a || (a.le b && b.le a && decide (p < q))

/-- The positions of a list in rank order. -/
def insertRanked (xs : List Num) (p : Nat) (order : List Nat) : List Nat :=
  match order with
  | [] => [p]
  | q :: qs => if ranksBefore xs p q then p :: q :: qs else q :: insertRanked xs p qs

/-- All positions of a list in rank order. -/
def rankOrder (xs : List Num) (n : Nat) : List Nat := (List.range n).foldr (fun p o => insertRanked xs p o) []

/-! ## Present sets -/

/-- The pair of an S24 group: the chosen positions, filled with the lowest others, in ascending order (R138). -/
def s24Fill (chosen : List Nat) : Nat × Nat :=
  let two := (chosen ++ (List.range 4).filter fun p => !chosen.contains p).take 2
  (min (two.getD 0 0) (two.getD 1 0), max (two.getD 0 0) (two.getD 1 0))

/-- The chosen positions of one group of four inputs, and whether it is over-full (R138, R140). -/
def s24Group (xs : List Num) : List Nat × Bool :=
  let nz := (List.range 4).filter fun p => isNonZero (xs.getD p (.fin Dy.zero))
  if nz.length ≤ 2 then (nz, false) else ((rankOrder xs 4).take 2, true)

/-- The accepted inputs of a 4 × 4 tile in row-major positions (R140). -/
def s24tAccept (xs : List Num) : List Nat :=
  (rankOrder xs 16).foldl (fun acc p =>
    if (acc.filter fun q => decide (q / 4 = p / 4)).length < 2 ∧ (acc.filter fun q => decide (q % 4 = p % 4)).length < 2
    then acc ++ [p] else acc) []

/-- A tile breaks the vector rule or the position rule: more than two non-zero inputs in a row or in a column. -/
def s24tBreaks (xs : List Num) : Bool :=
  let nz := fun p => isNonZero (xs.getD p (.fin Dy.zero))
  (List.range 4).any fun r => decide (2 < ((List.range 4).filter fun c => nz (4 * r + c)).length)
    || decide (2 < ((List.range 4).filter fun c => nz (4 * c + r)).length)

/-- The index word of eight S24 pairs. -/
def s24Index (ps : List (Nat × Nat)) : Nat := packCodes 4 (ps.map fun p => p.2 * 4 + p.1)

/-- What the compressor made of one block. -/
structure CBlock where
  raw : RawBlock
  stats : QStats := {}
  pruned : Nat := 0
  rejected : Nat := 0
  broken : Bool := false
  dropped : Nat := 0
  deriving DecidableEq, Repr

/-- Quantises the present inputs of a block, structural zeros as zero, and stores it in its form (R112, R113, R137). -/
def sparseBlock (fw limit form : Nat) (s24t : Bool) (rand : Nat → Nat) (xs : List Num) (index : Nat) (present : Nat → Bool) :
    CBlock :=
  let ins := (List.range 32).map fun e => if present e then xs.getD e (.fin Dy.zero) else .fin Dy.zero
  let q := quantiseBlock fw limit rand ins
  let codes := if form = 1 then (presentOf 1 index).map fun e => q.1.codes.getD e 0 else q.1.codes
  let count := match form with
    | 1 => 16
    | 3 => (presentOf 3 index).length
    | _ => 32
  { raw := {
      word := q.1.word + place count 56 + place form 54 + (if s24t then 2 ^ 53 else 0)
      index := if form = 2 then 0 else index
      payload := packCodes q.1.width codes }
    stats := q.2 }

/-! ## Compressing a tensor of vectors -/

/-- The inputs of a compression: `vectors` vectors of `len` elements in `vb` blocks, the existing mask of a block (its
index word, or 1 when a map marks it present) with the blocks whose mask is poisoned, and the random value of the output's
element by its place in the output (R76). -/
structure CInput where
  fw : Nat
  sf : Nat
  limit : Nat
  vectors : Nat
  len : Nat
  vb : Nat
  value : Nat → Nat → F32
  poisoned : Nat → Nat → Bool
  mask : Nat → Nat → Nat
  maskBad : Nat → Nat → Bool := fun _ _ => false
  rand : Nat → Nat

/-- The random value of element `p` of vector `v` of the output in its logical order (R76, R78). -/
def CInput.draw (c : CInput) (v p : Nat) : Nat := c.rand (v * c.len + p)

/-- How many non-zero inputs of a block lie at positions that the existing mask marks absent (R141). -/
def CInput.drops (c : CInput) (xs : List Num) (keeps : Nat → Bool) : Nat :=
  if sfMask c.sf then ((List.range 32).filter fun e => isNonZero (xs.getD e (.fin Dy.zero)) && !keeps e).length else 0

/-- The 32 inputs of block `b` of vector `v`. -/
def CInput.block (c : CInput) (v b : Nat) : List Num := (List.range 32).map fun e => num32 (c.value v (32 * b + e))

/-- The tile of group `g` of block `b` that holds vector `v`: four vectors by four positions, row by row. -/
def CInput.tile (c : CInput) (v b g : Nat) : List Num :=
  (List.range 16).map fun k => num32 (c.value (v / 4 * 4 + k / 4) (32 * b + 4 * g + k % 4))

/-- Block `b` of vector `v` in S24 or S24T form. -/
def CInput.s24 (c : CInput) (v b : Nat) : CBlock :=
  let xs := c.block v b
  let group := fun (g : Nat) => (xs.drop (4 * g)).take 4
  let chosen := (List.range 8).map fun g =>
    if sfS24T c.sf then (s24tAccept (c.tile v b g)).filterMap fun p => if p / 4 = v % 4 then some (p % 4) else none
    else (s24Group (group g)).1
  let pairs := (List.range 8).map fun g =>
    if sfMask c.sf then s24Pair (c.mask v b) g else s24Fill (chosen.getD g [])
  let index := s24Index pairs
  let keeps := fun (e : Nat) => let p := pairs.getD (e / 4) (0, 1); decide (e % 4 = p.1 ∨ e % 4 = p.2)
  let taken := fun (e : Nat) => if sfMask c.sf then keeps e else (chosen.getD (e / 4) []).contains (e % 4)
  let lost := (List.range 8).filter fun g => (List.range 4).any fun k =>
    isNonZero (xs.getD (4 * g + k) (.fin Dy.zero)) && !taken (4 * g + k)
  let breaks := if sfS24T c.sf then (List.range 8).any fun g => s24tBreaks (c.tile v b g) else !lost.isEmpty
  let out := sparseBlock c.fw c.limit 1 (sfS24T c.sf) (fun e => c.draw v (32 * b + e)) xs index taken
  if sfMask c.sf then { out with dropped := c.drops xs keeps }
  else if sfPrune c.sf then { out with pruned := lost.length }
  else if breaks then { out with raw := { out.raw with poison := true }, stats := {}, rejected := 1 }
  else out

/-- The transposed tensor's value (R142, bit 26): its vectors are the positions of the source. -/
def CInput.transposed (c : CInput) : CInput :=
  { c with vectors := c.len, len := c.vectors, vb := ceilDiv c.vectors 32
           value := fun v p => if p < c.vectors then c.value p v else 0
           poisoned := fun v p => decide (p < c.vectors) && (c.poisoned p v || (sfMask c.sf && c.maskBad p (v / 32))) }

/-- Block `b` of vector `v` of the transpose of an S24T tensor, emitted as S24; a tile that breaks the S24T property
poisons the blocks it lies in. (DEDUCED: notes/assumptions/41.md.) -/
def CInput.transposeBlock (c : CInput) (v b : Nat) : CBlock :=
  let t := c.transposed
  let kept := fun (sv sp : Nat) => !sfMask c.sf ||
    (let p := s24Pair (c.mask sv (sp / 32)) (sp % 32 / 4); decide (sp % 4 = p.1 ∨ sp % 4 = p.2))
  let value := fun v p => if kept p v then num32 (t.value v p) else .fin Dy.zero
  let xs := (List.range 32).map fun e => value v (32 * b + e)
  let tileOf := fun (g : Nat) => (List.range 16).map fun k => value (v / 4 * 4 + k / 4) (32 * b + 4 * g + k % 4)
  let broken := (List.range 8).any fun g => s24tBreaks (tileOf g)
  let pairs := (List.range 8).map fun g => s24Fill (s24Group ((xs.drop (4 * g)).take 4)).1
  let index := s24Index pairs
  let keeps := fun (e : Nat) => let p := pairs.getD (e / 4) (0, 1); decide (e % 4 = p.1 ∨ e % 4 = p.2)
  let out := sparseBlock c.fw c.limit 1 false (fun e => t.draw v (32 * b + e)) xs index keeps
  let drops := ((List.range 32).filter fun e => isNonZero (num32 (t.value v (32 * b + e))) && !kept (32 * b + e) v).length
  let out := { out with dropped := drops }
  if broken then { out with raw := { out.raw with poison := true }, stats := {}, broken := true } else out

/-- Block `b` of vector `v` in PIX form (R142). -/
def CInput.pix (c : CInput) (v b : Nat) : CBlock :=
  let xs := c.block v b
  let keep := fun (e : Nat) =>
    if sfMask c.sf then (c.mask v b).testBit e
    else
      let x := xs.getD e (.fin Dy.zero)
      isNonZero x && (!sfDrop c.sf || (match x with
        | .fin d => Dy.le ⟨1, (sfDropByte c.sf : Int) - 127⟩ d.abs
        | _ => true))
  let index := ((List.range 32).filter keep).foldl (fun a e => a + 2 ^ e) 0
  { sparseBlock c.fw c.limit 3 false (fun e => c.draw v (32 * b + e)) xs index keep with dropped := c.drops xs keep }

/-- Block `b` of vector `v` in BSB16 form: absent when all its inputs are zero, or as the existing map says. -/
def CInput.bsb (c : CInput) (v b : Nat) : CBlock :=
  let xs := c.block v b
  let here := if sfMask c.sf then c.mask v b != 0 else xs.any isNonZero
  if here then sparseBlock c.fw c.limit 2 false (fun e => c.draw v (32 * b + e)) xs 0 fun _ => true
  else { raw := { absent := true }, dropped := c.drops xs fun _ => false }

/-- A dense block (form 0b00) of a format that has blocks. -/
def CInput.dense (c : CInput) (v b : Nat) : CBlock :=
  let q := quantiseBlock c.fw c.limit (fun e => c.draw v (32 * b + e)) (c.block v b)
  { raw := q.1.raw, stats := q.2 }

/-- The elements of a BF16 or FP32 output with their marks, vector by vector: each is poisoned by its own input alone
(R65). -/
def CInput.elements (c : CInput) : List (Conv × Bool) :=
  (List.range c.vectors).flatMap fun v => (List.range c.len).map fun p =>
    (rawConv c.fw (c.draw v p) (c.value v p), c.poisoned v p)

/-- The vectors of a tensor whose elements decide what becomes of a block of vector `v`: an S24T tile ranks and checks four
vectors together, unless an existing mask says what is present (R140, R141). -/
def CInput.deciders (c : CInput) (v : Nat) : List Nat :=
  if sfS24T c.sf && (!sfMask c.sf || sfTranspose c.sf) then (List.range 4).map fun k => v / 4 * 4 + k else [v]

/-- Block `b` of vector `v` of the output, with the poison of the inputs that decide it (R65): a poisoned block counts nothing. -/
def CInput.outBlock (c : CInput) (v b : Nat) : CBlock :=
  let src := if sfTranspose c.sf then c.transposed else c
  let out := match sfForm c.sf with
    | 1 => if sfTranspose c.sf then c.transposeBlock v b else c.s24 v b
    | 2 => c.bsb v b
    | 3 => c.pix v b
    | _ => c.dense v b
  if ((c.deciders v).any fun w => decide (w < src.vectors) && (List.range 32).any fun e => src.poisoned w (32 * b + e)) || (sfMask c.sf && !sfTranspose c.sf && c.maskBad v b) then
    { raw := { out.raw with poison := true, absent := false } }
  else out

/-- The output blocks, vector by vector. -/
def CInput.blocks (c : CInput) : List CBlock :=
  let d := if sfTranspose c.sf then c.transposed else c
  (List.range d.vectors).flatMap fun v => (List.range d.vb).map fun b => c.outBlock v b

/-- The map bytes of the blocks of a BSB16 tensor, tile by tile (R114). -/
def mapTiles (vectors vb : Nat) (bs : List CBlock) : List Nat :=
  (List.range (ceilDiv vectors 16)).flatMap fun v => (List.range (ceilDiv vb 16)).map fun b =>
    ((List.range 256).filter fun k =>
      let x := 16 * v + k / 16
      let y := 16 * b + k % 16
      decide (x < vectors ∧ y < vb) && !(bs.getD (x * vb + y) { raw := {} }).raw.absent).foldl (fun a k => a + 2 ^ k) 0

/-! ## Compressed block records (R143, R144) -/

/-- The payload of a compressed record: the present elements only, packed. -/
def recordPayload (b : RawBlock) : Nat × Nat :=
  let w := tagWidth (bits b.word 63 62)
  let form := bits b.word 55 54
  let n := if form = 1 then 16 else (presentOf form b.index).length
  let v := if form = 3 then packCodes w ((presentOf 3 b.index).map fun e => b.payload / 2 ^ (w * e) % 2 ^ w)
    else b.payload % 2 ^ (w * n)
  (v, ceilDiv (n * w) 8)

/-- The compressed record of a block. -/
def blockRecord (b : RawBlock) : List Byte :=
  if b.poison then toBytes 8 0 ++ toBytes 4 0xFFFFFFFF
  else
    let p := recordPayload b
    toBytes 8 b.word ++ toBytes 4 b.index ++ padTo (ceilDiv p.2 4 * 4) (toBytes p.2 p.1)

/-- Reads one compressed record: the block, its frame rebuilt, and the bytes it took. -/
def readRecord (bs : List Byte) : Option (RawBlock × Nat) :=
  if bs.length < 12 then none
  else
    let word := ofBytes (bs.take 8)
    let index := ofBytes ((bs.drop 8).take 4)
    let form := bits word 55 54
    if form = 0 ∧ index = 0xFFFFFFFF then some ({ poison := true }, 12)
    else
      let w := tagWidth (bits word 63 62)
      let ps := presentOf form index
      let n := if form = 1 then 16 else ps.length
      let len := ceilDiv (n * w) 8
      let total := 12 + ceilDiv len 4 * 4
      if bs.length < total then none
      else
        let v := ofBytes ((bs.drop 12).take len)
        let payload := if form = 3 then
            ((ps.zip (List.range ps.length)).map fun p => v / 2 ^ (w * p.2) % 2 ^ w * 2 ^ (w * p.1)).sum
          else v % 2 ^ (w * n)
        some ({ word := word, index := index, payload := payload }, total)

end Sys2Proof.Machine
end

