-- ==== Sys2Proof/Machine/Dictionary.lean ====
section
/-! DEFINITION. The object dictionary as chapter 18 lists it (R473, R474, Tables 18-6 and 18-9 to 18-16): one row per
run of subindices of one type, access class and default, and the default of every scalar. A default that the manual
gives as "—" or as set by fuses or at bring-up is listed as 0 here (DESIGN CHOICE, notes/assumptions/1.md). -/

namespace Sys2Proof.Machine

/-- Access classes (Table 00-3). The device has no rwc and no rwo object. -/
inductive ObjAccess where
  | const | ro | rw | wo
  deriving DecidableEq, Repr

/-- A run of subindices `lo` to `hi` of the objects `idx` to `idx + count − 1`: size in bytes (0 for a domain),
whether it is an INTEGER, access class and default. -/
structure ObjRow where
  idx : Nat
  count : Nat
  lo : Nat
  hi : Nat
  size : Nat
  isInt : Bool
  acc : ObjAccess
  dflt : Nat
  deriving DecidableEq, Repr

/-- Rows of the object tables, part 1. -/
def objRows1 : List ObjRow := [
  ⟨0x1000, 1, 0x00, 0x00, 4, false, .const, 0⟩,
  ⟨0x1001, 1, 0x00, 0x00, 1, false, .ro, 0⟩,
  ⟨0x1003, 1, 0x00, 0x00, 1, false, .rw, 0⟩,
  ⟨0x1003, 1, 0x01, 0x10, 4, false, .ro, 0⟩,
  ⟨0x1008, 1, 0x00, 0x00, 0, false, .const, 0⟩,
  ⟨0x1009, 1, 0x00, 0x00, 0, false, .const, 0⟩,
  ⟨0x100A, 1, 0x00, 0x00, 0, false, .ro, 0⟩,
  ⟨0x1011, 1, 0x00, 0x00, 1, false, .const, 1⟩,
  ⟨0x1011, 1, 0x01, 0x01, 4, false, .wo, 0⟩,
  ⟨0x1017, 1, 0x00, 0x00, 2, false, .rw, 1000⟩,
  ⟨0x1018, 1, 0x00, 0x00, 1, false, .const, 4⟩,
  ⟨0x1018, 1, 0x01, 0x01, 4, false, .const, 2607⟩,
  ⟨0x1018, 1, 0x02, 0x02, 4, false, .const, 0x82048⟩,
  ⟨0x1018, 1, 0x03, 0x03, 4, false, .const, 162⟩,
  ⟨0x1018, 1, 0x04, 0x04, 4, false, .const, 0⟩,
  ⟨0x2000, 1, 0x00, 0x00, 1, false, .const, 8⟩,
  ⟨0x2000, 1, 0x01, 0x01, 8, false, .const, 0⟩,
  ⟨0x2000, 1, 0x02, 0x02, 1, false, .const, 162⟩,
  ⟨0x2000, 1, 0x03, 0x03, 0, false, .const, 0⟩,
  ⟨0x2000, 1, 0x04, 0x04, 2, false, .const, 0⟩,
  ⟨0x2000, 1, 0x05, 0x08, 8, false, .const, 0⟩,
  ⟨0x2010, 1, 0x00, 0x00, 1, false, .const, 5⟩,
  ⟨0x2010, 1, 0x01, 0x01, 0, false, .rw, 0⟩,
  ⟨0x2010, 1, 0x02, 0x04, 1, false, .ro, 0⟩,
  ⟨0x2010, 1, 0x05, 0x05, 1, false, .wo, 0⟩,
  ⟨0x2030, 1, 0x00, 0x00, 1, false, .const, 3⟩,
  ⟨0x2030, 1, 0x01, 0x01, 0, false, .wo, 0⟩,
  ⟨0x2030, 1, 0x02, 0x02, 1, false, .rw, 0⟩,
  ⟨0x2030, 1, 0x03, 0x03, 1, false, .ro, 0⟩,
  ⟨0x20F0, 1, 0x00, 0x00, 1, false, .const, 5⟩]

/-- Rows of the object tables, part 2. -/
def objRows2 : List ObjRow := [
  ⟨0x20F0, 1, 0x01, 0x01, 1, false, .ro, 1⟩,
  ⟨0x20F0, 1, 0x02, 0x02, 2, false, .ro, 0⟩,
  ⟨0x20F0, 1, 0x03, 0x03, 4, false, .ro, 0⟩,
  ⟨0x20F0, 1, 0x04, 0x04, 4, false, .ro, 0⟩,
  ⟨0x20F0, 1, 0x05, 0x05, 4, false, .rw, 0x1ffff⟩,
  ⟨0x20F8, 1, 0x00, 0x00, 1, false, .const, 10⟩,
  ⟨0x20F8, 1, 0x01, 0x05, 4, false, .ro, 0⟩,
  ⟨0x20F8, 1, 0x06, 0x0A, 4, false, .ro, 0⟩,
  ⟨0x2100, 1, 0x00, 0x00, 1, false, .const, 7⟩,
  ⟨0x2100, 1, 0x01, 0x01, 0, false, .rw, 0⟩,
  ⟨0x2100, 1, 0x02, 0x03, 1, false, .ro, 0⟩,
  ⟨0x2100, 1, 0x04, 0x04, 1, false, .rw, 1⟩,
  ⟨0x2100, 1, 0x05, 0x05, 1, false, .wo, 0⟩,
  ⟨0x2100, 1, 0x06, 0x06, 8, false, .ro, 0⟩,
  ⟨0x2100, 1, 0x07, 0x07, 1, false, .ro, 1⟩,
  ⟨0x2110, 1, 0x00, 0x00, 1, false, .const, 3⟩,
  ⟨0x2110, 1, 0x01, 0x01, 1, false, .wo, 0⟩,
  ⟨0x2110, 1, 0x02, 0x02, 1, false, .ro, 0⟩,
  ⟨0x2110, 1, 0x03, 0x03, 1, false, .wo, 0⟩,
  ⟨0x2200, 1, 0x00, 0x00, 1, false, .const, 10⟩,
  ⟨0x2200, 1, 0x01, 0x01, 2, false, .rw, 12500⟩,
  ⟨0x2200, 1, 0x02, 0x03, 2, false, .ro, 0⟩,
  ⟨0x2200, 1, 0x04, 0x04, 2, false, .ro, 0⟩,
  ⟨0x2200, 1, 0x05, 0x05, 2, false, .ro, 65535⟩,
  ⟨0x2200, 1, 0x06, 0x06, 8, false, .ro, 0⟩,
  ⟨0x2200, 1, 0x07, 0x07, 2, false, .ro, 65535⟩,
  ⟨0x2200, 1, 0x08, 0x08, 1, false, .wo, 0⟩,
  ⟨0x2200, 1, 0x09, 0x09, 2, false, .rw, 8191⟩,
  ⟨0x2200, 1, 0x0A, 0x0A, 1, false, .wo, 0⟩,
  ⟨0x2210, 1, 0x00, 0x00, 1, false, .const, 7⟩]

/-- Rows of the object tables, part 3. -/
def objRows3 : List ObjRow := [
  ⟨0x2210, 1, 0x01, 0x01, 1, false, .rw, 1⟩,
  ⟨0x2210, 1, 0x02, 0x02, 2, false, .rw, 1200⟩,
  ⟨0x2210, 1, 0x03, 0x03, 4, false, .rw, 2000⟩,
  ⟨0x2210, 1, 0x04, 0x04, 2, false, .ro, 0⟩,
  ⟨0x2210, 1, 0x05, 0x06, 8, false, .ro, 0⟩,
  ⟨0x2210, 1, 0x07, 0x07, 2, false, .rw, 2⟩,
  ⟨0x2220, 1, 0x00, 0x00, 1, false, .const, 3⟩,
  ⟨0x2220, 1, 0x01, 0x01, 1, false, .rw, 40⟩,
  ⟨0x2220, 1, 0x02, 0x02, 1, false, .rw, 85⟩,
  ⟨0x2220, 1, 0x03, 0x03, 2, false, .rw, 50⟩,
  ⟨0x2230, 1, 0x00, 0x00, 1, false, .const, 3⟩,
  ⟨0x2230, 1, 0x01, 0x01, 2, false, .rw, 750⟩,
  ⟨0x2230, 1, 0x02, 0x02, 2, false, .rw, 700⟩,
  ⟨0x2230, 1, 0x03, 0x03, 2, false, .rw, 650⟩,
  ⟨0x2300, 1, 0x00, 0x00, 1, false, .const, 3⟩,
  ⟨0x2300, 1, 0x01, 0x01, 1, false, .rw, 100⟩,
  ⟨0x2300, 1, 0x02, 0x02, 1, false, .const, 115⟩,
  ⟨0x2300, 1, 0x03, 0x03, 2, false, .rw, 255⟩,
  ⟨0x2310, 1, 0x00, 0x00, 1, false, .const, 2⟩,
  ⟨0x2310, 1, 0x01, 0x02, 2, false, .ro, 0⟩,
  ⟨0x2320, 1, 0x00, 0x00, 1, false, .const, 5⟩,
  ⟨0x2320, 1, 0x01, 0x01, 1, false, .wo, 0⟩,
  ⟨0x2320, 1, 0x02, 0x02, 2, false, .rw, 0⟩,
  ⟨0x2320, 1, 0x03, 0x03, 1, false, .rw, 16⟩,
  ⟨0x2320, 1, 0x04, 0x04, 1, false, .rw, 8⟩,
  ⟨0x2320, 1, 0x05, 0x05, 8, false, .ro, 0⟩,
  ⟨0x2400, 1, 0x00, 0x00, 1, false, .const, 1⟩,
  ⟨0x2400, 1, 0x01, 0x01, 2, false, .rw, 2047⟩,
  ⟨0x2410, 8, 0x00, 0x00, 1, false, .const, 27⟩,
  ⟨0x2410, 8, 0x01, 0x18, 4, false, .ro, 0⟩]

/-- Rows of the object tables, part 4. -/
def objRows4 : List ObjRow := [
  ⟨0x2410, 8, 0x19, 0x19, 2, false, .ro, 384⟩,
  ⟨0x2410, 8, 0x1A, 0x1A, 4, false, .ro, 0⟩,
  ⟨0x2410, 8, 0x1B, 0x1B, 4, false, .ro, 1⟩,
  ⟨0x2420, 1, 0x00, 0x00, 1, false, .const, 3⟩,
  ⟨0x2420, 1, 0x01, 0x02, 2, false, .wo, 0⟩,
  ⟨0x2420, 1, 0x03, 0x03, 2, false, .ro, 0⟩,
  ⟨0x2430, 1, 0x00, 0x00, 1, false, .const, 8⟩,
  ⟨0x2430, 1, 0x01, 0x08, 1, false, .rw, 0⟩,
  ⟨0x2500, 1, 0x00, 0x00, 1, false, .const, 9⟩,
  ⟨0x2500, 1, 0x01, 0x01, 1, false, .rw, 0⟩,
  ⟨0x2500, 1, 0x02, 0x02, 2, false, .rw, 0⟩,
  ⟨0x2500, 1, 0x03, 0x03, 1, false, .rw, 4⟩,
  ⟨0x2500, 1, 0x04, 0x04, 1, false, .rw, 30⟩,
  ⟨0x2500, 1, 0x05, 0x05, 1, false, .rw, 0⟩,
  ⟨0x2500, 1, 0x06, 0x06, 1, false, .wo, 0⟩,
  ⟨0x2500, 1, 0x07, 0x07, 2, false, .ro, 0⟩,
  ⟨0x2500, 1, 0x08, 0x08, 1, false, .ro, 0⟩,
  ⟨0x2500, 1, 0x09, 0x09, 2, false, .rw, 65535⟩,
  ⟨0x2510, 1, 0x00, 0x00, 1, false, .const, 4⟩,
  ⟨0x2510, 1, 0x01, 0x01, 8, false, .rw, 0⟩,
  ⟨0x2510, 1, 0x02, 0x02, 8, false, .ro, 0⟩,
  ⟨0x2510, 1, 0x03, 0x03, 4, false, .ro, 0⟩,
  ⟨0x2510, 1, 0x04, 0x04, 1, false, .rw, 2⟩,
  ⟨0x2520, 1, 0x00, 0x00, 1, false, .const, 3⟩,
  ⟨0x2520, 1, 0x01, 0x01, 1, false, .rw, 1⟩,
  ⟨0x2520, 1, 0x02, 0x02, 1, false, .wo, 0⟩,
  ⟨0x2520, 1, 0x03, 0x03, 1, false, .rw, 3⟩,
  ⟨0x2530, 1, 0x00, 0x00, 1, false, .const, 9⟩,
  ⟨0x2530, 1, 0x01, 0x01, 2, false, .rw, 600⟩,
  ⟨0x2530, 1, 0x02, 0x02, 2, false, .rw, 10⟩]

/-- Rows of the object tables, part 5. -/
def objRows5 : List ObjRow := [
  ⟨0x2530, 1, 0x03, 0x03, 2, false, .ro, 1000⟩,
  ⟨0x2530, 1, 0x04, 0x04, 4, false, .ro, 0⟩,
  ⟨0x2530, 1, 0x05, 0x06, 1, false, .ro, 0⟩,
  ⟨0x2530, 1, 0x07, 0x07, 2, false, .rw, 720⟩,
  ⟨0x2530, 1, 0x08, 0x08, 2, false, .ro, 0⟩,
  ⟨0x2530, 1, 0x09, 0x09, 2, false, .wo, 0⟩,
  ⟨0x2540, 1, 0x00, 0x00, 1, false, .const, 6⟩,
  ⟨0x2540, 1, 0x01, 0x05, 8, false, .ro, 0⟩,
  ⟨0x2540, 1, 0x06, 0x06, 1, false, .wo, 0⟩,
  ⟨0x2550, 1, 0x00, 0x00, 1, false, .const, 2⟩,
  ⟨0x2550, 1, 0x01, 0x01, 0, false, .ro, 0⟩,
  ⟨0x2550, 1, 0x02, 0x02, 1, false, .wo, 0⟩,
  ⟨0x2600, 1, 0x00, 0x00, 1, false, .const, 5⟩,
  ⟨0x2600, 1, 0x01, 0x01, 1, false, .rw, 1⟩,
  ⟨0x2600, 1, 0x02, 0x02, 2, false, .const, 2000⟩,
  ⟨0x2600, 1, 0x03, 0x03, 1, false, .const, 4⟩,
  ⟨0x2600, 1, 0x04, 0x04, 2, false, .rw, 2047⟩,
  ⟨0x2600, 1, 0x05, 0x05, 1, false, .wo, 0⟩,
  ⟨0x2601, 1, 0x00, 0x00, 1, false, .const, 24⟩,
  ⟨0x2601, 1, 0x01, 0x18, 4, false, .rw, 0⟩,
  ⟨0x2602, 1, 0x00, 0x00, 1, false, .const, 3⟩,
  ⟨0x2602, 1, 0x01, 0x01, 8, false, .wo, 0⟩,
  ⟨0x2602, 1, 0x02, 0x02, 1, false, .wo, 0⟩,
  ⟨0x2602, 1, 0x03, 0x03, 2, false, .ro, 0⟩,
  ⟨0x2610, 1, 0x00, 0x00, 1, false, .const, 3⟩,
  ⟨0x2610, 1, 0x01, 0x01, 0, false, .ro, 0⟩,
  ⟨0x2610, 1, 0x02, 0x02, 4, false, .ro, 0⟩,
  ⟨0x2610, 1, 0x03, 0x03, 8, false, .ro, 0⟩,
  ⟨0x2630, 1, 0x00, 0x00, 1, false, .const, 8⟩,
  ⟨0x2630, 1, 0x01, 0x01, 4, false, .wo, 0⟩]

/-- Rows of the object tables, part 6. -/
def objRows6 : List ObjRow := [
  ⟨0x2630, 1, 0x02, 0x02, 4, false, .rw, 0x5f5541⟩,
  ⟨0x2630, 1, 0x03, 0x03, 1, false, .rw, 10⟩,
  ⟨0x2630, 1, 0x04, 0x04, 1, false, .rw, 50⟩,
  ⟨0x2630, 1, 0x05, 0x05, 2, false, .rw, 127⟩,
  ⟨0x2630, 1, 0x06, 0x06, 4, false, .ro, 0⟩,
  ⟨0x2630, 1, 0x07, 0x07, 4, false, .wo, 0⟩,
  ⟨0x2630, 1, 0x08, 0x08, 2, false, .rw, 60⟩,
  ⟨0x2700, 64, 0x00, 0x00, 1, false, .const, 63⟩,
  ⟨0x2700, 64, 0x01, 0x01, 1, false, .ro, 0⟩,
  ⟨0x2700, 64, 0x02, 0x02, 1, false, .wo, 0⟩,
  ⟨0x2700, 64, 0x03, 0x03, 1, false, .rw, 0⟩,
  ⟨0x2700, 64, 0x04, 0x04, 8, false, .rw, 0⟩,
  ⟨0x2700, 64, 0x05, 0x05, 1, false, .rw, 4⟩,
  ⟨0x2700, 64, 0x06, 0x06, 4, false, .ro, 0⟩,
  ⟨0x2700, 64, 0x07, 0x07, 8, false, .rw, 0⟩,
  ⟨0x2700, 64, 0x08, 0x0A, 4, false, .ro, 0⟩,
  ⟨0x2700, 64, 0x0B, 0x0B, 8, false, .ro, 0⟩,
  ⟨0x2700, 64, 0x0C, 0x0C, 4, false, .ro, 0⟩,
  ⟨0x2700, 64, 0x20, 0x20, 1, false, .rw, 0⟩,
  ⟨0x2700, 64, 0x30, 0x30, 2, false, .ro, 0⟩,
  ⟨0x2700, 64, 0x31, 0x32, 1, false, .ro, 255⟩,
  ⟨0x2700, 64, 0x33, 0x34, 8, false, .ro, 0⟩,
  ⟨0x2700, 64, 0x35, 0x35, 8, false, .rw, 0x77359400⟩,
  ⟨0x2700, 64, 0x36, 0x36, 8, false, .ro, 0⟩,
  ⟨0x2700, 64, 0x37, 0x37, 2, false, .ro, 65535⟩,
  ⟨0x2700, 64, 0x38, 0x38, 2, false, .ro, 0⟩,
  ⟨0x2700, 64, 0x39, 0x39, 8, false, .ro, 0⟩,
  ⟨0x2700, 64, 0x3A, 0x3A, 2, false, .ro, 65535⟩,
  ⟨0x2700, 64, 0x3B, 0x3B, 1, false, .ro, 255⟩,
  ⟨0x2700, 64, 0x3C, 0x3C, 4, false, .ro, 0⟩]

/-- Rows of the object tables, part 7. -/
def objRows7 : List ObjRow := [
  ⟨0x2700, 64, 0x3D, 0x3F, 1, false, .ro, 0⟩,
  ⟨0x2800, 1, 0x00, 0x00, 1, false, .const, 5⟩,
  ⟨0x2800, 1, 0x01, 0x01, 4, false, .rw, 20000⟩,
  ⟨0x2800, 1, 0x02, 0x02, 1, false, .rw, 1⟩,
  ⟨0x2800, 1, 0x03, 0x03, 4, false, .rw, 0x1ffff⟩,
  ⟨0x2800, 1, 0x04, 0x04, 8, false, .ro, 0⟩,
  ⟨0x2800, 1, 0x05, 0x05, 1, false, .wo, 0⟩,
  ⟨0x2810, 1, 0x00, 0x00, 1, false, .const, 4⟩,
  ⟨0x2810, 1, 0x01, 0x01, 1, false, .rw, 0⟩,
  ⟨0x2810, 1, 0x02, 0x02, 2, false, .rw, 0⟩,
  ⟨0x2810, 1, 0x03, 0x03, 8, false, .ro, 0⟩,
  ⟨0x2810, 1, 0x04, 0x04, 2, false, .ro, 65535⟩,
  ⟨0x2840, 64, 0x00, 0x00, 1, false, .const, 3⟩,
  ⟨0x2840, 64, 0x01, 0x01, 0, false, .rw, 0⟩,
  ⟨0x2840, 64, 0x02, 0x02, 2, false, .rw, 0⟩,
  ⟨0x2840, 64, 0x03, 0x03, 8, false, .rw, 0⟩,
  ⟨0x2900, 1, 0x00, 0x00, 1, false, .const, 8⟩,
  ⟨0x2900, 1, 0x01, 0x01, 2, false, .rw, 0⟩,
  ⟨0x2900, 1, 0x02, 0x02, 8, false, .rw, 0⟩,
  ⟨0x2900, 1, 0x03, 0x06, 8, false, .ro, 0⟩,
  ⟨0x2900, 1, 0x07, 0x07, 4, false, .ro, 0⟩,
  ⟨0x2900, 1, 0x08, 0x08, 2, false, .ro, 0⟩,
  ⟨0x29E0, 1, 0x00, 0x00, 1, false, .const, 6⟩,
  ⟨0x29E0, 1, 0x01, 0x01, 4, false, .rw, 4096⟩,
  ⟨0x29E0, 1, 0x02, 0x02, 2, false, .rw, 16⟩,
  ⟨0x29E0, 1, 0x03, 0x03, 2, false, .rw, 255⟩,
  ⟨0x29E0, 1, 0x04, 0x05, 8, false, .ro, 0⟩,
  ⟨0x29E0, 1, 0x06, 0x06, 4, false, .ro, 0⟩,
  ⟨0x29E1, 1, 0x00, 0x00, 1, false, .const, 1⟩,
  ⟨0x29E1, 1, 0x01, 0x01, 1, false, .wo, 0⟩]

/-- Rows of the object tables, part 8. -/
def objRows8 : List ObjRow := [
  ⟨0x2A00, 1, 0x00, 0x00, 1, false, .const, 8⟩,
  ⟨0x2A00, 1, 0x01, 0x01, 2, false, .rw, 1023⟩,
  ⟨0x2A00, 1, 0x02, 0x02, 4, false, .rw, 0x10000⟩,
  ⟨0x2A00, 1, 0x03, 0x03, 1, false, .rw, 8⟩,
  ⟨0x2A00, 1, 0x04, 0x04, 1, false, .rw, 8⟩,
  ⟨0x2A00, 1, 0x05, 0x05, 2, false, .rw, 64⟩,
  ⟨0x2A00, 1, 0x06, 0x06, 1, false, .wo, 0⟩,
  ⟨0x2A00, 1, 0x07, 0x08, 8, false, .ro, 0⟩,
  ⟨0x2A10, 1, 0x00, 0x00, 1, false, .const, 1⟩,
  ⟨0x2A10, 1, 0x01, 0x01, 4, false, .ro, 1⟩,
  ⟨0x2B00, 1, 0x00, 0x00, 1, false, .const, 4⟩,
  ⟨0x2B00, 1, 0x01, 0x01, 2, false, .rw, 32767⟩,
  ⟨0x2B00, 1, 0x02, 0x03, 8, false, .ro, 0⟩,
  ⟨0x2B00, 1, 0x04, 0x04, 1, false, .wo, 0⟩,
  ⟨0x2C01, 1, 0x00, 0x00, 1, false, .const, 10⟩,
  ⟨0x2C01, 1, 0x01, 0x0A, 8, false, .ro, 0⟩,
  ⟨0x2C02, 1, 0x00, 0x00, 1, false, .const, 1⟩,
  ⟨0x2C02, 1, 0x01, 0x01, 1, false, .wo, 0⟩,
  ⟨0x2C03, 1, 0x00, 0x00, 1, false, .const, 2⟩,
  ⟨0x2C03, 1, 0x01, 0x01, 1, false, .rw, 24⟩,
  ⟨0x2C03, 1, 0x02, 0x02, 2, false, .rw, 511⟩,
  ⟨0x2C10, 1, 0x00, 0x00, 1, false, .const, 4⟩,
  ⟨0x2C10, 1, 0x01, 0x01, 1, false, .rw, 1⟩,
  ⟨0x2C10, 1, 0x02, 0x02, 8, false, .rw, 1⟩,
  ⟨0x2C10, 1, 0x03, 0x03, 8, false, .ro, 0⟩,
  ⟨0x2C10, 1, 0x04, 0x04, 2, false, .rw, 63⟩,
  ⟨0x2C20, 1, 0x00, 0x00, 1, false, .const, 12⟩,
  ⟨0x2C20, 1, 0x01, 0x0C, 8, false, .ro, 0⟩,
  ⟨0x2C21, 1, 0x00, 0x00, 1, false, .const, 1⟩,
  ⟨0x2C21, 1, 0x01, 0x01, 2, false, .rw, 511⟩]

/-- Rows of the object tables, part 9. -/
def objRows9 : List ObjRow := [
  ⟨0x2C22, 1, 0x00, 0x00, 1, false, .const, 3⟩,
  ⟨0x2C22, 1, 0x01, 0x01, 1, false, .const, 31⟩,
  ⟨0x2C22, 1, 0x02, 0x02, 1, false, .const, 15⟩,
  ⟨0x2C22, 1, 0x03, 0x03, 1, false, .const, 7⟩,
  ⟨0x2C30, 1, 0x00, 0x00, 1, false, .const, 3⟩,
  ⟨0x2C30, 1, 0x01, 0x01, 2, false, .rw, 63⟩,
  ⟨0x2C30, 1, 0x02, 0x02, 8, false, .ro, 0⟩,
  ⟨0x2C30, 1, 0x03, 0x03, 1, false, .ro, 0⟩,
  ⟨0x2D00, 1, 0x00, 0x00, 1, false, .const, 11⟩,
  ⟨0x2D00, 1, 0x01, 0x01, 2, false, .rw, 8000⟩,
  ⟨0x2D00, 1, 0x02, 0x02, 1, false, .rw, 0⟩,
  ⟨0x2D00, 1, 0x03, 0x03, 4, false, .rw, 2000⟩,
  ⟨0x2D00, 1, 0x04, 0x04, 2, false, .rw, 64⟩,
  ⟨0x2D00, 1, 0x05, 0x05, 2, false, .rw, 8191⟩,
  ⟨0x2D00, 1, 0x06, 0x06, 1, false, .rw, 0⟩,
  ⟨0x2D00, 1, 0x07, 0x08, 1, false, .wo, 0⟩,
  ⟨0x2D00, 1, 0x09, 0x0A, 8, false, .ro, 0⟩,
  ⟨0x2D00, 1, 0x0B, 0x0B, 2, false, .ro, 0⟩,
  ⟨0x2D10, 1, 0x00, 0x00, 1, false, .const, 1⟩,
  ⟨0x2D10, 1, 0x01, 0x01, 0, false, .ro, 0⟩,
  ⟨0x2E00, 1, 0x00, 0x00, 1, false, .const, 4⟩,
  ⟨0x2E00, 1, 0x01, 0x01, 4, false, .rw, 0x3ffff⟩,
  ⟨0x2E00, 1, 0x02, 0x02, 1, false, .wo, 0⟩,
  ⟨0x2E00, 1, 0x03, 0x04, 8, false, .ro, 0⟩,
  ⟨0x2E10, 1, 0x00, 0x00, 1, false, .const, 10⟩,
  ⟨0x2E10, 1, 0x01, 0x02, 1, false, .rw, 0⟩,
  ⟨0x2E10, 1, 0x03, 0x03, 4, false, .rw, 100⟩,
  ⟨0x2E10, 1, 0x04, 0x05, 8, false, .rw, 0⟩,
  ⟨0x2E10, 1, 0x06, 0x07, 2, false, .ro, 0⟩,
  ⟨0x2E10, 1, 0x08, 0x09, 8, false, .ro, 0⟩]

/-- Rows of the object tables, part 10. -/
def objRows10 : List ObjRow := [
  ⟨0x2E10, 1, 0x0A, 0x0A, 2, false, .rw, 65534⟩,
  ⟨0x2E20, 16, 0x00, 0x00, 1, false, .const, 10⟩,
  ⟨0x2E20, 16, 0x01, 0x01, 1, false, .ro, 0⟩,
  ⟨0x2E20, 16, 0x02, 0x02, 1, false, .rw, 1⟩,
  ⟨0x2E20, 16, 0x03, 0x03, 8, false, .const, 0⟩,
  ⟨0x2E20, 16, 0x04, 0x04, 4, false, .rw, 0⟩,
  ⟨0x2E20, 16, 0x05, 0x05, 0, false, .rw, 0⟩,
  ⟨0x2E20, 16, 0x06, 0x0A, 8, false, .ro, 0⟩,
  ⟨0x2E30, 1, 0x00, 0x00, 1, false, .const, 4⟩,
  ⟨0x2E30, 1, 0x01, 0x01, 1, false, .rw, 127⟩,
  ⟨0x2E30, 1, 0x02, 0x03, 1, false, .ro, 0⟩,
  ⟨0x2E30, 1, 0x04, 0x04, 4, false, .ro, 0⟩,
  ⟨0x2E31, 1, 0x00, 0x00, 1, false, .const, 3⟩,
  ⟨0x2E31, 1, 0x01, 0x01, 2, false, .rw, 8190⟩,
  ⟨0x2E31, 1, 0x02, 0x02, 2, false, .rw, 10⟩,
  ⟨0x2E31, 1, 0x03, 0x03, 4, false, .ro, 0⟩,
  ⟨0x2E40, 1, 0x00, 0x00, 1, false, .const, 8⟩,
  ⟨0x2E40, 1, 0x01, 0x01, 8, false, .ro, 0⟩,
  ⟨0x2E40, 1, 0x02, 0x03, 1, false, .rw, 0⟩,
  ⟨0x2E40, 1, 0x04, 0x04, 1, false, .ro, 0⟩,
  ⟨0x2E40, 1, 0x05, 0x05, 8, true, .ro, 0⟩,
  ⟨0x2E40, 1, 0x06, 0x06, 4, false, .rw, 0xf4240⟩,
  ⟨0x2E40, 1, 0x07, 0x07, 1, false, .rw, 0⟩,
  ⟨0x2E40, 1, 0x08, 0x08, 4, false, .const, 0⟩,
  ⟨0x2F00, 1, 0x00, 0x00, 1, false, .const, 5⟩,
  ⟨0x2F00, 1, 0x01, 0x01, 0, false, .ro, 0⟩,
  ⟨0x2F00, 1, 0x02, 0x02, 4, false, .ro, 0⟩,
  ⟨0x2F00, 1, 0x03, 0x03, 8, false, .ro, 0⟩,
  ⟨0x2F00, 1, 0x04, 0x04, 4, false, .rw, 0⟩,
  ⟨0x2F00, 1, 0x05, 0x05, 2, false, .rw, 4095⟩]

/-- Rows of the object tables, part 11. -/
def objRows11 : List ObjRow := [
  ⟨0x2F10, 1, 0x00, 0x00, 1, false, .const, 6⟩,
  ⟨0x2F10, 1, 0x01, 0x02, 1, false, .wo, 0⟩,
  ⟨0x2F10, 1, 0x03, 0x03, 2, false, .wo, 0⟩,
  ⟨0x2F10, 1, 0x04, 0x05, 1, false, .ro, 0⟩,
  ⟨0x2F10, 1, 0x06, 0x06, 4, false, .ro, 0⟩,
  ⟨0x2F20, 1, 0x00, 0x00, 1, false, .const, 7⟩,
  ⟨0x2F20, 1, 0x01, 0x01, 1, false, .rw, 0⟩,
  ⟨0x2F20, 1, 0x02, 0x02, 0, false, .ro, 0⟩,
  ⟨0x2F20, 1, 0x03, 0x03, 2, false, .ro, 0⟩,
  ⟨0x2F20, 1, 0x04, 0x04, 1, false, .rw, 0⟩,
  ⟨0x2F20, 1, 0x05, 0x06, 1, false, .wo, 0⟩,
  ⟨0x2F20, 1, 0x07, 0x07, 0, false, .ro, 0⟩,
  ⟨0x3000, 3264, 0x00, 0x00, 1, false, .const, 196⟩,
  ⟨0x3000, 3264, 0x01, 0x01, 1, false, .const, 0⟩,
  ⟨0x3000, 3264, 0x02, 0x02, 1, false, .ro, 0⟩,
  ⟨0x3000, 3264, 0x03, 0x03, 2, false, .ro, 0⟩,
  ⟨0x3000, 3264, 0x20, 0x24, 4, false, .ro, 0⟩,
  ⟨0x3000, 3264, 0x30, 0x34, 8, false, .ro, 0⟩,
  ⟨0x3000, 3264, 0x35, 0x35, 4, false, .ro, 0⟩,
  ⟨0x3000, 3264, 0x36, 0x36, 8, false, .ro, 0⟩,
  ⟨0x3000, 3264, 0x37, 0x3A, 4, false, .ro, 0⟩,
  ⟨0x3000, 3264, 0x40, 0x43, 8, false, .ro, 0⟩,
  ⟨0x3000, 3264, 0x44, 0x48, 4, false, .ro, 0⟩,
  ⟨0x3000, 3264, 0x50, 0x50, 2, false, .ro, 0⟩,
  ⟨0x3000, 3264, 0x51, 0x53, 8, false, .ro, 0⟩,
  ⟨0x3000, 3264, 0x54, 0x55, 4, false, .ro, 0⟩,
  ⟨0x3000, 3264, 0x56, 0x56, 8, false, .ro, 0⟩,
  ⟨0x3000, 3264, 0x57, 0x57, 4, false, .ro, 0⟩,
  ⟨0x3000, 3264, 0x58, 0x58, 8, false, .ro, 0⟩,
  ⟨0x3000, 3264, 0x59, 0x59, 4, false, .ro, 0⟩]

/-- Rows of the object tables, part 12. -/
def objRows12 : List ObjRow := [
  ⟨0x3000, 3264, 0x60, 0x61, 8, false, .ro, 0⟩,
  ⟨0x3000, 3264, 0x62, 0x64, 4, false, .ro, 0⟩,
  ⟨0x3000, 3264, 0x65, 0x65, 8, false, .ro, 0⟩,
  ⟨0x3000, 3264, 0x70, 0x70, 2, false, .ro, 0⟩,
  ⟨0x3000, 3264, 0x71, 0x71, 1, false, .ro, 255⟩,
  ⟨0x3000, 3264, 0x72, 0x76, 8, false, .ro, 0⟩,
  ⟨0x3000, 3264, 0x77, 0x79, 4, false, .ro, 0⟩,
  ⟨0x3000, 3264, 0x7A, 0x7A, 8, false, .ro, 0⟩,
  ⟨0x3000, 3264, 0x80, 0x82, 8, false, .ro, 0⟩,
  ⟨0x3000, 3264, 0x83, 0x86, 4, false, .ro, 0⟩,
  ⟨0x3000, 3264, 0x87, 0x88, 8, false, .ro, 0⟩,
  ⟨0x3000, 3264, 0x89, 0x89, 4, false, .ro, 0⟩,
  ⟨0x3000, 3264, 0x8A, 0x8A, 1, false, .ro, 0⟩,
  ⟨0x3000, 3264, 0x90, 0x90, 8, false, .ro, 0⟩,
  ⟨0x3000, 3264, 0x91, 0x92, 4, false, .ro, 0⟩,
  ⟨0x3000, 3264, 0x93, 0x93, 8, false, .ro, 0⟩,
  ⟨0x3000, 3264, 0x94, 0x94, 4, false, .ro, 0⟩,
  ⟨0x3000, 3264, 0xA0, 0xA0, 2, false, .ro, 0⟩,
  ⟨0x3000, 3264, 0xA1, 0xA1, 1, false, .ro, 0⟩,
  ⟨0x3000, 3264, 0xA2, 0xA2, 1, false, .ro, 127⟩,
  ⟨0x3000, 3264, 0xB0, 0xB3, 2, false, .ro, 0⟩,
  ⟨0x3000, 3264, 0xB4, 0xB5, 1, false, .ro, 0⟩,
  ⟨0x3000, 3264, 0xC0, 0xC0, 1, false, .ro, 255⟩,
  ⟨0x3000, 3264, 0xC1, 0xC1, 8, false, .ro, 0⟩,
  ⟨0x3000, 3264, 0xC2, 0xC3, 4, false, .ro, 0⟩,
  ⟨0x3000, 3264, 0xC4, 0xC4, 1, false, .ro, 0⟩,
  ⟨0x4000, 24, 0x00, 0x00, 1, false, .const, 16⟩,
  ⟨0x4000, 24, 0x01, 0x01, 1, false, .ro, 0⟩,
  ⟨0x4000, 24, 0x02, 0x02, 1, false, .wo, 0⟩,
  ⟨0x4000, 24, 0x03, 0x03, 2, false, .ro, 0⟩]

/-- Rows of the object tables, part 13. -/
def objRows13 : List ObjRow := [
  ⟨0x4000, 24, 0x04, 0x04, 1, false, .ro, 0⟩,
  ⟨0x4000, 24, 0x05, 0x05, 2, false, .ro, 65535⟩,
  ⟨0x4000, 24, 0x06, 0x06, 8, false, .ro, 0⟩,
  ⟨0x4000, 24, 0x07, 0x07, 2, false, .ro, 65535⟩,
  ⟨0x4000, 24, 0x08, 0x09, 2, false, .ro, 0⟩,
  ⟨0x4000, 24, 0x0A, 0x0A, 2, true, .ro, 0⟩,
  ⟨0x4000, 24, 0x0B, 0x0B, 8, false, .ro, 0⟩,
  ⟨0x4000, 24, 0x0C, 0x0C, 2, false, .ro, 0⟩,
  ⟨0x4000, 24, 0x0D, 0x0D, 2, true, .ro, 0⟩,
  ⟨0x4000, 24, 0x0E, 0x0E, 1, false, .ro, 0⟩,
  ⟨0x4000, 24, 0x0F, 0x0F, 4, false, .ro, 0⟩,
  ⟨0x4000, 24, 0x10, 0x10, 8, false, .ro, 0⟩,
  ⟨0x4080, 12, 0x00, 0x00, 1, false, .const, 34⟩,
  ⟨0x4080, 12, 0x20, 0x21, 1, false, .ro, 0⟩,
  ⟨0x4080, 12, 0x22, 0x22, 4, false, .ro, 0⟩,
  ⟨0x4100, 32, 0x00, 0x00, 1, false, .const, 11⟩,
  ⟨0x4100, 32, 0x01, 0x01, 1, false, .ro, 0⟩,
  ⟨0x4100, 32, 0x02, 0x02, 2, false, .ro, 0⟩,
  ⟨0x4100, 32, 0x03, 0x03, 1, false, .ro, 0⟩,
  ⟨0x4100, 32, 0x04, 0x04, 2, true, .ro, 0⟩,
  ⟨0x4100, 32, 0x05, 0x05, 8, false, .ro, 0⟩,
  ⟨0x4100, 32, 0x06, 0x07, 4, false, .ro, 0⟩,
  ⟨0x4100, 32, 0x08, 0x09, 2, false, .ro, 0⟩,
  ⟨0x4100, 32, 0x0A, 0x0A, 8, false, .ro, 0⟩,
  ⟨0x4100, 32, 0x0B, 0x0B, 1, false, .ro, 0⟩,
  ⟨0x4200, 4, 0x00, 0x00, 1, false, .const, 8⟩,
  ⟨0x4200, 4, 0x01, 0x01, 1, false, .ro, 0⟩,
  ⟨0x4200, 4, 0x02, 0x02, 4, false, .ro, 0⟩,
  ⟨0x4200, 4, 0x03, 0x03, 8, false, .ro, 0⟩,
  ⟨0x4200, 4, 0x04, 0x04, 4, false, .ro, 0⟩]

/-- Rows of the object tables, part 14. -/
def objRows14 : List ObjRow := [
  ⟨0x4200, 4, 0x05, 0x05, 2, false, .rw, 0⟩,
  ⟨0x4200, 4, 0x06, 0x06, 0, false, .rw, 0⟩,
  ⟨0x4200, 4, 0x07, 0x08, 4, false, .ro, 0⟩]

/-- Every row of the object tables (R474). -/
def objRows : List ObjRow :=
  objRows1 ++ objRows2 ++ objRows3 ++ objRows4 ++ objRows5 ++ objRows6 ++ objRows7 ++ objRows8 ++ objRows9 ++ objRows10 ++ objRows11 ++ objRows12 ++ objRows13 ++ objRows14

/-- The row that covers subindex `sub` of object `idx`; none when it is not implemented (R456). -/
def objRow (idx sub : Nat) : Option ObjRow :=
  objRows.find? fun r => decide (r.idx ≤ idx ∧ idx < r.idx + r.count ∧ r.lo ≤ sub ∧ sub ≤ r.hi)

/-- Object `idx` is implemented with some subindex. -/
def indexExists (idx : Nat) : Bool := objRows.any fun r => decide (r.idx ≤ idx ∧ idx < r.idx + r.count)

/-- The key of object `idx:sub` in the register table. -/
def rk (idx sub : Nat) : Nat := idx * 256 + sub

/-- The scalars whose default is not 0, by key range of one object family: first key, count of objects, last
subindex offset, default. -/
def nonzeroDefaults : List (Nat × Nat × Nat × Nat) := [
  (0x101700, 1, 0, 1000),
  (0x20F001, 1, 0, 1),
  (0x20F005, 1, 0, 0x1ffff),
  (0x210004, 1, 0, 1),
  (0x210007, 1, 0, 1),
  (0x220001, 1, 0, 12500),
  (0x220005, 1, 0, 65535),
  (0x220007, 1, 0, 65535),
  (0x220009, 1, 0, 8191),
  (0x221001, 1, 0, 1),
  (0x221002, 1, 0, 1200),
  (0x221003, 1, 0, 2000),
  (0x221007, 1, 0, 2),
  (0x222001, 1, 0, 40),
  (0x222002, 1, 0, 85),
  (0x222003, 1, 0, 50),
  (0x223001, 1, 0, 750),
  (0x223002, 1, 0, 700),
  (0x223003, 1, 0, 650),
  (0x230001, 1, 0, 100),
  (0x230003, 1, 0, 255),
  (0x232003, 1, 0, 16),
  (0x232004, 1, 0, 8),
  (0x240001, 1, 0, 2047),
  (0x241019, 8, 0, 384),
  (0x24101B, 8, 0, 1),
  (0x250003, 1, 0, 4),
  (0x250004, 1, 0, 30),
  (0x250009, 1, 0, 65535),
  (0x251004, 1, 0, 2),
  (0x252001, 1, 0, 1),
  (0x252003, 1, 0, 3),
  (0x253001, 1, 0, 600),
  (0x253002, 1, 0, 10),
  (0x253003, 1, 0, 1000),
  (0x253007, 1, 0, 720),
  (0x260001, 1, 0, 1),
  (0x260004, 1, 0, 2047),
  (0x263002, 1, 0, 0x5f5541),
  (0x263003, 1, 0, 10),
  (0x263004, 1, 0, 50),
  (0x263005, 1, 0, 127),
  (0x263008, 1, 0, 60),
  (0x270005, 64, 0, 4),
  (0x270031, 64, 1, 255),
  (0x270035, 64, 0, 0x77359400),
  (0x270037, 64, 0, 65535),
  (0x27003A, 64, 0, 65535),
  (0x27003B, 64, 0, 255),
  (0x280001, 1, 0, 20000),
  (0x280002, 1, 0, 1),
  (0x280003, 1, 0, 0x1ffff),
  (0x281004, 1, 0, 65535),
  (0x29E001, 1, 0, 4096),
  (0x29E002, 1, 0, 16),
  (0x29E003, 1, 0, 255),
  (0x2A0001, 1, 0, 1023),
  (0x2A0002, 1, 0, 0x10000),
  (0x2A0003, 1, 0, 8),
  (0x2A0004, 1, 0, 8),
  (0x2A0005, 1, 0, 64),
  (0x2A1001, 1, 0, 1),
  (0x2B0001, 1, 0, 32767),
  (0x2C0301, 1, 0, 24),
  (0x2C0302, 1, 0, 511),
  (0x2C1001, 1, 0, 1),
  (0x2C1002, 1, 0, 1),
  (0x2C1004, 1, 0, 63),
  (0x2C2101, 1, 0, 511),
  (0x2C3001, 1, 0, 63),
  (0x2D0001, 1, 0, 8000),
  (0x2D0003, 1, 0, 2000),
  (0x2D0004, 1, 0, 64),
  (0x2D0005, 1, 0, 8191),
  (0x2E0001, 1, 0, 0x3ffff),
  (0x2E1003, 1, 0, 100),
  (0x2E100A, 1, 0, 65534),
  (0x2E2002, 16, 0, 1),
  (0x2E3001, 1, 0, 127),
  (0x2E3101, 1, 0, 8190),
  (0x2E3102, 1, 0, 10),
  (0x2E4006, 1, 0, 0xf4240),
  (0x2F0005, 1, 0, 4095),
  (0x300071, 3264, 0, 255),
  (0x3000A2, 3264, 0, 127),
  (0x3000C0, 3264, 0, 255),
  (0x400005, 24, 0, 65535),
  (0x400007, 24, 0, 65535)]

/-- The default of the scalar with key `k` (R474). (DESIGN CHOICE: notes/assumptions/1.md.) -/
def regDefault (k : Nat) : Nat :=
  match nonzeroDefaults.find? fun r =>
      decide (r.1 ≤ k ∧ (k - r.1) / 256 < r.2.1 ∧ (k - r.1) % 256 ≤ r.2.2.1) with
  | some r => r.2.2.2
  | none => 0

end Sys2Proof.Machine
end

