-- ==== Sys2Proof/Machine/Geometry.lean ====
section
/-! DEFINITION. The grid and its numbers (chapters 00, 01, 02, 09 and 11): where a site, a logical tile, an X-tile and a
device address lie. Nothing here looks at the state. -/

namespace Sys2Proof.Machine

open Sys2Proof

/-- The course of a physical site (Table 00-2). -/
def siteRow (n : Nat) : Nat := n / 68

/-- The physical pier of a site. -/
def sitePier (n : Nat) : Nat := n % 68

/-- The local pier of a site (R34). -/
def sitePierLocal (n : Nat) : Nat := n % 68 % 17

/-- The course of a logical tile. -/
def tileRow (l : Nat) : Nat := l / 64

/-- The logical pier of a logical tile. -/
def tileCol (l : Nat) : Nat := l % 64

/-- The tile type of a course: 0 M, 1 S, 2 F (R31). -/
def rowType (row : Nat) : Nat :=
  if row % 8 = 2 ∨ row % 8 = 6 then 1 else if row % 8 = 5 then 2 else 0

/-- The tile type of a site (R31). -/
def siteType (n : Nat) : Nat := rowType (siteRow n)

/-- The tile type of a logical tile (R31). -/
def tileType (l : Nat) : Nat := rowType (tileRow l)

/-- The region of a site. -/
def siteRegion (n : Nat) : Nat := siteRow n / 24 * 4 + sitePier n / 17

/-- The island of a site. -/
def siteIsland (n : Nat) : Nat := siteRow n / 8 * 4 + sitePier n / 17

/-- The field of a site. -/
def siteField (n : Nat) : Nat := siteRow n / 16 * 4 + sitePier n / 17

/-- The region of a logical tile. -/
def tileRegion (l : Nat) : Nat := tileRow l / 24 * 4 + tileCol l / 16

/-- The region course of a row, 0 to 23. -/
def courseOf (row : Nat) : Nat := row % 24

/-- The phase group of a site in its island (Table 13-2). -/
def siteGroup (n : Nat) : Nat := sitePierLocal n / 3

/-- The region that an island lies in (Table 01-5). -/
def islandRegion (i : Nat) : Nat := i / 4 / 3 * 4 + i % 4

/-- The field that an island lies in (Table 01-5). -/
def islandField (i : Nat) : Nat := i / 4 / 2 * 4 + i % 4

/-- The regions that a field serves (Table 01-5). -/
def fieldRegions (f : Nat) : List Nat :=
  if f < 4 then [f] else if f < 8 then [f % 4, 4 + f % 4] else [4 + f % 4]

/-- The fields that serve a region (Table 01-5). -/
def regionFields (r : Nat) : List Nat := if r < 4 then [r, 4 + r] else [r, 4 + r]

/-- The sites of an island, ascending. -/
def islandSites (i : Nat) : List Nat :=
  (List.range 136).map fun k => (i / 4 * 8 + k / 17) * 68 + i % 4 * 17 + k % 17

/-- The sites of one phase group of an island, ascending (Table 13-2). -/
def groupSites (i g : Nat) : List Nat := (islandSites i).filter fun n => decide (siteGroup n = g)

/-- The edge-adjacent islands of an island in the 6 × 4 layout, ascending (R360). -/
def islandNeighbours (i : Nat) : List Nat :=
  (if 4 ≤ i then [i - 4] else []) ++ (if i % 4 = 0 then [] else [i - 1])
    ++ (if i % 4 = 3 then [] else [i + 1]) ++ (if i < 20 then [i + 4] else [])

/-- The S-tile index of a logical tile in an S course. -/
def sIndex (l : Nat) : Nat := (tileRow l / 8 * 2 + (if tileRow l % 8 = 6 then 1 else 0)) * 64 + tileCol l

/-- The logical tile of an S-tile index. -/
def sTileLogical (n : Nat) : Nat := (n / 64 / 2 * 8 + (if n / 64 % 2 = 1 then 6 else 2)) * 64 + n % 64

/-- The M-tile index of a logical tile in an M course. -/
def mIndex (l : Nat) : Nat :=
  let o := match tileRow l % 8 with
    | 0 => 0 | 1 => 1 | 3 => 2 | 4 => 3 | _ => 4
  (tileRow l / 8 * 5 + o) * 64 + tileCol l

/-- The logical tile of an M-tile index. -/
def mTileLogical (n : Nat) : Nat :=
  let o := match n / 64 % 5 with
    | 0 => 0 | 1 => 1 | 2 => 3 | 3 => 4 | _ => 7
  (n / 64 / 5 * 8 + o) * 64 + n % 64

/-- The `c`-th local pier, counted from 0, whose bit of a fenced mask is clear (R35); none when logical pier `c` is
absent. -/
def nthFree (mask c : Nat) : Option Nat := ((List.range 17).filter fun p => !mask.testBit p)[c]?

/-- How many unfenced local piers lie below local pier `p` (the inverse of R35). -/
def freeBelow (mask p : Nat) : Nat := ((List.range p).filter fun q => !mask.testBit q).length

/-- The state field of a course entry with `k` sites fenced (R42). -/
def courseState (k : Nat) : Nat := if k = 0 then 0 else if k = 1 then 1 else 2

/-- A course entry with fenced mask `mask` (Table 02-3). -/
def courseEntry (mask : Nat) : Nat :=
  let k := popCount 17 mask
  place k 24 + place (courseState k) 22 + mask % 2 ^ 17

/-- A partition mask is a rectangle of the 4 × 2 layout, 1 to 4 across and 1 or 2 down (R51). -/
def isRectangle (mask : Nat) : Bool :=
  let n := mask % 16
  let s := mask / 16 % 16
  let run := fun m => [1, 2, 4, 8, 3, 6, 12, 7, 14, 15].contains m
  decide (mask < 256) && ((run n && s == 0) || (n == 0 && run s) || (n == s && run n))

/-! ## X-tiles (Tables 09-1 and 09-2) -/

/-- The attachment site of an X-tile. -/
def xSite (x : Nat) : Nat :=
  if x < 32 then 17 * (x / 8) + 2 * (x % 8) + 1
  else if x < 64 then (3 * ((x - 32) / 2) + (x - 32) % 2) * 68 + 67
  else if x < 96 then 47 * 68 + 17 * ((95 - x) / 8) + 2 * ((95 - x) % 8) + 1
  else (3 * ((127 - x) / 2) + (127 - x) % 2) * 68

/-- The port of its attachment site that leads to an X-tile: 0 N, 1 E, 2 S, 3 W. -/
def xPort (x : Nat) : Nat := x / 32

/-- The place of an X-tile along its edge, `j` of Table 09-2. -/
def xPlace (x : Nat) : Nat :=
  if x < 32 then x else if x < 64 then x - 32 else if x < 96 then 95 - x else 127 - x

/-- The X-tile at place `j` of an edge. -/
def xAtPlace (edge j : Nat) : Nat :=
  match edge with
  | 0 => j | 1 => 32 + j | 2 => 95 - j | _ => 127 - j

/-- The X-tile that attaches to port `d` of a site, where one does. -/
def xAt (site d : Nat) : Option Nat :=
  (List.range 128).find? fun x => decide (xSite x = site ∧ xPort x = d)

/-- The corner X-tile's attachment site and port. -/
def cornerSite (q : Nat) : Nat := match q with
  | 0 => 0 | 1 => 67 | 2 => 47 * 68 + 67 | _ => 47 * 68
/-- The port of its attachment site that leads to a corner X-tile. -/
def cornerPort (q : Nat) : Nat := if q < 2 then 0 else 2

/-- An endpoint number is one of Table 09-1, multicast apart (R227). -/
def endpointExists (n : Nat) : Bool :=
  decide (n < 3264 ∨ (0xD00 ≤ n ∧ n < 0xD80) ∨ (0xD80 ≤ n ∧ n < 0xD84))

/-- The site whose router an endpoint's route leads to (R227). -/
def endpointSite (n : Nat) : Nat :=
  if n < 3264 then n else if n < 0xD80 then xSite (n - 0xD00) else cornerSite (n - 0xD80)

/-- The port of that site that leads to the endpoint; none when the endpoint is the site itself. -/
def endpointPort (n : Nat) : Option Nat :=
  if n < 3264 then none else if n < 0xD80 then some (xPort (n - 0xD00)) else some (cornerPort (n - 0xD80))

/-! ## Links of the grid -/

/-- The neighbour of a site in a direction: 0 N, 1 E, 2 S, 3 W. -/
def neighbour (n d : Nat) : Option Nat :=
  match d with
  | 0 => if n < 68 then none else some (n - 68)
  | 1 => if n % 68 = 67 then none else some (n + 1)
  | 2 => if 3196 ≤ n then none else some (n + 68)
  | _ => if n % 68 = 0 then none else some (n - 1)

/-- The opposite direction. -/
def opposite (d : Nat) : Nat := (d + 2) % 4

/-- The key of a link direction of a plane of a router, by its endpoint number. -/
def linkKey (plane node d : Nat) : Nat := (plane * 4096 + node) * 4 + d

/-! ## Device addresses (R27, Table 01-7) -/

/-- Where a device address lies. -/
inductive Place where
  | hbm (a : Nat)
  | scratch (tile off : Nat) (aliased : Bool)
  | store (tile off : Nat)
  | pairWindow (pair off : Nat)
  | host (off : Nat)
  | hole
  deriving DecidableEq, Repr

/-- The place of a device address (R27, R148, R149, R328, Table 12-6). -/
def placeOf (a : Nat) : Place :=
  if a < 0x020000000000 then .hbm a
  else if 0x040000000000 ≤ a ∧ a < 0x040180000000 then
    let o := (a - 0x040000000000) % 0x800000
    .scratch ((a - 0x040000000000) / 0x800000) (o % 0x400000) (decide (0x400000 ≤ o))
  else if 0x050000000000 ≤ a ∧ a < 0x050078000000 then
    let o := (a - 0x050000000000) % 0x100000
    if o < 0x80000 then .store ((a - 0x050000000000) / 0x100000) o else .hole
  else if 0x060000000000 ≤ a ∧ a < 0x060001000000 then
    .pairWindow ((a - 0x060000000000) / 0x4000) ((a - 0x060000000000) % 0x4000)
  else if 0x060080000000 ≤ a ∧ a < 0x060100000000 then .host (a - 0x060080000000)
  else .hole

/-- The device address of byte offset `o` of an S-tile's direct window (R148). -/
def scratchAddr (t o : Nat) : Nat := 0x040000000000 + t * 0x800000 + o

/-- The device address of byte offset `o` of an M-tile's operand store. -/
def storeAddr (m o : Nat) : Nat := 0x050000000000 + m * 0x100000 + o

/-- The device address of offset `o` of a queue pair's window (Table 12-6). -/
def pairAddr (n o : Nat) : Nat := 0x060000000000 + n * 0x4000 + o

/-- The first address of the dump area (R292). -/
def dumpBase : Nat := 0x01FFC0000000

/-- The dump area holds an address (R292). -/
def inDumpArea (a : Nat) : Bool := decide (dumpBase ≤ a ∧ a < 0x020000000000)

/-- Stack, channel and channel offset of an HBM address (R291). -/
def interleave (a : Nat) : Nat × Nat × Nat :=
  if a < 0x01F800000000 then
    (a / 2 ^ 13 % 32, a / 2 ^ 8 % 32, a / 2 ^ 18 * 256 + a % 256)
  else
    let t := a - 0x01F800000000
    (t / 2 ^ 30, t / 2 ^ 8 % 32, 0x7E000000 + t / 2 ^ 13 % 2 ^ 17 * 256 + t % 256)

/-- The HBM address of a stack, a channel and a channel offset (R291, the other way). -/
def deinterleave (st ch off : Nat) : Nat :=
  if off < 0x7E000000 then off / 256 * 2 ^ 18 + st * 2 ^ 13 + ch * 2 ^ 8 + off % 256
  else
    let o := off - 0x7E000000
    0x01F800000000 + st * 2 ^ 30 + o / 256 * 2 ^ 13 + ch * 2 ^ 8 + o % 256

/-- The home X-tile of an HBM address (R290). -/
def homeX (a : Nat) : Nat := (interleave a).1 * 4 + (interleave a).2.1 / 8

/-- The logical neighbour of a logical tile: 0 N, 1 E, 2 S, 3 W. (DEDUCED: notes/assumptions/15.md.) -/
def logicalNeighbour (l d : Nat) : Option Nat :=
  match d with
  | 0 => if l < 64 then none else some (l - 64)
  | 1 => if l % 64 = 63 then none else some (l + 1)
  | 2 => if 3008 ≤ l then none else some (l + 64)
  | _ => if l % 64 = 0 then none else some (l - 1)

end Sys2Proof.Machine
end

