-- ==== Sys2Proof/Machine/Ops.lean ====
section
/-! DEFINITION. Everything a command can do to the state, once. `Eff` is the closed list of primitive effects, one or
two per field of State, none on the queue; `Prog` is a command's program over them; the operations below are the
shared ones of every family: tables, memory, registers and counters. -/

namespace Sys2Proof.Machine

open Sys2Proof

/-! ## Tables -/

/-- The entry of key `k` of a table whose default is `d`. -/
def Tab.get {α : Type} (d : α) (t : Tab α) (k : Nat) : α :=
  match t with
  | [] => d
  | (k', v) :: t => if k' = k then v else Tab.get d t k

/-- A table with the entry of key `k` replaced by `v`, in canonical form. -/
def Tab.set {α : Type} [DecidableEq α] (d : α) (t : Tab α) (k : Nat) (v : α) : Tab α :=
  match t with
  | [] => if v = d then [] else [(k, v)]
  | (k', v') :: t =>
    if k < k' then (if v = d then (k', v') :: t else (k, v) :: (k', v') :: t)
    else if k = k' then (if v = d then t else (k, v) :: t)
    else (k', v') :: Tab.set d t k v

/-- A table with every key in `[lo, hi)` back at its default. -/
def Tab.drop {α : Type} (t : Tab α) (lo hi : Nat) : Tab α := t.filter fun e => decide (e.1 < lo ∨ hi ≤ e.1)

/-- A table with every key in `[lo, hi)` at `v`. -/
def Tab.fill {α : Type} [DecidableEq α] (d : α) (t : Tab α) (lo hi : Nat) (v : α) : Tab α :=
  t.filter (fun e => decide (e.1 < lo)) ++
    ((if v = d then [] else (List.range (hi - lo)).map fun k => (lo + k, v)) ++ t.filter fun e => decide (lo ≤ e.1 ∧ hi ≤ e.1))

/-- The canonical form of a table: keys strictly rising, no entry at its default. -/
abbrev Tab.Canon {α : Type} (d : Nat → α) (t : Tab α) : Prop :=
  t.Pairwise (fun a b => a.1 < b.1) ∧ ∀ e ∈ t, e.2 ≠ d e.1

/-! ## Memory -/

/-- What a byte of memory that nothing has written reads as (R147, R308; DESIGN CHOICE, notes/assumptions/3.md). -/
def emptyByte : Byte := 0

/-- The byte at a device address. -/
def readByte (m : List Host.Cell) (a : Nat) : Byte := Tab.get emptyByte m a

/-- Memory with one byte replaced, in canonical form. -/
def writeByte (m : List Host.Cell) (a : Nat) (b : Byte) : List Host.Cell := Tab.set emptyByte m a b

/-- The canonical form of memory: addresses strictly rising, no entry that equals what an unlisted address reads as. -/
abbrev Memory.wf (m : List Host.Cell) : Prop :=
  m.Pairwise (fun a b => a.1 < b.1) ∧ ∀ e ∈ m, e.2 ≠ emptyByte

/-! ## Effects -/

/-- The primitive effects of a command on the state, none on the queue. For a table `f`, `f k v` replaces one entry and
`dropF lo hi` returns a range of keys to the default. -/
inductive Eff where
  | regs (k : Nat) (v : Nat)
  | dropRegs (lo hi : Nat)
  | selectors (k : Nat) (v : Nat)
  | dropSelectors (lo hi : Nat)
  | tags (k : Nat) (v : Nat)
  | dropTags (lo hi : Nat)
  | poisonLines (k : Nat) (v : Bool)
  | dropPoisonLines (lo hi : Nat)
  | poisonWords (k : Nat) (v : Bool)
  | dropPoisonWords (lo hi : Nat)
  | acc (k : Nat) (v : FWord)
  | dropAcc (lo hi : Nat)
  | vreg (k : Nat) (v : FWord)
  | dropVreg (lo hi : Nat)
  | dieModules (k : Nat) (v : Nat)
  | dropDieModules (lo hi : Nat)
  | microcode (k : Nat) (v : Microcode)
  | dropMicrocode (lo hi : Nat)
  | arbs (k : Nat) (v : Nat)
  | dropArbs (lo hi : Nat)
  | slotFixes (k : Nat) (v : Nat)
  | dropSlotFixes (lo hi : Nat)
  | maskDrops (k : Nat) (v : Nat)
  | dropMaskDrops (lo hi : Nat)
  | mtiles (k : Nat) (v : MTile)
  | dropMtiles (lo hi : Nat)
  | stiles (k : Nat) (v : SCore)
  | dropStiles (lo hi : Nat)
  | ftiles (k : Nat) (v : FCore)
  | dropFtiles (lo hi : Nat)
  | bond (k : Nat) (v : BondTile)
  | dropBond (lo hi : Nat)
  | running (k : Nat) (v : (Option RunTile))
  | dropRunning (lo hi : Nat)
  | plans (k : Nat) (v : (Option SlotPlan))
  | dropPlans (lo hi : Nat)
  | ctxs (k : Nat) (v : CtxCore)
  | dropCtxs (lo hi : Nat)
  | snaps (k : Nat) (v : (Option Snapshot))
  | dropSnaps (lo hi : Nat)
  | cells (k : Nat) (v : Cell)
  | dropCells (lo hi : Nat)
  | waiters (k : Nat) (v : (List Waiter))
  | dropWaiters (lo hi : Nat)
  | fmap (k : Nat) (v : Nat)
  | dropFmap (lo hi : Nat)
  | rings (k : Nat) (v : Ring)
  | dropRings (lo hi : Nat)
  | idle (k : Nat) (v : Nat)
  | dropIdle (lo hi : Nat)
  | offerHold (k : Nat) (v : Bool)
  | dropOfferHold (lo hi : Nat)
  | net (k : Nat) (v : (List Packet))
  | dropNet (lo hi : Nat)
  | claims (k : Nat) (v : Nat)
  | dropClaims (lo hi : Nat)
  | links (k : Nat) (v : LinkState)
  | dropLinks (lo hi : Nat)
  | routeState (k : Nat) (v : Nat)
  | dropRouteState (lo hi : Nat)
  | fencedAs (k : Nat) (v : Nat)
  | dropFencedAs (lo hi : Nat)
  | hbm (k : Nat) (v : StackCore)
  | dropHbm (lo hi : Nat)
  | xtiles (k : Nat) (v : XCore)
  | dropXtiles (lo hi : Nat)
  | pairs (k : Nat) (v : Pair)
  | dropPairs (lo hi : Nat)
  | lintels (k : Nat) (v : LintelCore)
  | dropLintels (lo hi : Nat)
  | islands (k : Nat) (v : IslandCore)
  | dropIslands (lo hi : Nat)
  | limits (k : Nat) (v : Nat)
  | dropLimits (lo hi : Nat)
  | candidates (k : Nat) (v : Bool)
  | dropCandidates (lo hi : Nat)
  | sliceTimes (k : Nat) (v : Nat)
  | dropSliceTimes (lo hi : Nat)
  | marigold (k : Nat) (v : (Option MariRun))
  | dropMarigold (lo hi : Nat)
  | can (k : Nat) (v : CanCore)
  | dropCan (lo hi : Nat)
  | windows (k : Nat) (v : Window)
  | dropWindows (lo hi : Nat)
  | dictSnaps (k : Nat) (v : (Option DictSnap))
  | dropDictSnaps (lo hi : Nat)
  | store (a : Nat) (b : Byte)
  | dropMem (lo hi : Nat)
  | issue (v : List Request)
  | delivered (v : List Packet)
  | injectStop (v : Nat)
  | retired (v : List (Nat × Nat))
  | memTest (v : Option Nat)
  | rdmaIn (v : List (Nat × Nat × RoceOp))
  | hostWindow (v : List HostAccess)
  | hostData (v : List HostData)
  | nextHostId (v : Nat)
  | loans (v : List Loan)
  | onceUsed (v : List (Nat × Nat × Nat))
  | fences (v : List FenceReq)
  | heldFences (v : List FenceReq)
  | fence (v : Option FenceRun)
  | releases (v : List Nat)
  | policyTimes (v : List Nat)
  | restartTimes (v : List (Nat × Nat))
  | evidence (v : List Nat)
  | votesWaiting (v : List Nat)
  | votes (v : List Vote)
  | controllerDown (v : Bool)
  | heldEvents (v : List Event)
  | replanning (v : Bool)
  | due (v : List DueSlice)
  | slices (v : List RunSlice)
  | heldResults (v : List HeldResult)
  | input (v : InputCore)
  | fillTags (lo hi v : Nat)
  | fillPoisonWords (lo hi : Nat)
  | cal (v : CalSet)
  | calNext (v : Option CalSet)
  | selfCal (v : Bool)
  | licence (v : List Byte)
  | firmware (v : List Firmware)
  | auxOk (v : Bool)
  | mainOn (v : Bool)
  | hresetLow (v : Bool)
  | booted (v : Bool)
  | recovery (v : Bool)
  | reset_ (v : Option ResetRun)
  | resetWaiting (v : Option ResetRun)
  | partResets (v : List Nat)
  | restoreDefaults (v : Bool)
  | dumps (v : List DumpSlot)
  | dumpFlash (v : List Byte)
  | dumpCopying (v : Option (List Byte))
  | raised (v : List Event)
  | logSeq (v : Nat)
  | emcyBusy (v : Bool)
  | emcyResetOwed (v : Bool)
  | nmt (v : Nmt)
  | nodeId (v : Nat)
  | entryWaits (v : List (Path × Nat × Nat × Nat))
  | ir (v : JtagIr)
  | dr (v : Nat)
  | boundary (v : Nat)
  | msixWaiting (v : List Nat)
  /-- keeps at most 256 entries -/
  | findings (v : List Finding)
  /-- keeps at most 256 entries -/
  | health (v : List HealthEntry)
  /-- keeps at most 1024 entries -/
  | resultLog (v : List (List Nat))
  /-- keeps at most 65536 entries -/
  | log (v : List LogEntry)
  /-- keeps at most 16 entries -/
  | errorHistory (v : List Nat)
  | slew (v : Int)
  | oscillator (v : Nat)
  | ppsNext (v : Nat)
  | heldPolicies (v : List (Nat × Nat))
  | fieldsOff (v : Nat)
  | phyStale (v : Nat)
  | retiredDrops (v : Nat)
  | unpersisted (v : List HealthEntry)
  | emit (o : Output)
  | draw
  deriving DecidableEq, Repr

/-- What an effect does to the state. -/
def Eff.apply (e : Eff) (s : State) : State :=
  match e with
  | .regs k v => { s with regs := Tab.set (regDefault k) s.regs k v }
  | .dropRegs lo hi => { s with regs := Tab.drop s.regs lo hi }
  | .selectors k v => { s with selectors := Tab.set 0 s.selectors k v }
  | .dropSelectors lo hi => { s with selectors := Tab.drop s.selectors lo hi }
  | .tags k v => { s with tags := Tab.set 0 s.tags k v }
  | .dropTags lo hi => { s with tags := Tab.drop s.tags lo hi }
  | .poisonLines k v => { s with poisonLines := Tab.set false s.poisonLines k v }
  | .dropPoisonLines lo hi => { s with poisonLines := Tab.drop s.poisonLines lo hi }
  | .poisonWords k v => { s with poisonWords := Tab.set false s.poisonWords k v }
  | .dropPoisonWords lo hi => { s with poisonWords := Tab.drop s.poisonWords lo hi }
  | .acc k v => { s with acc := Tab.set {} s.acc k v }
  | .dropAcc lo hi => { s with acc := Tab.drop s.acc lo hi }
  | .vreg k v => { s with vreg := Tab.set {} s.vreg k v }
  | .dropVreg lo hi => { s with vreg := Tab.drop s.vreg lo hi }
  | .dieModules k v => { s with dieModules := Tab.set 0 s.dieModules k v }
  | .dropDieModules lo hi => { s with dieModules := Tab.drop s.dieModules lo hi }
  | .microcode k v => { s with microcode := Tab.set {} s.microcode k v }
  | .dropMicrocode lo hi => { s with microcode := Tab.drop s.microcode lo hi }
  | .arbs k v => { s with arbs := Tab.set 0 s.arbs k v }
  | .dropArbs lo hi => { s with arbs := Tab.drop s.arbs lo hi }
  | .slotFixes k v => { s with slotFixes := Tab.set 0 s.slotFixes k v }
  | .dropSlotFixes lo hi => { s with slotFixes := Tab.drop s.slotFixes lo hi }
  | .maskDrops k v => { s with maskDrops := Tab.set 0 s.maskDrops k v }
  | .dropMaskDrops lo hi => { s with maskDrops := Tab.drop s.maskDrops lo hi }
  | .mtiles k v => { s with mtiles := Tab.set {} s.mtiles k v }
  | .dropMtiles lo hi => { s with mtiles := Tab.drop s.mtiles lo hi }
  | .stiles k v => { s with stiles := Tab.set {} s.stiles k v }
  | .dropStiles lo hi => { s with stiles := Tab.drop s.stiles lo hi }
  | .ftiles k v => { s with ftiles := Tab.set {} s.ftiles k v }
  | .dropFtiles lo hi => { s with ftiles := Tab.drop s.ftiles lo hi }
  | .bond k v => { s with bond := Tab.set {} s.bond k v }
  | .dropBond lo hi => { s with bond := Tab.drop s.bond lo hi }
  | .running k v => { s with running := Tab.set none s.running k v }
  | .dropRunning lo hi => { s with running := Tab.drop s.running lo hi }
  | .plans k v => { s with plans := Tab.set none s.plans k v }
  | .dropPlans lo hi => { s with plans := Tab.drop s.plans lo hi }
  | .ctxs k v => { s with ctxs := Tab.set {} s.ctxs k v }
  | .dropCtxs lo hi => { s with ctxs := Tab.drop s.ctxs lo hi }
  | .snaps k v => { s with snaps := Tab.set none s.snaps k v }
  | .dropSnaps lo hi => { s with snaps := Tab.drop s.snaps lo hi }
  | .cells k v => { s with cells := Tab.set {} s.cells k v }
  | .dropCells lo hi => { s with cells := Tab.drop s.cells lo hi }
  | .waiters k v => { s with waiters := Tab.set [] s.waiters k v }
  | .dropWaiters lo hi => { s with waiters := Tab.drop s.waiters lo hi }
  | .fmap k v => { s with fmap := Tab.set 0 s.fmap k v }
  | .dropFmap lo hi => { s with fmap := Tab.drop s.fmap lo hi }
  | .rings k v => { s with rings := Tab.set {} s.rings k v }
  | .dropRings lo hi => { s with rings := Tab.drop s.rings lo hi }
  | .idle k v => { s with idle := Tab.set 0 s.idle k v }
  | .dropIdle lo hi => { s with idle := Tab.drop s.idle lo hi }
  | .offerHold k v => { s with offerHold := Tab.set false s.offerHold k v }
  | .dropOfferHold lo hi => { s with offerHold := Tab.drop s.offerHold lo hi }
  | .net k v => { s with net := Tab.set [] s.net k v }
  | .dropNet lo hi => { s with net := Tab.drop s.net lo hi }
  | .claims k v => { s with claims := Tab.set 0 s.claims k v }
  | .dropClaims lo hi => { s with claims := Tab.drop s.claims lo hi }
  | .links k v => { s with links := Tab.set {} s.links k v }
  | .dropLinks lo hi => { s with links := Tab.drop s.links lo hi }
  | .routeState k v => { s with routeState := Tab.set 0 s.routeState k v }
  | .dropRouteState lo hi => { s with routeState := Tab.drop s.routeState lo hi }
  | .fencedAs k v => { s with fencedAs := Tab.set 0 s.fencedAs k v }
  | .dropFencedAs lo hi => { s with fencedAs := Tab.drop s.fencedAs lo hi }
  | .hbm k v => { s with hbm := Tab.set {} s.hbm k v }
  | .dropHbm lo hi => { s with hbm := Tab.drop s.hbm lo hi }
  | .xtiles k v => { s with xtiles := Tab.set {} s.xtiles k v }
  | .dropXtiles lo hi => { s with xtiles := Tab.drop s.xtiles lo hi }
  | .pairs k v => { s with pairs := Tab.set {} s.pairs k v }
  | .dropPairs lo hi => { s with pairs := Tab.drop s.pairs lo hi }
  | .lintels k v => { s with lintels := Tab.set {} s.lintels k v }
  | .dropLintels lo hi => { s with lintels := Tab.drop s.lintels lo hi }
  | .islands k v => { s with islands := Tab.set {} s.islands k v }
  | .dropIslands lo hi => { s with islands := Tab.drop s.islands lo hi }
  | .limits k v => { s with limits := Tab.set 0 s.limits k v }
  | .dropLimits lo hi => { s with limits := Tab.drop s.limits lo hi }
  | .candidates k v => { s with candidates := Tab.set false s.candidates k v }
  | .dropCandidates lo hi => { s with candidates := Tab.drop s.candidates lo hi }
  | .sliceTimes k v => { s with sliceTimes := Tab.set 0 s.sliceTimes k v }
  | .dropSliceTimes lo hi => { s with sliceTimes := Tab.drop s.sliceTimes lo hi }
  | .marigold k v => { s with marigold := Tab.set none s.marigold k v }
  | .dropMarigold lo hi => { s with marigold := Tab.drop s.marigold lo hi }
  | .can k v => { s with can := Tab.set {} s.can k v }
  | .dropCan lo hi => { s with can := Tab.drop s.can lo hi }
  | .windows k v => { s with windows := Tab.set {} s.windows k v }
  | .dropWindows lo hi => { s with windows := Tab.drop s.windows lo hi }
  | .dictSnaps k v => { s with dictSnaps := Tab.set none s.dictSnaps k v }
  | .dropDictSnaps lo hi => { s with dictSnaps := Tab.drop s.dictSnaps lo hi }
  | .store a b => { s with mem := writeByte s.mem a b }
  | .dropMem lo hi => { s with mem := Tab.drop s.mem lo hi }
  | .issue v => { s with issue := v }
  | .delivered v => { s with delivered := v }
  | .injectStop v => { s with injectStop := v }
  | .retired v => { s with retired := v }
  | .memTest v => { s with memTest := v }
  | .rdmaIn v => { s with rdmaIn := v }
  | .hostWindow v => { s with hostWindow := v }
  | .hostData v => { s with hostData := v }
  | .nextHostId v => { s with nextHostId := v }
  | .loans v => { s with loans := v }
  | .onceUsed v => { s with onceUsed := v }
  | .fences v => { s with fences := v }
  | .heldFences v => { s with heldFences := v }
  | .fence v => { s with fence := v }
  | .releases v => { s with releases := v }
  | .policyTimes v => { s with policyTimes := v }
  | .restartTimes v => { s with restartTimes := v }
  | .evidence v => { s with evidence := v }
  | .votesWaiting v => { s with votesWaiting := v }
  | .votes v => { s with votes := v }
  | .controllerDown v => { s with controllerDown := v }
  | .heldEvents v => { s with heldEvents := v }
  | .replanning v => { s with replanning := v }
  | .due v => { s with due := v }
  | .slices v => { s with slices := v }
  | .heldResults v => { s with heldResults := v }
  | .input v => { s with input := v }
  | .fillTags lo hi v => { s with tags := Tab.fill 0 s.tags lo hi v }
  | .fillPoisonWords lo hi => { s with poisonWords := Tab.fill false s.poisonWords lo hi true }
  | .cal v => { s with cal := v }
  | .calNext v => { s with calNext := v }
  | .selfCal v => { s with selfCal := v }
  | .licence v => { s with licence := v }
  | .firmware v => { s with firmware := v }
  | .auxOk v => { s with auxOk := v }
  | .mainOn v => { s with mainOn := v }
  | .hresetLow v => { s with hresetLow := v }
  | .booted v => { s with booted := v }
  | .recovery v => { s with recovery := v }
  | .reset_ v => { s with reset_ := v }
  | .resetWaiting v => { s with resetWaiting := v }
  | .partResets v => { s with partResets := v }
  | .restoreDefaults v => { s with restoreDefaults := v }
  | .dumps v => { s with dumps := v }
  | .dumpFlash v => { s with dumpFlash := v }
  | .dumpCopying v => { s with dumpCopying := v }
  | .raised v => { s with raised := v }
  | .logSeq v => { s with logSeq := v }
  | .emcyBusy v => { s with emcyBusy := v }
  | .emcyResetOwed v => { s with emcyResetOwed := v }
  | .nmt v => { s with nmt := v }
  | .nodeId v => { s with nodeId := v }
  | .entryWaits v => { s with entryWaits := v }
  | .ir v => { s with ir := v }
  | .dr v => { s with dr := v }
  | .boundary v => { s with boundary := v }
  | .msixWaiting v => { s with msixWaiting := v }
  | .findings v => { s with findings := v.take 256 }
  | .health v => { s with health := v.take 256 }
  | .resultLog v => { s with resultLog := v.take 1024 }
  | .log v => { s with log := v.take 65536 }
  | .errorHistory v => { s with errorHistory := v.take 16 }
  | .slew v => { s with slew := v }
  | .oscillator v => { s with oscillator := v % 5000 }
  | .ppsNext v => { s with ppsNext := v }
  | .heldPolicies v => { s with heldPolicies := v }
  | .fieldsOff v => { s with fieldsOff := v }
  | .phyStale v => { s with phyStale := v }
  | .retiredDrops v => { s with retiredDrops := v }
  | .unpersisted v => { s with unpersisted := v }
  | .emit o => { s with out := s.out ++ [o] }
  | .draw => { s with free := s.free + 1 }

/-! ## Programs -/

/-- The program of a command: effects in order, and looks at the state as it then stands. -/
inductive Prog where
  | skip
  | eff (e : Eff)
  | seq (a b : Prog)
  | look (f : State → Prog)

/-- Runs a program. -/
def Prog.run (p : Prog) (s : State) : State :=
  match p with
  | .skip => s
  | .eff e => e.apply s
  | .seq a b => b.run (a.run s)
  | .look f => (f s).run s

/-- Several programs in order. -/
def all (ps : List Prog) : Prog :=
  match ps with
  | [] => .skip
  | p :: ps => .seq p (all ps)

/-- A program under a condition. (DESIGN CHOICE: notes/assumptions/8.md.) -/
def whenP (c : Bool) (p : Prog) : Prog := if c then p else .skip

/-- The program `p` of what an option holds; nothing when it holds nothing.
(DESIGN CHOICE: notes/assumptions/8.md.) -/
def withP {α : Type} (o : Option α) (p : α → Prog) : Prog :=
  match o with
  | some a => p a
  | none => .skip

/-- One program for each element of a list, in order. -/
def eachP {α : Type} (xs : List α) (p : α → Prog) : Prog :=
  match xs with
  | [] => .skip
  | x :: xs => .seq (p x) (eachP xs p)

/-- The outcome of a command: the next state that its program leaves. -/
def finish (p : Prog) (s : State) : Host.Outcome State Fault Refusal := .next (p.run s)

/-! ## Reading the tables -/

/-- Entry `k` of the table `regs`. -/
def State.regAt (s : State) (k : Nat) : Nat := Tab.get (regDefault k) s.regs k

/-- Entry `k` of the table `selectors`. -/
def State.selectorAt (s : State) (k : Nat) : Nat := Tab.get 0 s.selectors k

/-- Entry `k` of the table `tags`. -/
def State.tagAt (s : State) (k : Nat) : Nat := Tab.get 0 s.tags k

/-- Entry `k` of the table `poisonLines`. -/
def State.linePoisoned (s : State) (k : Nat) : Bool := Tab.get false s.poisonLines k

/-- Entry `k` of the table `poisonWords`. -/
def State.wordPoisoned (s : State) (k : Nat) : Bool := Tab.get false s.poisonWords k

/-- Entry `k` of the table `acc`. -/
def State.accAt (s : State) (k : Nat) : FWord := Tab.get {} s.acc k

/-- Entry `k` of the table `vreg`. -/
def State.vregAt (s : State) (k : Nat) : FWord := Tab.get {} s.vreg k

/-- Entry `k` of the table `maskDrops`. -/
def State.maskDropsAt (s : State) (k : Nat) : Nat := Tab.get 0 s.maskDrops k

/-- Entry `k` of the table `slotFixes`. -/
def State.slotFixesAt (s : State) (k : Nat) : Nat := Tab.get 0 s.slotFixes k

/-- Entry `k` of the table `arbs`. -/
def State.arbAt (s : State) (k : Nat) : Nat := Tab.get 0 s.arbs k

/-- Entry `k` of the table `microcode`. -/
def State.microcodeAt (s : State) (k : Nat) : Microcode := Tab.get {} s.microcode k

/-- Entry `k` of the table `dieModules`. -/
def State.modulesFailed (s : State) (k : Nat) : Nat := Tab.get 0 s.dieModules k

/-- Entry `k` of the table `mtiles`. -/
def State.mtile (s : State) (k : Nat) : MTile := Tab.get {} s.mtiles k

/-- Entry `k` of the table `stiles`. -/
def State.stile (s : State) (k : Nat) : SCore := Tab.get {} s.stiles k

/-- Entry `k` of the table `ftiles`. -/
def State.ftile (s : State) (k : Nat) : FCore := Tab.get {} s.ftiles k

/-- Entry `k` of the table `bond`. -/
def State.bondOf (s : State) (k : Nat) : BondTile := Tab.get {} s.bond k

/-- Entry `k` of the table `running`. -/
def State.runningAt (s : State) (k : Nat) : Option RunTile := Tab.get none s.running k

/-- Entry `k` of the table `plans`. -/
def State.planAt (s : State) (k : Nat) : Option SlotPlan := Tab.get none s.plans k

/-- Entry `k` of the table `ctxs`. -/
def State.ctx (s : State) (k : Nat) : CtxCore := Tab.get {} s.ctxs k

/-- Entry `k` of the table `snaps`. -/
def State.snapOf (s : State) (k : Nat) : Option Snapshot := Tab.get none s.snaps k

/-- Entry `k` of the table `cells`. -/
def State.cellAt (s : State) (k : Nat) : Cell := Tab.get {} s.cells k

/-- Entry `k` of the table `waiters`. -/
def State.waitersAt (s : State) (k : Nat) : List Waiter := Tab.get [] s.waiters k

/-- Entry `k` of the table `fmap`. -/
def State.entryAt (s : State) (k : Nat) : Nat := Tab.get 0 s.fmap k

/-- Entry `k` of the table `rings`. -/
def State.ring (s : State) (k : Nat) : Ring := Tab.get {} s.rings k

/-- Entry `k` of the table `idle`. -/
def State.idleAt (s : State) (k : Nat) : Nat := Tab.get 0 s.idle k

/-- Entry `k` of the table `offerHold`. -/
def State.offerHeld (s : State) (k : Nat) : Bool := Tab.get false s.offerHold k

/-- Entry `k` of the table `net`. -/
def State.netAt (s : State) (k : Nat) : List Packet := Tab.get [] s.net k

/-- Entry `k` of the table `claims`. -/
def State.claimAt (s : State) (k : Nat) : Nat := Tab.get 0 s.claims k

/-- Entry `k` of the table `links`. -/
def State.link (s : State) (k : Nat) : LinkState := Tab.get {} s.links k

/-- Entry `k` of the table `routeState`. -/
def State.routeStateOf (s : State) (k : Nat) : Nat := Tab.get 0 s.routeState k

/-- Entry `k` of the table `fencedAs`. -/
def State.fencedState (s : State) (k : Nat) : Nat := Tab.get 0 s.fencedAs k

/-- Entry `k` of the table `hbm`. -/
def State.stackOf (s : State) (k : Nat) : StackCore := Tab.get {} s.hbm k

/-- Entry `k` of the table `xtiles`. -/
def State.xtile (s : State) (k : Nat) : XCore := Tab.get {} s.xtiles k

/-- Entry `k` of the table `pairs`. -/
def State.pair (s : State) (k : Nat) : Pair := Tab.get {} s.pairs k

/-- Entry `k` of the table `lintels`. -/
def State.lintel (s : State) (k : Nat) : LintelCore := Tab.get {} s.lintels k

/-- Entry `k` of the table `islands`. -/
def State.island (s : State) (k : Nat) : IslandCore := Tab.get {} s.islands k

/-- Entry `k` of the table `limits`. -/
def State.limitAt (s : State) (k : Nat) : Nat := Tab.get 0 s.limits k

/-- Entry `k` of the table `candidates`. -/
def State.isCandidate (s : State) (k : Nat) : Bool := Tab.get false s.candidates k

/-- Entry `k` of the table `sliceTimes`. -/
def State.sliceTime (s : State) (k : Nat) : Nat := Tab.get 0 s.sliceTimes k

/-- Entry `k` of the table `marigold`. -/
def State.mari (s : State) (k : Nat) : Option MariRun := Tab.get none s.marigold k

/-- Entry `k` of the table `can`. -/
def State.canOf (s : State) (k : Nat) : CanCore := Tab.get {} s.can k

/-- Entry `k` of the table `windows`. -/
def State.window (s : State) (k : Nat) : Window := Tab.get {} s.windows k

/-- Entry `k` of the table `dictSnaps`. -/
def State.dictSnap (s : State) (k : Nat) : Option DictSnap := Tab.get none s.dictSnaps k

/-! ## Changing one record -/

/-- Replaces an M-tile's record by a function of it. -/
def modM (k : Nat) (f : MTile → MTile) : Prog := .look fun s => .eff (.mtiles k (f (s.mtile k)))
/-- The same for an S-tile. -/
def modS (k : Nat) (f : SCore → SCore) : Prog := .look fun s => .eff (.stiles k (f (s.stile k)))
/-- The same for an F-tile. -/
def modF (k : Nat) (f : FCore → FCore) : Prog := .look fun s => .eff (.ftiles k (f (s.ftile k)))
/-- The same for a tile's Bond state. -/
def modBond (k : Nat) (f : BondTile → BondTile) : Prog := .look fun s => .eff (.bond k (f (s.bondOf k)))
/-- The same for a context. -/
def modCtx (k : Nat) (f : CtxCore → CtxCore) : Prog := .look fun s => .eff (.ctxs k (f (s.ctx k)))
/-- A ring that is not enabled: its counters stay. -/
def Ring.off (x : Ring) : Ring :=
  { messages := x.messages, senderStall := x.senderStall, receiverStall := x.receiverStall, rejected := x.rejected }

/-- The same for a ring. -/
def modRing (k : Nat) (f : Ring → Ring) : Prog := .look fun s => .eff (.rings k (f (s.ring k)))
/-- The same for a flag cell. -/
def modCell (k : Nat) (f : Cell → Cell) : Prog := .look fun s => .eff (.cells k (f (s.cellAt k)))
/-- The same for an island. -/
def modIsland (k : Nat) (f : IslandCore → IslandCore) : Prog := .look fun s => .eff (.islands k (f (s.island k)))
/-- The same for a queue pair. -/
def modPair (k : Nat) (f : Pair → Pair) : Prog := .look fun s => .eff (.pairs k (f (s.pair k)))
/-- The same for an X-tile. -/
def modX (k : Nat) (f : XCore → XCore) : Prog := .look fun s => .eff (.xtiles k (f (s.xtile k)))
/-- The same for a stack. -/
def modStack (k : Nat) (f : StackCore → StackCore) : Prog := .look fun s => .eff (.hbm k (f (s.stackOf k)))
/-- The same for a lintel. -/
def modLintel (k : Nat) (f : LintelCore → LintelCore) : Prog := .look fun s => .eff (.lintels k (f (s.lintel k)))
/-- The same for a Mortar link direction. -/
def modLink (k : Nat) (f : LinkState → LinkState) : Prog := .look fun s => .eff (.links k (f (s.link k)))
/-- The same for a path's domain window. -/
def modWindow (k : Nat) (f : Window → Window) : Prog := .look fun s => .eff (.windows k (f (s.window k)))

/-- An effect whose value is read from the state. -/
def withState (f : State → Eff) : Prog := .look fun s => .eff (f s)

/-! ## Registers and counters -/

/-- The value of scalar `idx:sub` as the table holds it. -/
def State.reg (s : State) (idx sub : Nat) : Nat := s.regAt (rk idx sub)

/-- Writes scalar `idx:sub`. -/
def setReg (idx sub v : Nat) : Prog := .eff (.regs (rk idx sub) v)

/-- Adds `d` to a counter of `w` bits, which saturates (R83). -/
def bump (w idx sub d : Nat) : Prog := .look fun s => setReg idx sub (satAdd w (s.reg idx sub) d)

/-- Adds `d` to a 64-bit counter. -/
def count64 (idx sub d : Nat) : Prog := bump 64 idx sub d

/-- Adds `d` to a 32-bit counter. -/
def count32 (idx sub d : Nat) : Prog := bump 32 idx sub d

/-- Adds `d` to a 16-bit counter. -/
def count16 (idx sub d : Nat) : Prog := bump 16 idx sub d

/-- Returns scalars `idx:lo` to `idx:hi` to their defaults. -/
def clearRegs (idx lo hi : Nat) : Prog := .eff (.dropRegs (rk idx lo) (rk idx hi + 1))

/-- The device time in nanoseconds (R343). -/
def State.now (s : State) : Nat := s.reg 0x2E40 0x01

/-- One second of device time, in nanoseconds. -/
def second : Nat := 1000000000

/-- One hour of device time, in nanoseconds. -/
def hour : Nat := 3600 * second

/-! ## Bytes of memory -/

/-- `n` bytes from address `a`. -/
def State.bytesAt (s : State) (a n : Nat) : List Byte := (List.range n).map fun i => readByte s.mem (a + i)

/-- The little-endian number in `n` bytes from address `a` (R8). -/
def State.load (s : State) (a n : Nat) : Nat := ofBytes (s.bytesAt a n)

/-- Writes bytes from address `a` upward. -/
def storeBytes (a : Nat) (bs : List Byte) : Prog :=
  match bs with
  | [] => .skip
  | b :: bs => .seq (.eff (.store a b)) (storeBytes (a + 1) bs)

/-- Writes an `n`-byte little-endian number at address `a`. -/
def storeNat (n a v : Nat) : Prog := storeBytes a (toBytes n v)

/-! ## Events (R16, R450, R470, R471) -/

/-- The dictionary scalar and the bit that enable an event code (the enable objects of chapters 02 to 17). -/
def enableOf (code : Nat) : Nat × Nat × Nat :=
  let b := code % 256 - 1
  match code / 0x1000 with
  | 0x1 => (0x2200, 0x09, b)
  | 0x2 => (0x2300, 0x03, b)
  | 0x3 => if code < 0x3800 then (0x2400, 0x01, b) else (0x2500, 0x09, b)
  | 0x4 => if code < 0x4800 then (0x29E0, 0x03, b) else (0x2D00, 0x05, b)
  | 0x5 => (0x2A00, 0x01, b)
  | 0x6 => (0x2B00, 0x01, b)
  | 0x7 =>
    if code < 0x7400 then (0x2C03, 0x02, b) else if code < 0x7800 then (0x2C10, 0x04, b)
    else if code < 0x7C00 then (0x2C21, 0x01, b) else (0x2C30, 0x01, b)
  | 0x8 => (0x2800, 0x03, b)
  | 0x9 => (0x2600, 0x04, b)
  | 0xA => (0x2E00, 0x01, b)
  | 0xB => (0x20F0, 0x05, b)
  | _ => (0x2F00, 0x05, b)

/-- An event code's enable bit is set. -/
def State.enabled (s : State) (code : Nat) : Bool :=
  let e := enableOf code
  (s.reg e.1 e.2.1).testBit e.2.2

/-- The bit of the error register that an event class sets (Table 18-7). -/
def errorBit (cls : Nat) : Nat :=
  match cls with
  | 0x1 => 2 | 0x2 => 3 | 0xA => 4 | _ => 7

/-- The EMCY error code of an event class (Table 18-7). -/
def emcyCode (cls : Nat) : Nat :=
  match cls with
  | 0x1 => 0x3001 | 0x2 => 0x4002 | 0x3 => 0x5003 | 0x4 => 0x5004 | 0x5 => 0x5005 | 0x6 => 0x5006
  | 0x7 => 0xFF07 | 0x8 => 0x6008 | 0x9 => 0x5009 | 0xA => 0x810A | 0xB => 0x600B | _ => 0x800C

/-- The error register with bit `b` set, and bit 0 with it (R470). -/
def raiseBit (r b : Nat) : Nat := setBit (setBit r b) 0

/-- Sends one EMCY message on both buses and enters it in the error history (R471, R472).
(DESIGN CHOICE: notes/assumptions/101.md.) -/
def sendEmcy (code reg event kind num arg : Nat) : Prog := all [
  eachP [0, 1] fun b => .look fun s =>
    whenP (s.reg 0x2E30 (0x02 + b) != 2) (.eff (.emit (.emcy b code reg event kind num arg))),
  withState fun s => .errorHistory ((place event 16 + code) :: s.errorHistory),
  .look fun s => whenP (s.reg 0x2E31 0x02 != 0) (.eff (.emcyBusy true))]

/-- The node may send on its buses: booted and not in the NMT state stopped (R462, R485). -/
def State.canSends (s : State) : Bool := s.booted && s.nmt != .stopped && s.nmt != .initialising

/-- A lintel takes and delivers items (R314, R315). -/
def State.lintelOpen (s : State) (k : Nat) : Bool := !(s.lintel k).stopped && !(s.lintel k).closed

/-- Sends an MSI-X message on the active host port, or keeps it until a port can send it (R323, R325). Vector 64 is asked for by
the alert request, which crosses the lintel of the port's die as a toggle: the first that waits is the toggle, the second the
one into which every later pulse merges (R316). (DESIGN CHOICE: notes/assumptions/101.md.) -/
def sendMsix (vector : Nat) : Prog := .look fun s =>
  let port := s.reg 0x2E10 0x01
  if s.mainOn && s.reg 0x2E10 (0x06 + port) != 0 && s.reg (0x4200 + 2 * port) 0x01 != 2 && s.lintelOpen (128 + 2 * port) then
    all [.eff (.emit (.msix port vector)), count64 0x2E10 0x08 1]
  else whenP (vector != 64 || decide (s.msixWaiting.count 64 < 2)) (.eff (.msixWaiting (s.msixWaiting ++ [vector])))

/-- Makes the log entry of an event: the entry waits for flash, the class's error bit is set, an EMCY message and
vector 64 go out (R323, R450, R470, R471). -/
def logEvent (e : Event) : Prog := all [
  withState fun s => .raised (s.raised ++ [e]),
  .look fun s => setReg 0x1001 0x00 (raiseBit (s.reg 0x1001 0x00) (errorBit (e.code / 0x1000))),
  .look fun s =>
    whenP ((s.reg 0x2E31 0x01).testBit (e.code / 0x1000) && s.canSends)
      (if s.emcyBusy then count32 0x2E31 0x03 1
       else sendEmcy (emcyCode (e.code / 0x1000)) (s.reg 0x1001 0x00) e.code e.kind e.num (e.arg1 % 2 ^ 32)),
  .look fun s => whenP ((s.reg 0x2E10 0x0A).testBit (e.code / 0x1000)) (sendMsix 64)]

/-- Reports an event: nothing when its enable bit is clear, held while the controller restarts, logged otherwise
(R388, R450). (DEDUCED: notes/assumptions/11.md.) -/
def report (code kind num a1 a2 : Nat) : Prog := .look fun s =>
  whenP (s.enabled code)
    (let e : Event := ⟨s.now, code, kind, num, a1 % 2 ^ 64, a2 % 2 ^ 64⟩
     if s.controllerDown then .eff (.heldEvents (s.heldEvents ++ [e])) else logEvent e)

/-- Reports an event under the once-per-section rule of R83 with its key of context and site.
(DEDUCED: notes/assumptions/12.md.) -/
def reportOnce (code c site kind num a1 a2 : Nat) : Prog := .look fun s =>
  whenP (s.enabled code && !(s.onceUsed.contains (code, c, site)))
    (all [.eff (.onceUsed ((code, c, site) :: s.onceUsed)), report code kind num a1 a2])

/-- Reports an event at most once in each period of device time for one unit.
(DESIGN CHOICE: notes/assumptions/100.md.) -/
def reportLimited (code unit period kind num a1 a2 : Nat) : Prog := .look fun s =>
  let k := code * 2 ^ 32 + unit
  whenP (s.enabled code && s.limitAt k != s.now / period + 1)
    (all [.eff (.limits k (s.now / period + 1)), report code kind num a1 a2])

/-- Two items in one event argument (DESIGN CHOICE, notes/assumptions/4.md). -/
def pairArg (a b : Nat) : Nat := Config.packArgs a b

/-! ## Placement (R35 to R42) -/

/-- The fenced mask of a region course (Table 02-3). -/
def State.fenceMask (s : State) (r course : Nat) : Nat := s.reg (0x2410 + r) (course + 1) % 2 ^ 17

/-- The site that serves a logical tile; none when the tile is absent (R35). -/
def State.siteOf (s : State) (l : Nat) : Option Nat :=
  (nthFree (s.fenceMask (tileRegion l) (courseOf (tileRow l))) (tileCol l % 16)).map fun p =>
    tileRow l * 68 + tileCol l / 16 * 17 + p

/-- The logical tile that a site serves; none for a spare unused or fenced site (R35). -/
def State.tileOf (s : State) (n : Nat) : Option Nat :=
  let m := s.fenceMask (siteRegion n) (courseOf (siteRow n))
  let p := sitePierLocal n
  if m.testBit p ∨ 3264 ≤ n then none
  else
    let c := freeBelow m p
    if c < 16 then some (siteRow n * 64 + sitePier n / 17 * 16 + c) else none

/-- A site is fenced. -/
def State.isFenced (s : State) (n : Nat) : Bool :=
  (s.fenceMask (siteRegion n) (courseOf (siteRow n))).testBit (sitePierLocal n)

/-- The referee candidates of a region, in ascending course (R40): unfenced spares of M courses that serve nothing. -/
def State.refereeCandidates (s : State) (r : Nat) : List Nat :=
  ((List.range 24).filter fun k => decide (rowType (r / 4 * 24 + k) = 0) && s.fenceMask r k == 0).map fun k =>
    (r / 4 * 24 + k) * 68 + r % 4 * 17 + 16

/-- The active referee of a region (R40). -/
def State.referee (s : State) (r : Nat) : Option Nat := (s.refereeCandidates r).head?

/-- The placement state of a site (Table 02-5). -/
def State.placement (s : State) (n : Nat) : Nat :=
  if s.isFenced n then s.fencedState n
  else if s.fences.any (fun f => decide (f.site = n)) || s.heldFences.any (fun f => decide (f.site = n))
      || (match s.fence with | some f => decide (f.req.site = n) | none => false) then 6
  else if (s.tileOf n).isSome then 0
  else if s.referee (siteRegion n) = some n then 2
  else 1

/-- The region mask of a list of regions. -/
def regionMask (rs : List Nat) : Nat := rs.foldl (fun m r => setBit m r) 0

/-- The region mask of the partition that a context names (R51, R253). -/
def State.partMask (s : State) (c : Nat) : Nat := s.reg 0x2430 (s.reg (0x2700 + c) 0x03 + 1)

/-- A context's state (Table 10-1): 0 free, 1 running, 2 stopped. -/
def State.ctxState (s : State) (c : Nat) : Nat := s.reg (0x2700 + c) 0x01

/-- The contexts that hold a partition in one of the regions of a mask (R22). -/
def State.ctxsIn (s : State) (mask : Nat) : List Nat :=
  (List.range 64).filter fun c => s.ctxState c != 0 && (s.partMask c &&& mask) != 0

/-- The context mask of a list of contexts. -/
def ctxMask (cs : List Nat) : Nat := cs.foldl (fun m c => setBit m c) 0

/-- Argument 1 of a report of R22: the event's own items and the region mask in bits [63:56]. -/
def withRegions (item mask : Nat) : Nat := place (mask % 256) 56 + item % 2 ^ 56

/-- Reports an event of R22 about the regions of a mask. -/
def reportRegions (code kind num item mask : Nat) : Prog := .look fun s =>
  report code kind num (withRegions item mask) (ctxMask (s.ctxsIn mask))

/-- Every context is free. -/
def State.allFree (s : State) : Bool := (List.range 64).all fun c => s.ctxState c == 0

/-- A designation of a save area is valid (Table 15-2). -/
def saveValid (w : Nat) : Bool := bit w 31

/-- The first slot of a save area in its S-tile. -/
def saveSlot (w : Nat) : Nat := bits w 2 0 * 8192

/-- A slot of an S-tile lies in a valid save area (R405, R406). -/
def State.slotSaved (s : State) (t slot : Nat) : Bool := (List.range 24).any fun i =>
  let w := s.reg 0x2601 (i + 1)
  saveValid w && decide (bits w 27 16 = sTileLogical t ∧ saveSlot w ≤ slot ∧ slot < saveSlot w + 16384)

/-- A steward runs (object 0x4080 + f:21). -/
def State.stewardUp (s : State) (f : Nat) : Bool := s.reg (0x4080 + f) 0x21 == 0

/-- A region's steward-served power actions are held in a field (R363). -/
def State.powerHeld (s : State) (f : Nat) : Bool := s.reg (0x4080 + f) 0x20 == 1

/-- The device is ready (R422). -/
def State.ready (s : State) : Bool := s.reg 0x20F0 0x01 == 0x0C

/-- The logical tiles of a region mask that a site serves, ascending. -/
def State.servedTiles (s : State) (mask : Nat) : List Nat :=
  (List.range 3072).filter fun l => mask.testBit (tileRegion l) && (s.siteOf l).isSome

/-- The plan-slot state of a slot of a logical tile (object 0x3000 + n:70, Table 08-10). -/
def State.slotState (s : State) (site slot : Nat) : Nat := s.reg (0x3000 + site) 0x70 / 16 ^ slot % 16

/-- Sets the state of one slot of a site. -/
def setSlotState (site slot v : Nat) : Prog := .look fun s =>
  let r := s.reg (0x3000 + site) 0x70
  setReg (0x3000 + site) 0x70 (r - r / 16 ^ slot % 16 * 16 ^ slot + v * 16 ^ slot)

/-- Above every key of every table. -/
def everyKey : Nat := 2 ^ 64

end Sys2Proof.Machine
end

