-- ==== Sys2Proof/Machine/Access.lean ====
section
/-! DEFINITION. How a write through a dictionary path is accepted or refused (R456 to R458, R464 to R466, R485). Every
command that is a dictionary write is a `Command`, and REGISTER_WRITE and the other dictionary commands run the same
ones. -/

namespace Sys2Proof.Machine

open Sys2Proof

/-- The number of a path in object 0x20F8 (R457). -/
def pathNo (p : Path) : Nat :=
  match p with
  | .host0 => 0 | .host1 => 1 | .canA => 2 | .canB => 3 | .jtag => 4

/-- The path of a host port. -/
def hostPath (h : Nat) : Path := if h = 0 then .host0 else .host1

/-- The path of a CAN bus. -/
def busPath (b : Nat) : Path := if b = 0 then .canA else .canB

/-- The bring-up step in progress, 12 when ready, 10 when bring-up halted there (Table 16-2). -/
def State.bringUpStep (s : State) : Nat :=
  let c := s.reg 0x20F0 0x01
  if c = 0x0D then 10 else if 0x0D < c then 0 else c

/-- The sources that bring-up step `k` powers are powered (R464). -/
def State.powered (s : State) (k : Nat) : Bool := s.mainOn && decide (k ≤ s.bringUpStep)

/-- The key of a lintel: memory X-tiles, UCIe links, CAN buses, JTAG, timebase. -/
def lintelKey (l : Lintel) : Nat :=
  match l with
  | .memory x => x | .ucie q => 128 + q | .can b => 132 + b | .jtag => 134 | .timebase => 135

/-- A quoin die is attached (object 0x4200 + q:01 is not 2, R311). -/
def State.dieUp (s : State) (q : Nat) : Bool := s.reg (0x4200 + q) 0x01 != 2

/-- What a path passes on its way to the management plane lets it through: the UCIe link of the port's die, or the lintel
of the bus or of JTAG (R310, R312, R314). -/
def State.pathOpen (s : State) (p : Path) : Bool :=
  match p with
  | .host0 => s.dieUp 0 && s.lintelOpen 128
  | .host1 => s.dieUp 2 && s.lintelOpen 130
  | .canA => s.lintelOpen 132 && s.reg 0x2E30 0x02 != 2
  | .canB => s.lintelOpen 133 && s.reg 0x2E30 0x03 != 2
  | .jtag => s.lintelOpen 134

/-- A path is served (Table 18-3, R312, R314, R424, R462, R485). -/
def State.serves (s : State) (p : Path) : Bool :=
  s.pathOpen p && match p with
  | .host0 | .host1 => s.booted && s.powered 6 && s.reg 0x2E10 (0x06 + pathNo p) != 0
  | .canA | .canB => (s.booted || s.recovery) && s.nmt != .stopped
  | .jtag => s.booted || s.recovery

/-- The bring-up step that powers the unit in which an object's value lives, 0 for one that the management plane holds
(R464; DEDUCED, notes/assumptions/9.md). -/
def sourceStep (idx sub : Nat) : Nat :=
  if 0x3000 ≤ idx ∧ idx < 0x3CC0 then (if 0x20 ≤ sub ∧ sub ≤ 0xA2 then 4 else 0)
  else if 0x4000 ≤ idx ∧ idx < 0x4018 then (if sub = 0x02 ∨ sub = 0x0B ∨ sub = 0x0C ∨ sub = 0x0D then 4 else 0)
  else if 0x4100 ≤ idx ∧ idx < 0x4120 then (if sub = 0 then 0 else 3)
  else if 0x4200 ≤ idx ∧ idx < 0x4204 then (if sub = 0 then 0 else 5)
  else if 0x2E20 ≤ idx ∧ idx < 0x2E30 then (if sub = 0x01 ∨ (0x06 ≤ sub ∧ sub ≤ 0x0A) then 5 else 0)
  else if 0x2700 ≤ idx ∧ idx < 0x2740 then (if sub = 0x06 ∨ (0x08 ≤ sub ∧ sub ≤ 0x0A) then 5 else 0)
  else if idx = 0x2810 then (if sub = 0x03 ∨ sub = 0x04 then 4 else 0)
  else if idx = 0x2900 then (if 0x02 ≤ sub then 4 else 0)
  else 0

/-- An object may be reached now: its source is powered, or the access is a write of a setting that R423 stores. -/
def State.available (s : State) (idx sub : Nat) (setting : Bool) : Bool :=
  setting || decide (sourceStep idx sub = 0) || s.powered (sourceStep idx sub)

/-- Abort: the controller restarts (R388). -/
def abortBusy : Nat := 0x08000000
/-- Abort: value outside the accepted values. -/
def abortValue : Nat := 0x06090030
/-- Abort: refused in the present state. -/
def abortState : Nat := 0x08000022
/-- Abort: width or length. -/
def abortLength : Nat := 0x06070010
/-- Abort: write to a const or ro object. -/
def abortAccess : Nat := 0x06010002
/-- Abort: a domain through a scalar slot. -/
def abortDomain : Nat := 0x06010000
/-- Abort: subindex not implemented. -/
def abortSub : Nat := 0x06090011
/-- Abort: index not implemented. -/
def abortIndex : Nat := 0x06020000

/-- Records the abort code and the object of a refused access for its path (R457). -/
def recordAbort (p : Path) (idx sub code : Nat) : Prog := all [
  setReg 0x20F8 (0x01 + pathNo p) code,
  setReg 0x20F8 (0x06 + pathNo p) (place idx 16 + place sub 8)]

/-- The busy bit of a path's window status (Table 18-4). -/
def windowBusy : Nat := 2 ^ 63

/-- The busy bit of the JTAG data register (R463). -/
def jtagBusy : Nat := 2 ^ 127

/-- Answers an access: the commit that waits has its status (R461), and the JTAG access that waits its result (R463).
(DEDUCED: notes/assumptions/92.md.) -/
def answer (p : Path) (code v : Nat) : Prog := all [
  .eff (.emit (.dictDone p code v)),
  .look fun s => whenP ((s.window (pathNo p)).status == windowBusy) (modWindow (pathNo p) fun w => { w with status := code }),
  .look fun s => whenP (p == .jtag && s.dr == jtagBusy) (.eff (.dr (place code 64 + v)))]

/-- Refuses an access. -/
def refuseAccess (p : Path) (idx sub code : Nat) : Prog := all [recordAbort p idx sub code, answer p code 0]

/-- Ends the snapshots of an object that a path has written (R466). -/
def dropSnapshots (idx : Nat) : Prog :=
  eachP [0, 1, 2, 3, 4] fun k => .look fun s =>
    match s.dictSnap k with
    | some d => whenP (decide (d.index = idx)) (.eff (.dictSnaps k none))
    | none => .skip

/-- A write through the dictionary: when its value is one the object accepts, when the device is in a state that
accepts it, what a refusal with a given abort code does besides, and what an accepted write does. -/
structure Command where
  valueOk : State → Bool := fun _ => true
  stateOk : State → Bool := fun _ => true
  refused : Nat → Prog := fun _ => .skip
  effect : Prog := .skip
  /-- an rw setting, which R423 lets be written before its source is powered -/
  setting : Bool := false
  /-- the answer waits (R283) -/
  answersLater : Bool := false

/-- The abort code of a command in a state, 0 when it is accepted (Table 18-2). (DEDUCED: notes/assumptions/10.md.) -/
def Command.code (k : Command) (s : State) (idx sub : Nat) : Nat :=
  if s.controllerDown then abortBusy
  else if !k.valueOk s then abortValue
  else if !s.available idx sub k.setting || !k.stateOk s then abortState
  else 0

/-- Runs a command that arrives on a path (R456, R457, R466, R485). -/
def commandWrite (p : Path) (idx sub : Nat) (k : Command) : Prog := .look fun s =>
  if !s.serves p then .skip
  else
    let c := k.code s idx sub
    if c = 0 then
      all [k.effect, dropSnapshots idx, if k.answersLater then .skip else answer p 0 0]
    else if c = abortBusy then refuseAccess p idx sub c
    else all [k.refused c, refuseAccess p idx sub c]

/-- A write of a whole domain: one whose length the object does not accept is refused before its content is looked at
(R461, Table 18-2). -/
def domainWrite (p : Path) (idx sub : Nat) (lengthOk : Bool) (k : Command) : Prog := .look fun s =>
  if lengthOk then commandWrite p idx sub k
  else whenP (s.serves p) (refuseAccess p idx sub (if s.controllerDown then abortBusy else abortLength))

/-- The refusal event of a rejected command. -/
def refusedEvent (code kind num a1 a2 : Nat) : Nat → Prog := fun _ => report code kind num a1 a2

end Sys2Proof.Machine
end

