-- ==== Sys2Proof/Machine/HbmBase.lean ====
section
/-! DEFINITION. What the memory edges keep of a device address in the HBM range: which stacks answer, poison marks,
retired granules, whole and partial line writes, and the counts of corrected and uncorrectable lines (R295, R301 to
R305, R309). -/

namespace Sys2Proof.Machine

open Sys2Proof

/-- Every X-tile of an edge is orphaned (R295). -/
def State.edgeDead (s : State) (edge : Nat) : Bool := (List.range 32).all fun j => (s.xtile (xAtPlace edge j)).orphan

/-- A stack answers accesses: main power is on, the stack is online, and some X-tile reaches it (R295, R305, R355). -/
def State.stackServes (s : State) (st : Nat) : Bool := s.mainOn && s.reg (0x4100 + st) 0x01 == 1 && !s.edgeDead (st / 8)

/-- The granules of a range, by their first addresses. -/
def granulesOf (a n : Nat) : List Nat :=
  if n = 0 then [] else (List.range ((a + n - 1) / 256 - a / 256 + 1)).map fun i => (a / 256 + i) * 256

/-- The lines of a range, by number. -/
def linesOf (a n : Nat) : List Nat :=
  if n = 0 then [] else (List.range ((a + n - 1) / 64 - a / 64 + 1)).map fun i => a / 64 + i

/-- Every stack of a range answers. -/
def State.hbmServes (s : State) (a n : Nat) : Bool := (granulesOf a n).all fun g => s.stackServes (interleave g).1

/-- A range touches the dump area (R292). -/
def touchesDump (a n : Nat) : Bool := decide (0 < n ∧ dumpBase < a + n ∧ a < 0x020000000000)

/-- The granule of a line is retired (R309). -/
def State.retiredLine (s : State) (l : Nat) : Bool := s.retired.any fun e => decide (e.1 = l / 4 * 256)

/-- A line reads as poisoned (R302, R309). -/
def State.lineBad (s : State) (l : Nat) : Bool := s.linePoisoned l || s.retiredLine l

/-- Some line of a range reads as poisoned. -/
def State.rangeBad (s : State) (a n : Nat) : Bool := (linesOf a n).any fun l => s.lineBad l

/-- Writes the bytes of a range that fall in line `l`: a whole line replaces the mark, a part of one keeps it, poisoned
data sets it, and a retired granule takes nothing, which is counted (R302, R309). (DESIGN CHOICE: notes/assumptions/53.md.) -/
def putLine (a : Nat) (bs : List Byte) (poison : Bool) (l : Nat) : Prog := .look fun s =>
  let lo := max a (64 * l)
  let hi := min (a + bs.length) (64 * l + 64)
  if s.retiredLine l then .eff (.retiredDrops (s.retiredDrops + 1))
  else all [
    storeBytes lo ((bs.drop (lo - a)).take (hi - lo)),
    .eff (.poisonLines l (if hi - lo = 64 then poison else poison || s.linePoisoned l))]

/-- Writes bytes to HBM. -/
def hbmPut (a : Nat) (bs : List Byte) (poison : Bool) : Prog := eachP (linesOf a bs.length) (putLine a bs poison)

/-- One corrected line of a stack counts; the count of a second above the threshold is reported once (R301, R303).
(DEDUCED: notes/assumptions/98.md.) -/
def lineCorrected (st : Nat) : Prog := .look fun s =>
  let sec := s.now / second + 1
  let k := if (s.stackOf st).second = sec then (s.stackOf st).inSecond + 1 else 1
  all [
    count64 0x2D00 0x09 1, count64 (0x4100 + st) 0x05 1,
    modStack st fun x => { x with second := sec, inSecond := k },
    whenP (decide (s.reg 0x2D00 0x04 < k)) (reportLimited 0x4801 st second 5 st st k)]

/-- An uncorrectable line is found: counted and marked (R302, R303). -/
def lineLost (st l : Nat) : Prog := all [
  count64 0x2D00 0x0A 1, count32 (0x4100 + st) 0x06 1, .eff (.poisonLines l true)]

/-- Reports a rejected access of a context to the dump area (R292): `kind` and `num` name the unit, `ep` the source. -/
def dumpRefused (kind num c ep : Nat) : Prog := report 0x4805 kind num c ep

/-! ## Lintels (Table 12-2) -/

/-- The lintel between an endpoint and what serves it lets its items through; a site has none. -/
def State.endpointOpen (s : State) (ep : Nat) : Bool :=
  if ep < 0xD00 then true else if ep < 0xD80 then s.lintelOpen (ep - 0xD00) else s.lintelOpen (128 + (ep - 0xD80))

/-- What reading line `l` for a context finds (R301, R302). A line that is marked or retired already gives nothing new. -/
def lineFound (c l : Nat) (err : LineError) : Prog := .look fun s =>
  let p := interleave (64 * l)
  whenP (s.stackServes p.1 && !s.lineBad l) (match err with
    | .none => .skip
    | .corrected => lineCorrected p.1
    | .uncorrectable => all [
        lineLost p.1 l,
        reportOnce 0x4802 c (0xD00 + homeX (64 * l)) 1 (homeX (64 * l)) (pairArg p.1 p.2.1) p.2.2])

end Sys2Proof.Machine
end

