-- ==== Sys2Proof/Machine/Containment.lean ====
section
/-! DEFINITION. What a fault touches: the death of a context (R255, R383, R446), completion records (R258), the suspicion
of a site (R374 to R376), evidence (R400), and the helpers that say which context a tile or a queue engine serves. -/

namespace Sys2Proof.Machine

open Sys2Proof

/-! ## Who runs what -/

/-- The die of a context's queue engine (Table 12-1). -/
def queueDie (c : Nat) : Nat := c % 4

/-- The Mortar endpoint of a context's queue engine (R256). -/
def queueEndpoint (c : Nat) : Nat := 0xD80 + c % 4

/-- A context runs (Table 10-1). -/
def State.ctxRuns (s : State) (c : Nat) : Bool := s.ctxState c == 1

/-- What a site runs, when its context runs. -/
def State.active (s : State) (site : Nat) : Option RunTile :=
  match s.runningAt site with
  | some r => if s.ctxRuns r.ctx then some r else none
  | none => none

/-- The tile plan that a site runs. -/
def State.planOf (s : State) (site : Nat) : Option TilePlan :=
  match s.active site, s.tileOf site with
  | some r, some l => (s.planAt (l * 4 + r.slot)).map (·.plan)
  | _, _ => none

/-- The configuration words of the U2 unit that a site runs a part of (R188). -/
def State.unitProgram (s : State) (site : Nat) : Option (List Nat) :=
  match s.active site, s.tileOf site with
  | some r, some l => match s.planAt (l * 4 + r.slot) with
    | some p => p.u2
    | none => none
  | _, _ => none

/-- A fenced site in bypass: its link stages pass traffic east and west (R38, Table 02-5). -/
def State.isBypass (s : State) (n : Nat) : Bool := s.isFenced n && decide (s.fencedState n = 3 ∨ s.fencedState n = 4)

/-- The logical tile that an X-tile's Bond link attaches to (Table 09-2). -/
def xLogical (x : Nat) : Nat :=
  let row := xSite x / 68
  match xPort x with
  | 1 => row * 64 + 63
  | 3 => row * 64
  | _ => row * 64 + xSite x % 68 / 17 * 16 + xSite x % 68 % 17

/-- The X-tile on side `d` of a logical tile. -/
def xOfTile (l d : Nat) : Option Nat := (List.range 128).find? fun x => decide (xLogical x = l ∧ xPort x = d)

/-- The sites in bypass that a site's link crosses in direction `d`, nearest first, and the site that its logical neighbour
lies on. -/
def State.linkPath (s : State) (n d : Nat) : Option (List Nat × Nat) :=
  match s.tileOf n with
  | none => none
  | some l => match logicalNeighbour l d with
    | none => none
    | some l' => (s.siteOf l').map fun m =>
      ((if d = 1 then (List.range (m - n)).map fun i => n + i else if d = 3 then (List.range (n - m)).map fun i => n - i
        else []).filter s.isBypass, m)

/-- The sites in bypass between an X-tile and the site `n` that serves its tile, from the attachment site on (R38, R295). -/
def State.xPath (s : State) (x n : Nat) : List Nat :=
  ((List.range (max n (xSite x) - min n (xSite x))).map fun i => if xSite x < n then xSite x + i else xSite x - i).filter s.isBypass

/-- The sites in bypass that a site's link in direction `d` crosses, to its logical neighbour or to its X-tile. -/
def State.bypassPath (s : State) (n d : Nat) : List Nat :=
  match s.linkPath n d, s.tileOf n with
  | some p, _ => p.1
  | none, some l => ((xOfTile l d).map fun x => s.xPath x n).getD []
  | none, none => []

/-- The sites on which a section of a context runs, ascending. -/
def State.sectionSites (s : State) (c : Nat) : List Nat :=
  (s.running.filter fun e => match e.2 with
    | some r => decide (r.ctx = c)
    | none => false).map fun e => e.1

/-- A progress event of a context restarts its watchdog (R448). -/
def progress (c : Nat) : Prog := setReg (0x2700 + c) 0x36 0

/-! ## Completion records (R258) -/

/-- The address of the completion record of descriptor `p` of a context. -/
def State.recordAddr (s : State) (c p : Nat) : Nat :=
  s.reg (0x2700 + c) 0x07 + p % 2 ^ s.reg (0x2700 + c) 0x05 * 16

/-- The words of the completion record of an ended descriptor: the device time (for NOTE the time of its start, R264),
and the failure code with the tag (for a descriptor fetched poisoned, tag 0, R260). -/
def State.recordWords (s : State) (d : ActiveDesc) (code : Nat) : Nat × Nat :=
  let w0 := d.words.headD 0
  (if bits w0 63 58 = 0x0C && d.started then d.startTime else s.now,
    place code 48 + (if code = 0x8005 then 0 else bits w0 31 0))

/-- Advances the completed count past every descriptor whose record is written, sending the interrupts that they
request. `records` holds a written descriptor as its number × 2 + interrupt bit.
(DEDUCED: notes/assumptions/13.md.) -/
def advanceCompleted (c fuel : Nat) : Prog :=
  match fuel with
  | 0 => .skip
  | n + 1 => .look fun s =>
    let k := s.reg (0x2700 + c) 0x08
    match (s.ctx c).records.find? fun r => decide (r / 2 = k) with
    | none => .skip
    | some r => all [
        setReg (0x2700 + c) 0x08 ((k + 1) % 2 ^ 32),
        modCtx c fun x => { x with records := x.records.filter fun q => decide (q ≠ r) },
        whenP (r % 2 == 1) (sendMsix c),
        advanceCompleted c n]

/-- The completion record of a descriptor can be written (R258, R292, R305). -/
def State.recordWritable (s : State) (c p : Nat) : Bool :=
  s.hbmServes (s.recordAddr c p) 16 && !touchesDump (s.recordAddr c p) 16

/-- An access of a context's queue engine to `n` bytes that touch the dump area is reported (R292). -/
def engineDump (c a n : Nat) : Prog := whenP (touchesDump a n) (dumpRefused 2 (queueDie c) c (queueEndpoint c))

/-- Writes the completion record of an ended descriptor and counts it; when the write fails, the completed count does not
pass the descriptor. -/
def writeRecord (c : Nat) (d : ActiveDesc) (code : Nat) : Prog := .look fun s =>
  let w := s.recordWords d code
  all [
    modCtx c fun x => { x with active := x.active.filter fun e => decide (e.num ≠ d.num) },
    engineDump c (s.recordAddr c d.num) 16,
    whenP (s.recordWritable c d.num) (all [
      hbmPut (s.recordAddr c d.num) (toBytes 8 w.1 ++ toBytes 8 w.2) false,
      modCtx c fun x => { x with
        records := x.records ++ [d.num * 2 + (if bit (d.words.headD 0) 56 then 1 else 0)] },
      whenP (decide (code ≠ 0)) (count32 (0x2700 + c) 0x0C 1),
      progress c,
      .look fun t => advanceCompleted c (t.ctx c).records.length])]

/-! ## Queue pairs to error (R337) -/

/-- The state field of a queue pair (Table 12-5). -/
def Pair.state (p : Pair) : Nat := bits (p.words.headD 0) 63 62

/-- The context that owns a queue pair. -/
def Pair.owner (p : Pair) : Nat := bits (p.words.headD 0) 61 56

/-- A pair with its state field replaced. -/
def Pair.withState (p : Pair) (st : Nat) : Pair :=
  let w := p.words.headD 0
  { p with words := (w % 2 ^ 62 + place st 62) :: p.words.drop 1 }

/-- Moves queue pair `n` to error: every request it has taken ends with an error status (R337). `why` numbers the cause
for Config.pairErrorCause. -/
def pairError (n why : Nat) : Prog := .look fun s =>
  whenP ((s.pair n).state == 1) (all [
    modPair n fun p => { p.withState 2 with
      sends := p.sends.map fun e => { e with status := some (e.status.getD 0xA00D) }
      recvs := p.recvs.map fun e => (e.1, some (match e.2 with | some x => x | none => (0xA00D, 0))) },
    report 0xA00D 2 (n / 256) (s.pair n).owner (pairArg (n % 256) (Config.pairErrorCause why))])

/-- Moves every pair of a context to error. -/
def pairsError (c : Nat) : Prog := .look fun s =>
  eachP ((s.pairs.filter fun e => decide (e.2.owner = c)).map fun e => e.1) fun n => pairError n 3

/-! ## Context death (R446) -/

/-- Kills a running context with a cause, in the order of R446. Its tiles keep their state for the dump; its votes are
dropped with the sections that raised them (R381). -/
def killContext (c cause : Nat) : Prog := .look fun s =>
  whenP (s.ctxRuns c) (
    let x := s.ctx c
    let sites := s.sectionSites c
    all [
      setReg (0x2700 + c) 0x38 cause,
      setReg (0x2700 + c) 0x39 s.now,
      setReg (0x2700 + c) 0x01 2,
      setReg (0x2700 + c) 0x36 0,
      withState fun t => .votesWaiting (t.votesWaiting.filter fun n => !sites.contains n),
      withState fun t => .votes (t.votes.filter fun v => !sites.contains v.site),
      if s.dieUp (queueDie c) then eachP x.active fun d => writeRecord c d (d.status.getD 0xC003) else .skip,
      modCtx c fun y => { y with active := [], armDesc := none, runDesc := none, ringPosts := [], flagOps := [] },
      report 0xC003 7 c c x.active.length,
      pairsError c])

/-- A context consumes poison at a site or an endpoint and dies (R383). `kind` and `num` name the unit that reports. -/
def poisonDeath (c kind num unit : Nat) : Prog := .look fun s =>
  whenP (s.ctxState c != 0) (all [report 0x3807 kind num c unit, killContext c 0x3807])

/-- The context of a site consumes poison at the site. -/
def sitePoison (site : Nat) : Prog := .look fun s => withP (s.active site) fun r => poisonDeath r.ctx 0 site site

/-! ## Suspicion (R374 to R376, R400) -/

/-- The cause code of a class bit of Table 14-1. -/
def classCause (k : Nat) : Nat := k + 3

/-- The class bit of a cause code, for the classes of Table 14-1 that have one. -/
def causeClass (cause : Nat) : Option Nat := if 3 ≤ cause ∧ cause ≤ 9 then some (cause - 3) else none

/-- The fenced sites of a region, every source counted, also fuses (R46, R390, R391). (DEDUCED: notes/assumptions/120.md.) -/
def State.fieldFenced (s : State) (r : Nat) : Nat :=
  (s.fencedAs.filter fun e => decide (siteRegion e.1 = r)).length

/-- Sites of a region that are not fenced yet and whose fence waits for its turn or for a steward: they count toward the
region's budget as fenced ones do (R391). (DEDUCED: notes/assumptions/120.md.) -/
def State.fencesComing (s : State) (r : Nat) : Nat :=
  ((s.fences ++ s.heldFences).filter fun f => decide (siteRegion f.site = r) && !s.isFenced f.site).length

/-- Policy fences within the last hour of device time (R391). -/
def State.policyLastHour (s : State) : Nat := (s.policyTimes.filter fun t => decide (s.now < t + hour)).length

/-- Reports decision needed and sets its bit (R387, R391). -/
def decisionNeeded (reason unit bitNo : Nat) : Prog := .look fun s => all [
  setReg 0x2500 0x07 (setBit (s.reg 0x2500 0x07) bitNo),
  report 0x3806 6 0 reason unit]

/-- A fence request enters the controller's order: lower site numbers first (R45), also where requests arrived at different
times (DESIGN CHOICE, notes/assumptions/114.md). -/
def insertFence (f : FenceReq) (fs : List FenceReq) : List FenceReq :=
  (fs.takeWhile fun g => decide (g.site ≤ f.site)) ++ [f] ++ (fs.dropWhile fun g => decide (g.site ≤ f.site))

/-- The fields that serve a site's region (R386): a remap change there needs all of their stewards. -/
def siteFields (n : Nat) : List Nat := regionFields (siteRegion n)

/-- A fence request whose field's steward has stopped (R47): held and counted. -/
def holdFence (f : FenceReq) (field : Nat) : Prog := all [
  withState fun s => .heldFences (insertFence f s.heldFences),
  .look fun s => setReg 0x2420 0x03 s.heldFences.length,
  reportRegions 0x3006 6 0 (Config.packArgs f.site field) (regionMask (fieldRegions field))]

/-- A fence action is wanted: queued for the controller, or held while a steward that it needs is stopped (R45, R47,
R386). A fence of a site already fenced has no effect, but for a class 4 fault of a site in bypass, its own fence still running
or not (R46). -/
def wantFence (f : FenceReq) : Prog := .look fun s =>
  let queued := s.fences.any (fun g => decide (g.site = f.site)) || s.heldFences.any (fun g => decide (g.site = f.site))
  let usable := if s.isFenced f.site then decide (f.cause = 0x07 ∧ s.fencedState f.site ≠ 5) else true
  whenP (usable && !queued)
    (match (siteFields f.site).find? fun g => !s.stewardUp g with
     | some g => holdFence f g
     | none => withState fun t => .fences (insertFence f t.fences))

/-- What the healing policy does about a fence candidate whose triggering class is `k` (R389 to R391): while the controller
restarts it waits for it (R388). (DEDUCED: notes/assumptions/124.md.) -/
def policyFence (site k : Nat) : Prog := .look fun s =>
  let r := siteRegion site
  let d := s.reg 0x2500 0x07
  if s.controllerDown then .eff (.heldPolicies (s.heldPolicies ++ [(site, k)]))
  else whenP (s.reg 0x2500 0x01 != 0 && (s.reg 0x2500 0x02).testBit k && !s.isFenced site
      && !d.testBit 0 && !d.testBit (8 + r))
    (if !decide (s.policyLastHour < s.reg 0x2500 0x03) then decisionNeeded 0 r 0
     else if !decide (s.fieldFenced r + s.fencesComing r < 408 * s.reg 0x2500 0x04 / 1000) then decisionNeeded 1 r (8 + r)
     else all [
      withState fun t => .policyTimes (s.now :: t.policyTimes.filter fun x => decide (s.now < x + hour)),
      .look fun t => setReg 0x2500 0x08 (min 255 t.policyLastHour),
      report 0x3802 6 0 site k,
      wantFence ⟨site, classCause k, some k⟩])

/-- The evidence count (R400). -/
def State.evidenceCount (s : State) : Nat :=
  min (2 ^ 32 - 1) (s.evidence.filter fun t => decide (s.now < t + s.reg 0x2530 0x07 * hour)).length

/-- Counts one fault event or completed slice as evidence (R400). -/
def addEvidence : Prog := .look fun s =>
  let w := s.reg 0x2530 0x07 * hour
  let e := s.now :: s.evidence.filter fun t => decide (s.now < t + w)
  all [.eff (.evidence e), setReg 0x2530 0x04 (min (2 ^ 32 - 1) e.length)]

/-- Sets a site's score and keeps its candidate mark true to it (R375, R376). -/
def setScore (site v : Nat) : Prog := all [
  setReg (0x3000 + site) 0xB0 v,
  .look fun s => whenP (decide (v < s.reg 0x2530 0x01)) (.eff (.candidates site false))]

/-- A fault of Table 14-1 is attributed to a site: the score rises by the weight, and a score that reaches the threshold
makes the site a fence candidate (R374 to R376). A site in bypass that takes a class 4 fault becomes link-dead
(R46). -/
def siteFault (site k weight : Nat) : Prog := .look fun s =>
  let before := s.reg (0x3000 + site) 0xB0
  let after := min 1000 (before + weight)
  let limit := s.reg 0x2530 0x01
  all [
    addEvidence,
    setReg (0x3000 + site) 0xB4 (classCause k),
    setScore site after,
    if s.isFenced site then whenP (k == 4) (wantFence ⟨site, 0x07, none⟩)
    else whenP (decide (before < limit ∧ limit ≤ after)) (all [
      .eff (.candidates site true),
      report 0x3801 6 0 site (classCause k),
      policyFence site k])]

/-! ## Fault reports that several engines share -/

/-- A correctable error of an operand store or register file of a site counts in `0x3000 + n:sub` (R95). -/
def siteCount32 (site sub d : Nat) : Prog := whenP (decide (0 < d)) (count32 (0x3000 + site) sub d)

/-- The same for a 64-bit site counter. -/
def siteCount64 (site sub d : Nat) : Prog := whenP (decide (0 < d)) (count64 (0x3000 + site) sub d)

end Sys2Proof.Machine
end

