-- ==== Sys2Proof/Machine/SliceRecords.lean ====
section
/-! DEFINITION. The result log of self-test and the end of a slice that another event stops (R414, R415). -/

namespace Sys2Proof.Machine

open Sys2Proof

/-- A report as its record shows it: a slice that did not fail has no block and no place, and only a logic slice a signature
(Table 15-6). -/
def shownReport (r : SliceReport) (outcome : Nat) : SliceReport :=
  if outcome = 1 then { r with signature := if r.kind = 1 then r.signature else 0, bitNo := if r.kind = 1 then 0 else r.bitNo }
  else { r with block := 0, chain := 0, position := 0, bitNo := 0, signature := 0 }

/-- The four words of a result record (Table 15-6). -/
def resultWords (time temp : Nat) (r : SliceReport) (outcome margin : Nat) : List Nat := [
  time,
  place r.site.val 52 + place (r.kind % 16) 48 + place outcome 44 + place (r.block % 256) 36
    + place (r.pattern % 65536) 20 + place (margin % 256) 12 + place (temp % 256) 4,
  place (r.chain % 65536) 48 + place (r.position % 2 ^ 24) 24 + place (r.bitNo % 256) 16,
  r.signature % 2 ^ 64]

/-- The hottest reference sensor of an island in °C, held to the 8 bits of a record. -/
def State.hottest (s : State) (i : Nat) : Nat :=
  let v := s.reg (0x4000 + i) 0x0D
  if 32768 ≤ v then 0 else min 255 v

/-- Appends a result record for a slice that ended at a time, newest first in the list that State holds, and copies the
outcome (R415). -/
def appendResultAt (time : Nat) (r : SliceReport) (outcome margin : Nat) : Prog := .look fun s => all [
  .eff (.resultLog (resultWords time r.temperature (shownReport r outcome) outcome margin :: s.resultLog)),
  count32 0x2610 0x02 1,
  setReg (0x3000 + r.site.val) 0xC0 outcome,
  setReg (0x3000 + r.site.val) 0xC1 time]

/-- Appends the result record of a slice that ends now. -/
def appendResult (r : SliceReport) (outcome margin : Nat) : Prog := .look fun s => appendResultAt s.now r outcome margin

/-- The kind code of a slice in a result record (Table 15-6). -/
def sliceKindCode (k : SliceKind) : Nat := match k with | .logic => 1 | .memory => 2

/-- A slice runs on a site. -/
def State.slicing (s : State) (site : Nat) : Bool := s.slices.any fun r => decide (r.site = site)

/-- A word that the restore could not correct comes back poisoned: an accumulator or a store word, a slot tag, a register
lane (R408). A memory slice of an S-tile leaves out the banks of its save area (R406). -/
def poisonRestored (n : Nat) (k : SliceKind) (w : Nat) : Prog := .look fun s => all [
  withP (s.tileOf n) fun l => match tileType l, k with
    | 0, .logic => whenP (decide (w < 16384)) (withState fun t =>
        .acc (n * 16384 + w) { t.accAt (n * 16384 + w) with poison := true })
    | 0, .memory =>
      if w < 65536 then .eff (.poisonWords (storeAddr (mIndex l) 0 / 8 + w) true)
      else whenP (decide (w < 65536 + 16384)) (withState fun t =>
        .acc (n * 16384 + (w - 65536)) { t.accAt (n * 16384 + (w - 65536)) with poison := true })
    | 1, .memory => whenP (decide (w < 65536) && !s.slotSaved (sIndex l) w) (.eff (.tags (sIndex l * 65536 + w) 2))
    | 2, .memory => whenP (decide (w < 16384)) (withState fun t =>
        .vreg (n * 16384 + w) { t.vregAt (n * 16384 + w) with poison := true })
    | _, _ => .skip,
  report 0x900A 0 n n 0]

/-- The words of a site that a restore could not correct, as an operand's codes name them. -/
def badWordsOf (ecc : SiteEcc) (n : Nat) : List Nat := match ecc.find? fun e => decide (e.1.val = n) with
  | some e => e.2.bad
  | none => []

/-- The running slices of the listed sites stop and restore what they had saved (R404, R408, Table 15-5). -/
def restoreSlices (sites : List Nat) (ecc : SiteEcc) : Prog := .look fun s =>
  eachP (s.slices.filter fun r => sites.contains r.site) fun r => eachP (badWordsOf ecc r.site) (poisonRestored r.site r.kind)

/-- Stops the running slices of the listed sites with outcome aborted and a cause of event 0x9006 (R414). -/
def abortSlices (sites : List Nat) (cause : Nat) : Prog := .look fun s =>
  let hit := s.slices.filter fun r => sites.contains r.site
  all [
    .eff (.slices (s.slices.filter fun r => !sites.contains r.site)),
    eachP hit fun r =>
      if h : r.site < 3264 then
        .look fun t => all [
          appendResult { site := ⟨r.site, h⟩, kind := sliceKindCode r.kind, temperature := t.hottest (siteIsland r.site) } 3 0,
          report 0x9006 0 r.site r.site cause]
      else .skip]

end Sys2Proof.Machine
end

