-- ==== Sys2Proof/Machine/Remap.lean ====
section
/-! DEFINITION. Stopping sections, powering sites down, and changing a remap entry (R35 to R50, R381, R392, R393): the
pieces that fences, dark groups, resets and bring-up share. Plans, memory, tags, rings and flag cells are held by
logical number, so the migration of R393 moves nothing there; what it discards or loses is removed. -/

namespace Sys2Proof.Machine

open Sys2Proof

/-! ## Tiles -/

/-- A site's dispute is dropped: the beats that its step was held count, a number that no command brings (R101; DESIGN CHOICE,
notes/assumptions/125.md). -/
def dropDispute (n : Nat) : Prog := .look fun s => whenP (s.mtile n).dispute.isSome
  (.seq (.eff .draw) (count64 (0x3000 + n) 0x36 (Config.freeNat s.free)))

/-- The datapath state of a site is lost: engines, accumulators, registers and Bond. Its link stages have a supply of their own,
so a stopped direction stays stopped (R192, R347). -/
def wipeSite (n : Nat) : Prog := all [
  dropDispute n,
  .eff (.mtiles n {}), .eff (.ftiles n {}), modBond n fun b => { stopped := b.stopped }, .eff (.running n none),
  .eff (.dropAcc (n * 16384) (n * 16384 + 16384)), .eff (.dropVreg (n * 16384) (n * 16384 + 16384)),
  .eff (.idle n 0), .eff (.offerHold n false)]

/-- The address generators and the accesses they have in flight are discarded; ring-engine and packet accesses stay. -/
def SCore.stopped (x : SCore) : SCore :=
  { x with
    ags := [{}, {}, {}, {}]
    blocked := x.blocked.filter fun b => match b.who with | .ag _ => false | _ => true
    passages := x.passages.filter fun b => match b.who with | .ag _ => false | _ => true
    memIx := 0 }

/-- The section of a site stops: its running slot becomes loaded again, its Bond contents and what its engines had in
progress are discarded, and a dispute is abandoned, which event 0x7402 reports (R381, R392). A halted tile stays halted
(R106), and a stopped direction stopped (R192). -/
def stopTile (n : Nat) : Prog := .look fun s =>
  match s.runningAt n with
  | none => .skip
  | some r => all [
      .eff (.running n none),
      setReg (0x3000 + n) 0x71 0xFF,
      setSlotState n r.slot 2,
      modBond n fun b => { stopped := b.stopped },
      eachP [0, 1, 2, 3] fun d => eachP (s.bypassPath n d) fun b =>
        modBond b fun y => { y with stages := (y.stages.set d none).set (opposite d) none },
      dropDispute n,
      modM n fun m => { m with cur := none, drains := [], held := none, dispute := none, recIx := 0 },
      whenP (s.mtile n).dispute.isSome (report 0x7402 0 n n 3),
      modF n fun f => { f with recIx := 0, u2Halted := false },
      withP (s.tileOf n) fun l => whenP (tileType l == 1) (modS (sIndex l) SCore.stopped),
      withState fun t => .votesWaiting (t.votesWaiting.filter fun v => decide (v ≠ n)),
      withState fun t => .votes (t.votes.filter fun v => decide (v.site ≠ n))]

/-- The contexts with a section running on a site of a list, a switch under way counted (R223, R392), ascending. -/
def State.sectionCtxs (s : State) (sites : List Nat) : List Nat :=
  (List.range 64).filter fun c =>
    (s.running.any fun e => sites.contains e.1 && match e.2 with
      | some r => decide (r.ctx = c)
      | none => false)
    || match (s.ctx c).switch with
      | some w => w.released && w.union.any fun l => match s.siteOf l with
        | some n => sites.contains n
        | none => false
      | none => false

/-- Stops every section of a context on all its tiles (R392). -/
def stopSections (c : Nat) : Prog := .look fun s =>
  .seq (eachP (s.sectionSites c) stopTile) (modCtx c fun x => { x with switch := none })

/-! ## Watch sites -/

/-- The lowest-numbered serving site of a region mask, 0xFFFF when there is none (R448). -/
def State.watchSite (s : State) (mask : Nat) : Nat :=
  ((List.range 3264).find? fun n => mask.testBit (siteRegion n) && (s.tileOf n).isSome).getD 0xFFFF

/-- The watch sites of the contexts that hold a region. -/
def refreshWatch (mask : Nat) : Prog := .look fun s =>
  eachP (s.ctxsIn mask) fun c => setReg (0x2700 + c) 0x37 (s.watchSite (s.partMask c))

/-! ## Slots -/

/-- A slot-states word with every slot that holds something marked invalid (R43). -/
def invalidSlots (w : Nat) : Nat :=
  (List.range 4).foldl (fun a k => a + (if w / 16 ^ k % 16 = 0 then 0 else 5) * 16 ^ k) 0

/-- Discards the state of a logical tile that no site serves any more (R37, R393). -/
def discardTile (l : Nat) : Prog := all [
  if tileType l = 1 then all [
    .eff (.dropMem (scratchAddr (sIndex l) 0) (scratchAddr (sIndex l) 0x400000)),
    .eff (.dropTags (sIndex l * 65536) (sIndex l * 65536 + 65536)),
    eachP (List.range 16) fun k => modRing (sIndex l * 16 + k) Ring.off,
    .eff (.stiles (sIndex l) {})]
  else if tileType l = 0 then all [
    .eff (.dropMem (storeAddr (mIndex l) 0) (storeAddr (mIndex l) 0x80000)),
    .eff (.dropPoisonWords (storeAddr (mIndex l) 0 / 8) (storeAddr (mIndex l) 0x80000 / 8))]
  else .skip,
  .eff (.dropCells (l * 32) (l * 32 + 32)),
  .eff (.waiters l []),
  .eff (.dropPlans (l * 4) (l * 4 + 4))]

/-- The state of a logical tile whose site was dark arrives as poisoned slots, poisoned operand words and zero cells
(R354, R393). -/
def loseTile (l : Nat) : Prog := all [
  if tileType l = 1 then all [
    .eff (.dropMem (scratchAddr (sIndex l) 0) (scratchAddr (sIndex l) 0x400000)),
    .eff (.fillTags (sIndex l * 65536) (sIndex l * 65536 + 65536) 2)]
  else if tileType l = 0 then all [
    .eff (.dropMem (storeAddr (mIndex l) 0) (storeAddr (mIndex l) 0x80000)),
    .eff (.fillPoisonWords (storeAddr (mIndex l) 0 / 8) (storeAddr (mIndex l) 0x80000 / 8))]
  else .skip,
  .look fun s => eachP ((s.cells.filter fun e => decide (e.1 / 32 = l)).map fun e => e.1) fun k =>
    modCell k fun c => { c with value := false }]

/-! ## A change of one remap entry (R35, R36, R40, R41, R43) -/

/-- The served count, the degraded mask and the generation of a region follow its course entries (Table 02-2). -/
def refreshRegion (r : Nat) : Prog := .look fun s =>
  let ks := (List.range 24).map fun k => popCount 17 (s.fenceMask r k)
  all [
    setReg (0x2410 + r) 0x19 ((ks.map fun k => 16 - (k - 1)).sum),
    setReg (0x2410 + r) 0x1A (((List.range 24).map fun k => if 2 ≤ ks.getD k 0 then 2 ^ k else 0).sum)]

/-- Adds one to a region's remap generation. (DEDUCED: notes/assumptions/19.md.) -/
def bumpGeneration (r : Nat) : Prog := .look fun s =>
  setReg (0x2410 + r) 0x1B ((s.reg (0x2410 + r) 0x1B + 1) % 2 ^ 32)

/-- The plan slots of a region become invalid; they follow their logical tiles from the placement in `old` (R43). -/
def invalidateRegion (old : State) (r : Nat) : Prog := .look fun s =>
  let word := fun (n : Nat) => match s.tileOf n with
    | some l => match old.siteOf l with
      | some o => invalidSlots (old.reg (0x3000 + o) 0x70)
      | none => 0
    | none => 0
  eachP ((List.range 3264).filter fun n => decide (siteRegion n = r)) fun n => setReg (0x3000 + n) 0x70 (word n)

/-- The votes of a referee that is taken into use or fenced start again on the next one (R381). -/
def restartVotes (referee : Nat) : Prog := .look fun s =>
  let hit := (s.votes.filter fun v => decide (v.referee = referee)).map fun v => v.site
  all [
    .eff (.votes (s.votes.filter fun v => decide (v.referee ≠ referee))),
    .eff (.votesWaiting (hit ++ s.votesWaiting))]

/-- What follows when a region's referee was `before` (R40). -/
def refereeMoved (r : Nat) (before : Option Nat) (tell : Bool) : Prog := .look fun s =>
  match before, s.referee r with
  | some a, some b => whenP (decide (a ≠ b)) (all [restartVotes a, whenP tell (report 0x300A 6 0 r b)])
  | some a, none => all [restartVotes a, whenP tell (report 0x300B 6 0 r 0)]
  | none, _ => .skip

/-- Changes the fenced mask of a site's course to `mask`, its placement state to `st` (0 for none), and does what
follows: generation, invalid slots, state of absent tiles, a degraded course, the referee (R36, R40, R43, R393). `lost`
says that the site's own state is lost. (DEDUCED: notes/assumptions/18.md.) -/
def changeCourse (site mask st : Nat) (lost : Bool) : Prog := .look fun old =>
  let r := siteRegion site
  let k := courseOf (siteRow site)
  let tiles := (List.range 16).map fun c => siteRow site * 64 + sitePier site / 17 * 16 + c
  all [
    whenP lost (withP (old.tileOf site) loseTile),
    setReg (0x2410 + r) (k + 1) (courseEntry mask),
    .eff (.fencedAs site st),
    refreshRegion r,
    bumpGeneration r,
    .look fun s => eachP (tiles.filter fun l => (old.siteOf l).isSome && (s.siteOf l).isNone) discardTile,
    invalidateRegion old r,
    whenP (decide (2 ≤ popCount 17 mask) && decide (popCount 17 (old.fenceMask r k) < popCount 17 mask))
      (report 0x3003 6 0 r (siteRow site)),
    refereeMoved r (old.referee r) true,
    refreshWatch (2 ^ r)]

/-- Fences a site in its remap entry and powers it down (Table 14-3): 4 in bypass, 5 link-dead. -/
def fenceNow (site st : Nat) (lost : Bool) : Prog := .look fun s =>
  let m := s.fenceMask (siteRegion site) (courseOf (siteRow site))
  all [
    changeCourse site (setBit m (sitePierLocal site)) st lost,
    wipeSite site,
    .eff (.candidates site false)]

/-! ## The health record (R49) -/

/-- Writes a site's fence to the health record, or reports that the record is full; the entry's time is that of the writing
(DESIGN CHOICE, notes/assumptions/115.md). -/
def writeHealth (site cause : Nat) : Prog := .look fun s =>
  if s.health.any fun h => decide (h.site = site) then
    .eff (.health (s.health.map fun h => if h.site = site then { h with cause := cause } else h))
  else if s.health.length < 256 then .eff (.health (s.health ++ [⟨site, cause, s.now⟩]))
  else .seq (withState fun t => .unpersisted ((t.unpersisted.filter fun h => decide (h.site ≠ site)) ++ [⟨site, cause, s.now⟩]))
    (report 0x3008 6 0 site 0)

end Sys2Proof.Machine
end

