-- ==== Sys2Proof/Machine/Routing.lean ====
section
/-! DEFINITION. The routers of Mortar: the keys of their buffers, route tables and XY routes with detours, and the claims that
SYNC packets send ahead (R226, R227, R232, R235 to R238, R241). A router is a node by its endpoint number: a site's has ports 0
local and 1 to 4 N, E, S, W; an X-tile's has port 0 local and port 1 toward its site. -/

namespace Sys2Proof.Machine

open Sys2Proof

/-! ## Buffers -/

/-- The key of a buffer of a router: input port 0 to 4, 5 the ejection queue, 8 to 12 the escape buffers of ports 0 to 4. -/
def netKey (plane node port cls : Nat) : Nat := ((plane * 4096 + node) * 16 + port) * 4 + cls

/-- The key of an output of a router: 0 its endpoint, 1 + d direction d. -/
def outKey (plane node out : Nat) : Nat := netKey plane node out 0

/-- The flits of a packet (R230). -/
def flits (p : Packet) : Nat := if p.len ≤ 112 then 1 else 1 + ceilDiv p.len 128

/-- The flits in a buffer. -/
def State.bufferFlits (s : State) (k : Nat) : Nat := ((s.netAt k).map flits).sum

/-- A buffer of `size` flits has room for a whole packet (R232, R238). -/
def State.room (s : State) (k size : Nat) (p : Packet) : Bool := decide (s.bufferFlits k + flits p ≤ size)

/-! ## Links -/

/-- The X-tile behind a port of an edge site (Tables 09-1, 09-2). -/
def xBehind (n d : Nat) : Option Nat :=
  ((List.range 132).map fun i => 0xD00 + i).find? fun e => endpointSite e == n && endpointPort e == some d

/-- The router beyond direction `d` of a router. An X-tile's one link is its direction 0. -/
def routerBeyond (n d : Nat) : Option Nat :=
  if n < 3264 then match neighbour n d with
    | some m => some m
    | none => xBehind n d
  else some (endpointSite n)

/-- The input port, of the router beyond direction `d` of router `n`, that this link enters. -/
def portBeyond (n d : Nat) : Nat :=
  if n < 3264 then match neighbour n d with
    | some _ => 1 + opposite d
    | none => 1
  else 1 + (endpointPort n).getD 0

/-- The link direction has failed (object 0x3000 + n:8A for a site). -/
def State.linkFailed (s : State) (plane n d : Nat) : Bool :=
  if n < 3264 then (s.reg (0x3000 + n) 0x8A).testBit (4 * plane + d) else (s.link (linkKey plane n d)).failed

/-! ## Routes (R235, R238) -/

/-- A site is link-dead in the route tables. -/
def State.deadSite (s : State) (n : Nat) : Bool := s.routeStateOf n == 2

/-- The XY direction from a site toward another; none when they are the same (R235). -/
def xyDir (n m : Nat) : Option Nat :=
  if n % 68 < m % 68 then some 1 else if m % 68 < n % 68 then some 3
  else if n / 68 < m / 68 then some 2 else if m / 68 < n / 68 then some 0 else none

/-- The neighbour in a direction is link-dead, or there is none. -/
def State.deadAhead (s : State) (n d : Nat) : Bool :=
  match neighbour n d with
  | some m => s.deadSite m
  | none => true

/-- The vertical direction from a site toward another. -/
def vertical (n m : Nat) : Nat := if n / 68 < m / 68 then 2 else 0

/-- The detour around a link-dead site ahead of direction `d` at site `n`, for a packet that came in by port `port` and has
left its route or not (R238): a course is passed on the course north of it, a pier on the pier east of it. -/
def detourDir (n m d port : Nat) (detoured : Bool) : Nat :=
  if d % 2 = 1 then
    if detoured && (port == 1 || port == 3) then (if port = 1 then 2 else 0)
    else if n / 68 = 0 then 2 else 0
  else if n % 68 = 67 then 3
  else if detoured && port == 0 then vertical n m else 1

/-- The neighbours of a site that are not link-dead, by direction. -/
def State.liveBeyond (s : State) (n : Nat) : List (Nat × Nat) :=
  [0, 1, 2, 3].filterMap fun d => match neighbour n d with
    | some m => if s.deadSite m then none else some (d, m)
    | none => none

/-- The hops from a set of sites to site `n` over sites that are not link-dead: a search by levels, `seen` being the sites of the
levels before. None when there is no such route. -/
def State.liveHops (s : State) (n fuel : Nat) (seen front : List Nat) : Option Nat :=
  match fuel with
  | 0 => none
  | k + 1 =>
    if front.contains n then some 0
    else if front.isEmpty then none
    else
      let next := ((front.flatMap fun m => (s.liveBeyond m).map fun x => x.2).eraseDups.filter fun m => !seen.contains m)
      (s.liveHops n k (seen ++ next) next).map fun h => h + 1

/-- The direction of the shortest route from site `n` to site `m` that crosses no link-dead site, the first of N, E, S, W among
equals (R39). (DESIGN CHOICE: notes/assumptions/133.md.) -/
def State.liveOut (s : State) (n m : Nat) : Option Nat :=
  let ds := (s.liveBeyond n).filterMap fun x => (s.liveHops x.2 3264 [m] [m]).map fun h => (h, x.1)
  (ds.find? fun a => ds.all fun b => decide (a.1 ≤ b.1)).map fun a => a.2

/-- A direction off the XY route: the detour `d`, or the shortest live route where the detour enters a link-dead site too
(R38, R39). -/
def State.liveDetour (s : State) (n m d : Nat) : Nat := if s.deadAhead n d then (s.liveOut n m).getD d else d

/-- The output direction of an XY packet at a site, and whether it leaves its XY route there (R235, R238). -/
def State.xyOut (s : State) (n m port : Nat) (detoured : Bool) : Option (Nat × Bool) :=
  match xyDir n m with
  | none => none
  | some d =>
    if s.deadAhead n d then some (s.liveDetour n m (detourDir n m d port detoured), true)
    else if detoured && port == d + 1 then some (s.liveDetour n m (vertical n m), true)
    else some (d, false)

/-! ## Claims (R241) -/

/-- The outputs that a SYNC packet passes from site `n`, which it enters by port `port`, to endpoint `e`. -/
def State.claimPath (s : State) (plane n e port : Nat) (detoured : Bool) (fuel : Nat) : List Nat :=
  match fuel with
  | 0 => []
  | k + 1 => match s.xyOut n (endpointSite e) port detoured with
    | none => (endpointPort e).toList.map fun d => outKey plane n (1 + d)
    | some x => outKey plane n (1 + x.1) :: (match neighbour n x.1 with
      | some n' => s.claimPath plane n' e (1 + opposite x.1) (detoured || x.2) k
      | none => [])

/-- The outputs that a packet at an input of a router has still to pass: to its destination, or to its far end. -/
def State.pathOf (s : State) (plane node port : Nat) (p : Packet) : List Nat :=
  let e := if p.dst = 0xFFF then p.farEnd else p.dst
  if node < 3264 then s.claimPath plane node e port p.detoured 256
  else if p.dst = node then []
  else outKey plane node 1 :: s.claimPath plane (endpointSite node) e (portBeyond node 0) p.detoured 256

/-- A SYNC packet that enters a router by a port claims the outputs of its route (R241). -/
def claimRoute (plane node port : Nat) (p : Packet) : Prog := .look fun s =>
  whenP (p.cls == 0) (eachP (s.pathOf plane node port p) fun k => withState fun t => .claims k (t.claimAt k + 1))

/-- A SYNC packet that ends at a router frees the outputs of its route that it has not passed. -/
def unclaimRoute (plane node port : Nat) (p : Packet) : Prog := .look fun s =>
  whenP (p.cls == 0) (eachP (s.pathOf plane node port p) fun k => withState fun t => .claims k (t.claimAt k - 1))

/-- The claims of a packet that is taken out of the buffer with key `k` (R241). -/
def unclaimAt (k : Nat) (p : Packet) : Prog :=
  let port := k / 4 % 16 % 8
  whenP (decide (k / 4 % 16 ≠ 5)) (unclaimRoute (k / 64 / 4096) (k / 64 % 4096) port p)

/-- The packets of a context that are still in the network or wait for injection are discarded (R447). -/
def discardPackets (c : Nat) : Prog := .look fun s => all [
  eachP (s.net.map fun e => e.1) fun k => .look fun t => all [
    eachP ((t.netAt k).filter fun p => !p.management && decide (p.ctx = c)) (unclaimAt k),
    .eff (.net k ((t.netAt k).filter fun p => p.management || decide (p.ctx ≠ c)))],
  withState fun t => .issue (t.issue.filter fun r => r.packet.management || decide (r.packet.ctx ≠ c)),
  withState fun t => .delivered (t.delivered.filter fun r => r.management || decide (r.ctx ≠ c))]

end Sys2Proof.Machine
end

