-- ==== Sys2Proof/Machine/SyncBase.lean ====
section
/-! DEFINITION. The layouts of flag-map entries, handles and ring descriptors, and freeing what a context or a tile holds
(R254, R267, R276, R385, R444, R447). -/

namespace Sys2Proof.Machine

open Sys2Proof

/-! ## Flag map entries and handles (Table 10-6, R276) -/

/-- The entry is valid. -/
def fmValid (w : Nat) : Bool := bit w 63
/-- The logical tile of an entry. -/
def fmTile (w : Nat) : Nat := bits w 59 48
/-- The cell of an entry. -/
def fmCell (w : Nat) : Nat := bits w 44 40
/-- The generation of an entry. -/
def fmGen (w : Nat) : Nat := bits w 3 0
/-- A reserved bit of an entry is set. -/
def fmReserved (w : Nat) : Bool := decide (bits w 62 60 ≠ 0 ∨ bits w 47 45 ≠ 0 ∨ bits w 39 4 ≠ 0)
/-- The key of an entry's cell in the table of cells. -/
def fmKey (w : Nat) : Nat := fmTile w * 32 + fmCell w
/-- The generation of a handle. -/
def handleGen (h : Nat) : Nat := bits h 15 12
/-- The index of a handle. -/
def handleIndex (h : Nat) : Nat := bits h 11 0

/-! ## Ring descriptors (Table 10-4) -/

/-- The ring is in use. -/
def rdEnabled (w : Nat) : Bool := bit w 63
/-- The kind: 0 posted, 1 channel send, 2 channel receive, 3 signal. -/
def rdKind (w : Nat) : Nat := bits w 62 61
/-- The owning context. -/
def rdCtx (w : Nat) : Nat := bits w 60 55
/-- The size exponent k. -/
def rdExp (w : Nat) : Nat := bits w 54 50
/-- The base word address. -/
def rdBase (w : Nat) : Nat := bits w 49 31
/-- The partner ring. -/
def rdPartner (w : Nat) : Nat := bits w 30 17
/-- The status slot. -/
def rdStatus (w : Nat) : Nat := bits w 16 1
/-- The ring's size in bytes. -/
def rdSize (w : Nat) : Nat := 8 * 2 ^ rdExp w
/-- The ring's first slot in its S-tile. -/
def rdSlot (w : Nat) : Nat := rdBase w / 8
/-- The ring's number of slots. -/
def rdSlots (w : Nat) : Nat := 2 ^ rdExp w / 8
/-- The S-tile of a ring. -/
def ringTile (r : Nat) : Nat := r / 16

/-- The rings of the device that are enabled, with their records, in ascending number. -/
def State.ringsOn (s : State) : List (Nat × Ring) := s.rings.filter fun e => rdEnabled e.2.desc

/-- The enabled rings of a context. -/
def State.ctxRings (s : State) (c : Nat) : List Nat :=
  (s.ringsOn.filter fun e => decide (rdCtx e.2.desc = c)).map fun e => e.1

/-- Empties every slot of a ring. -/
def emptyRingSlots (r desc : Nat) : Prog :=
  let lo := ringTile r * 65536 + rdSlot desc
  .eff (.dropTags lo (lo + rdSlots desc))

/-- An access is the ring engine's for context `c`. -/
def ringWorkOf (c : Nat) (q : Requester) : Bool :=
  match q with
  | .ringEngine a => a.ctx.val == c
  | _ => false

/-- What the ring engine of an S-tile had under way in ring `r` of descriptor `d` is dropped: the message that it writes or takes
there, and the gate write of a signal ring's WAIT. -/
def SCore.dropRing (x : SCore) (r d : Nat) : SCore :=
  let mine := match x.message with
    | some m => decide (m.ring = r)
    | none => false
  let here := fun (k : Nat) => decide (rdSlot d ≤ k ∧ k < rdSlot d + rdSlots d)
  { x with
    message := if mine then none else x.message
    blocked := x.blocked.filter fun b => !(b.msg && mine) && !(rdKind d == 3 && ringWorkOf (rdCtx d) b.who)
    passages := x.passages.filter fun b => !(b.msg && (mine || (b.kind == .consume && here b.slot)))
    gates := x.gates.filter fun g => decide (g.ring ≠ r) }

/-- What the ring engine has under way in a ring is dropped. -/
def dropRingWork (r : Nat) : Prog := .look fun s =>
  modS (ringTile r) fun x => x.dropRing r (s.ring r).desc

/-- Disables a ring: its slots become empty and its state, but for its counters, is lost. -/
def disableRing (r : Nat) : Prog := .look fun s => all [
  whenP (rdEnabled (s.ring r).desc) (.seq (emptyRingSlots r (s.ring r).desc) (dropRingWork r)),
  modRing r Ring.off]

/-! ## Cells -/

/-- The state of a cell after an unbinding rebind from an endpoint of a context (R283). -/
def unboundCell (ep c : Nat) : Cell := { lastEp := ep, lastCtx := c }

/-- Removes the waiters of a context everywhere. -/
def dropWaiters (c : Nat) : Prog := .look fun s =>
  eachP (s.waiters.map fun e => e.1) fun k =>
    withState fun t => .waiters k ((t.waitersAt k).filter fun w => decide (w.ctx ≠ c))

/-! ## Plan slots -/

/-- Empties one slot of a logical tile. -/
def emptySlotOf (l k : Nat) : Prog := .look fun s => all [
  .eff (.plans (l * 4 + k) none),
  withP (s.siteOf l) fun n => setSlotState n k 0]

/-- Empties every plan slot of a context (R254, R447). -/
def emptySlots (c : Nat) : Prog := .look fun s =>
  eachP ((s.plans.filter fun e => match e.2 with
      | some p => decide (p.ctx = c)
      | none => false).map fun e => e.1) fun k => emptySlotOf (k / 4) (k % 4)

/-! ## Accesses of a context -/

/-- An access is for a descriptor of a context. -/
def ofContext (c : Nat) (o : Origin) : Bool :=
  match o with
  | .descriptor c' _ => c' == c
  | _ => false

/-- The code with which a path's write of a context's map ends: 0, or the abort code of a domain write that stopped at an entry, which
stands among the waits as index 4,096 and more (R276, R283). -/
def State.waitCode (s : State) (p : Path) (c : Nat) : Nat :=
  ((s.entryWaits.find? fun w => decide (w.1 = p ∧ w.2.1 = c ∧ 4096 ≤ w.2.2.1)).map fun w => w.2.2.1 - 4096).getD 0

/-- A write of a map's entries answers its path once none of its rebinds is left (R283). -/
def answerMapped (p : Path) (c : Nat) : Prog := .look fun s =>
  whenP (!s.entryWaits.any fun w => decide (w.1 = p ∧ w.2.1 = c ∧ w.2.2.1 < 4096)) (all [
    withState fun t => .entryWaits (t.entryWaits.filter fun w => decide ¬(w.1 = p ∧ w.2.1 = c)),
    answer p (s.waitCode p c) 0])

/-- The writes of map entries of a context end whose rebinds are discarded: their paths are answered (R283). -/
def endEntryWaits (c : Nat) : Prog := .look fun s => all [
  withState fun t => .entryWaits (t.entryWaits.filter fun w => decide (w.2.1 ≠ c)),
  eachP ((s.entryWaits.filter fun w => decide (w.2.1 = c)).map fun w => w.1).eraseDups fun p => answer p (s.waitCode p c) 0]

/-! ## Tile reset (Table 17-2) -/

/-- The contexts with state on a logical tile: a plan slot, a bound cell, or a ring. -/
def State.ctxsOn (s : State) (l : Nat) : List Nat :=
  (List.range 64).filter fun c =>
    (List.range 4).any (fun k => match s.planAt (l * 4 + k) with
      | some p => decide (p.ctx = c)
      | none => false)
    || (List.range 32).any (fun k => (s.cellAt (l * 32 + k)).bound && decide ((s.cellAt (l * 32 + k)).ctx = c))
    || (decide (tileType l = 1) && (List.range 16).any fun k =>
        let d := (s.ring (sIndex l * 16 + k)).desc
        rdEnabled d && decide (rdCtx d = c))

/-- A failed Mortar link direction works again once the sites at both its ends have been reset (R248): `mine` marks the
sender's end. A link to or from an X-tile has one site at its ends. -/
def linkEndReset (plane n d : Nat) (mine : Bool) : Prog := .look fun s =>
  whenP (s.linkFailed plane n d) (
    let l := s.link (linkKey plane n d)
    let l' := if mine then { l with fails := 1 } else { l with second := 1 }
    if n < 3264 ∧ (neighbour n d).isSome ∧ ¬(l'.fails = 1 ∧ l'.second = 1) then .eff (.links (linkKey plane n d) l')
    else .seq (.eff (.links (linkKey plane n d) {}))
      (whenP (decide (n < 3264)) (setReg (0x3000 + n) 0x8A (clearBit (s.reg (0x3000 + n) 0x8A) (4 * plane + d)))))

/-- The Mortar link ends of a site that is reset. -/
def linkEndsReset (n : Nat) : Prog := eachP [0, 1] fun plane => eachP [0, 1, 2, 3] fun d => all [
  linkEndReset plane n d true,
  withP (routerBeyond n d) fun m => linkEndReset plane m (if m < 3264 then opposite d else 0) false]

/-- The tile reset of a site: `source` is argument 2 of event 0xC005 and `cause` the death cause of its contexts. -/
def resetTile (n source cause : Nat) : Prog := .look fun s => all [
  withP (s.tileOf n) fun l => eachP (s.ctxsOn l) fun c => killContext c cause,
  abortSlices [n] 1,
  linkEndsReset n,
  wipeSite n,
  .eff (.bond n {}),
  setReg (0x3000 + n) 0x70 0,
  setReg (0x3000 + n) 0x71 0xFF,
  setReg (0x3000 + n) 0x50 0,
  withP (s.tileOf n) fun l => all [
    .eff (.dropPlans (l * 4) (l * 4 + 4)),
    .eff (.dropCells (l * 32) (l * 32 + 32)),
    .eff (.waiters l []),
    if tileType l = 1 then all [
      eachP (List.range 16) fun k => disableRing (sIndex l * 16 + k),
      modS (sIndex l) fun x => { patrol := x.patrol }]
    else if tileType l = 0 then all [
      .eff (.dropMem (storeAddr (mIndex l) 0) (storeAddr (mIndex l) 0x80000)),
      .eff (.dropPoisonWords (storeAddr (mIndex l) 0 / 8) (storeAddr (mIndex l) 0x80000 / 8))]
    else .skip],
  withState fun t => .votesWaiting (t.votesWaiting.filter fun v => decide (v ≠ n)),
  withState fun t => .votes (t.votes.filter fun v => decide (v.site ≠ n)),
  report 0xC005 0 n n source]

/-! ## Partition reset (R385, R454) -/

/-- The region mask of the partition that holds a region, 0 when none does (R51). -/
def State.partitionOf (s : State) (r : Nat) : Nat :=
  (((List.range 8).map fun k => s.reg 0x2430 (k + 1)).find? fun m => m.testBit r).getD 0

/-- How State holds a partition reset: the region mask, the structure of event 0x3808, and whether it waits for a fence
(R443). -/
def partResetKey (mask structure_ : Nat) (waits : Bool) : Nat := mask + 256 * structure_ + (if waits then 2048 else 0)

/-- The dumps that are being captured end incomplete (R451). -/
def endCaptures : Prog := withState fun s => .dumps (s.dumps.map fun d =>
  if d.state = 1 then { d with state := 3, since := s.now, watchdog := false } else d)

/-- Runs a partition reset: contexts die, tiles are reset, their slots and flag maps become empty. -/
def runPartReset (mask structure_ : Nat) : Prog := .look fun s =>
  let cs := s.ctxsIn mask
  all [
    endCaptures,
    report 0x3808 6 0 (withRegions structure_ mask) (ctxMask (cs.filter s.ctxRuns)),
    eachP cs fun c => all [killContext c 0x3808, .eff (.dropFmap (c * 4096) (c * 4096 + 4096)),
      endEntryWaits c],
    eachP ((List.range 3264).filter fun n => mask.testBit (siteRegion n) && !s.isFenced n) fun n =>
      resetTile n 1 0x3808,
    setReg 0x2F10 0x04 3, setReg 0x2F10 0x05 4, count32 0x2F10 0x06 1,
    withState fun t => .partResets (t.partResets ++ [partResetKey mask structure_ false])]

/-- The Mortar traffic of an orphaned X-tile goes to its substitute (R295). -/
def reroute : Prog := .look fun s =>
  eachP ((s.xtiles.filter fun e => e.2.orphan).map fun e => e.1) fun x => modX x fun y => { y with rerouted := true }

/-- The route tables are rewritten: a new generation (R239, R295). -/
def routesWritten : Prog := .seq
  (.look fun s => setReg 0x2A10 0x01 ((s.reg 0x2A10 0x01 + 1) % 2 ^ 32)) reroute

/-- A structure of a region that lies in no partition is rebuilt alone (R385): a route table is computed again; a remap or a flag
map copy is rewritten from its master, and PLAN_SLOT_ERROR empties the slot. -/
def rebuildAlone (structure_ : Nat) : Prog := .seq
  (report 0x3808 6 0 (withRegions structure_ 0) 0) (whenP (structure_ == 2) routesWritten)

/-- An uncorrectable error in a privileged structure of a region (R385): at once, after the fence that runs (R443), or
rejected while a wider reset runs (R441). -/
def partitionReset (r structure_ : Nat) : Prog := .look fun s =>
  let mask := s.partitionOf r
  if s.reset_.isSome || s.resetWaiting.isSome || !s.partResets.isEmpty then report 0xC00B 6 0 3 0
  else if mask = 0 then rebuildAlone structure_
  else if s.fence.isSome then
    withState fun t => .partResets (t.partResets ++ [partResetKey mask structure_ true])
  else runPartReset mask structure_

end Sys2Proof.Machine
end

