-- ==== Sys2Proof/Machine/BondPorts.lean ====
section
/-! DEFINITION. The ports of an engine to Bond (R193): what waits in its inputs, and the places of its outputs; and what the end
of a Mortar packet leaves (R265, R285). -/

namespace Sys2Proof.Machine

open Sys2Proof

/-- The transfers that wait in engine input `k` of a site. -/
def State.engineIn (s : State) (n k : Nat) : List Transfer := (s.bondOf n).engineIn.getD k []

/-- The place of engine output `k` of a site is free. -/
def State.outFree (s : State) (n k : Nat) : Bool := ((s.bondOf n).engineOut.getD k []).isEmpty

/-- Puts transfers into engine output `k`, to leave in order. -/
def pushOut (n k : Nat) (ts : List Transfer) : Prog :=
  modBond n fun b => { b with engineOut := b.engineOut.set k (b.engineOut.getD k [] ++ ts) }

/-- Takes the first `m` transfers of engine input `k`. -/
def takeIn (n k m : Nat) : Prog :=
  modBond n fun b => { b with engineIn := b.engineIn.set k ((b.engineIn.getD k []).drop m) }

/-- Transfers that carry a byte string, 64 bytes each, the last padded with zeros. -/
def dataTransfers (poison : Bool) (bs : List Byte) : List Transfer :=
  (List.range (ceilDiv bs.length 64)).map fun i =>
    { data := ofBytes ((bs.drop (64 * i)).take 64), poison := poison }

/-- The 64 data bytes of a transfer. -/
def Transfer.bytes (t : Transfer) : List Byte := toBytes 64 t.data

/-- The token lane of a transfer as the 16 bits of Table 08-1. -/
def Transfer.lane (t : Transfer) : Nat :=
  place (t.chan % 64) 10 + (if t.poison then 512 else 0) + (if t.control then 256 else 0) + (if t.isMeta then 128 else 0)
    + (if t.control then t.value % 16 else 0)

/-- The transfer that data bytes and a token lane spell (Table 08-1): a control token carries no data and no meta bit
(R191). -/
def transferOf (data lane : Nat) : Transfer :=
  { data := if bit lane 8 then 0 else data % 2 ^ 512, chan := bits lane 15 10, poison := bit lane 9, control := bit lane 8
    isMeta := bit lane 7 && !bit lane 8
    value := if bit lane 8 then bits lane 3 0 else 0 }

/-! ## The end of a packet (R265, R285) -/

/-- A flag operation that object 0x2700 + c:0A counts (R285). -/
def isFlagOp (p : Packet) : Bool := decide (p.typ = 0x01 ∨ p.typ = 0x02 ∨ p.typ = 0x03)

/-- A packet of a context ends: applied, dropped or returned. A multicast, each of its copies, and an operation that its own tile
takes (`reported`) were never counted. A flag operation leaves the count of R285, and an operation that the queue engine follows for FENCE_ORDER is done (R265). -/
def packetDone (p : Packet) : Prog := .look fun s => all [
  whenP (isFlagOp p && !p.reported && !p.copy && p.dst != 0xFFF) (setReg (0x2700 + p.ctx) 0x0A (s.reg (0x2700 + p.ctx) 0x0A - 1)),
  whenP (p.followed && (p.typ == 0x01 || p.typ == 0x02))
    (modCtx p.ctx fun x => { x with flagOps := x.flagOps.erase (bits p.operand 15 0) }),
  whenP (p.followed && p.typ == 0x24)
    (modCtx p.ctx fun x => { x with ringPosts := x.ringPosts.erase (bits p.operand 13 0) })]

end Sys2Proof.Machine
end

