-- ==== Sys2Proof/Machine/Arith.lean ====
section
/-! DEFINITION. What quantisers and consumers of blocks count and report (R69 to R83, R115, R116, R145), and the carriage
of blocks over Bond (R214) and in the operand store (R62, R93, R95). -/

namespace Sys2Proof.Machine

open Sys2Proof

/-! ## Counters and events -/

/-- Counts `d` occurrences in a device counter and a site counter and reports the event once per section. -/
def arithEvent (code idx sub site siteSub c d : Nat) : Prog :=
  whenP (decide (0 < d)) (all [
    count64 idx sub d, siteCount32 site siteSub d, reportOnce code c site 0 site c site])

/-- What a quantiser did to one or more emitted blocks, at a site of a context (R69 to R73, R82, R83). -/
def recordStats (site c : Nat) (q : QStats) : Prog := all [
  arithEvent 0x7001 0x2C01 0x01 site 0x20 c q.sat,
  whenP (decide (0 < q.flush)) (all [count64 0x2C01 0x02 q.flush, siteCount32 site 0x21 q.flush]),
  whenP (decide (0 < q.toFp4)) (all [count64 0x2C01 0x03 q.toFp4, siteCount32 site 0x22 q.toFp4]),
  whenP (decide (0 < q.toFp6)) (all [count64 0x2C01 0x04 q.toFp6, siteCount32 site 0x22 q.toFp6]),
  whenP (decide (0 < q.toFp8)) (all [count64 0x2C01 0x05 q.toFp8, siteCount32 site 0x22 q.toFp8]),
  whenP (decide (0 < q.exhausted)) (all [count64 0x2C01 0x06 q.exhausted, reportOnce 0x7002 c site 0 site c site]),
  arithEvent 0x7003 0x2C01 0x07 site 0x23 c q.nonFinite,
  whenP (decide (0 < q.surplus)) (reportOnce 0x7006 c site 0 site c site),
  whenP (decide (0 < q.span)) (all [count64 0x2C01 0x0A q.span, reportOnce 0x7008 c site 0 site c site])]

/-- Malformed blocks that a consumer met: those of R64 and those of R115. (DEDUCED: notes/assumptions/64.md.) -/
def recordMalformed (site c : Nat) (d : Nat × Nat) : Prog := all [
  arithEvent 0x7004 0x2C01 0x08 site 0x23 c d.1, arithEvent 0x7803 0x2C20 0x07 site 0x45 c d.2]

/-- Non-zero inputs that a compressor dropped at absent positions of an existing mask (R141). No object of the dictionary
reads this count (DESIGN CHOICE, notes/assumptions/106.md). -/
def countDropped (unit d : Nat) : Prog := .look fun s =>
  whenP (decide (0 < d)) (.eff (.maskDrops unit (satAdd 64 (s.maskDropsAt unit) d)))

/-! ## Payload sizes and block streams (R62, R63, R112, R214) -/

/-- The bytes that a block occupies in a block stream by its tag and form. -/
def payloadBytes (fw form word : Nat) : Nat :=
  match fwBase fw with
  | 6 => 128
  | 5 => 64
  | 4 => 32
  | _ => (if form = 1 then 2 else 4) * tagWidth (bits word 63 62)

/-- The payload of a stored block as a number of `payloadBytes` bytes. -/
def streamPayload (fw form : Nat) (b : RawBlock) : Nat := b.payload % 2 ^ (8 * payloadBytes fw form b.word)

/-- The byte offsets of consecutive items of the given lengths. -/
def offsetsOf (at_ : Nat) (ls : List Nat) : List Nat :=
  match ls with
  | [] => []
  | l :: ls => at_ :: offsetsOf (at_ + l) ls

/-- The forms whose blocks carry an index word. -/
def hasIndex (form : Nat) : Bool := form == 1 || form == 3

/-- A number cut into transfers of 64 bytes. -/
def numTransfers (n bytes : Nat) (poison : Bool) : List Transfer :=
  (List.range (ceilDiv bytes 64)).map fun i => { data := n / 2 ^ (512 * i) % 2 ^ 512, poison := poison }

/-- The bytes of a raw element of a BF16 or FP32 tensor. -/
def rawWidth (fw : Nat) : Nat := if fwBase fw = 5 then 2 else 4

/-- Raw elements of `w` bytes with their marks as transfers, 64 bytes each (R214). -/
def elementTransfers (w : Nat) (xs : List (Nat × Bool)) : List Transfer :=
  (List.range (ceilDiv xs.length (64 / w))).map fun q =>
    let part := (xs.drop (64 / w * q)).take (64 / w)
    { data := packCodes (8 * w) (part.map fun x => x.1), poison := part.any fun x => x.2 }

/-- The transfers of one run of up to 8 blocks (R214). A poisoned block marks its block words and the payload transfers
that hold it. -/
def runTransfers (fw form : Nat) (bs : List RawBlock) : List Transfer :=
  if fwBase fw = 5 ∨ fwBase fw = 6 then
    bs.flatMap fun b => numTransfers b.payload (payloadBytes fw form b.word) b.poison
  else
    let ls := bs.map fun b => payloadBytes fw form b.word
    let os := offsetsOf 0 ls
    let pay := ((bs.zip os).map fun p => streamPayload fw form p.1 * 2 ^ (8 * p.2)).sum
    let bad := bs.any fun b => b.poison
    let touched := fun (i : Nat) => ((bs.zip (os.zip ls)).any fun p =>
      p.1.poison && decide (p.2.1 < 64 * (i + 1) ∧ 64 * i < p.2.1 + p.2.2))
    [{ data := packCodes 64 (bs.map fun b => b.word), poison := bad, isMeta := true }]
      ++ (if hasIndex form then [{ data := packCodes 32 (bs.map fun b => b.index), poison := bad, isMeta := true }] else [])
      ++ (List.range (ceilDiv ls.sum 64)).map fun i =>
        { data := pay / 2 ^ (512 * i) % 2 ^ 512, poison := touched i }

/-- The blocks of a whole stream as transfers, in runs of 8. -/
def streamTransfers (fw form fuel : Nat) (bs : List RawBlock) : List Transfer :=
  match fuel with
  | 0 => []
  | n + 1 => if bs.isEmpty then [] else runTransfers fw form (bs.take 8) ++ streamTransfers fw form n (bs.drop 8)

/-- The number of transfers that one run occupies, from the words of its blocks. -/
def runMeta (fw form : Nat) : Nat := if fwBase fw = 5 ∨ fwBase fw = 6 then 0 else if hasIndex form then 2 else 1

/-- Reads one run of `r` blocks from waiting transfers: the blocks, and how many transfers they took. -/
def readRun (fw form r : Nat) (ts : List Transfer) : Option (List RawBlock × Nat) :=
  let h := runMeta fw form
  let words := (List.range r).map fun i => (ts.headD {}).data / 2 ^ (64 * i) % 2 ^ 64
  let idx := (List.range r).map fun i => if h = 2 then (ts.getD 1 {}).data / 2 ^ (32 * i) % 2 ^ 32 else 0
  let ls := words.map fun w => payloadBytes fw form (if h = 0 then 0 else w)
  let os := offsetsOf 0 ls
  let used := h + ceilDiv ls.sum 64
  if ts.length < used then none
  else
    let body := (ts.take used).drop h
    let pay := packCodes 512 (body.map fun t => t.data)
    let bad := (ts.take h).any fun t => t.poison
    some ((List.range r).map fun i =>
      let o := os.getD i 0
      let l := ls.getD i 0
      { word := if h = 0 then 0 else words.getD i 0, index := idx.getD i 0
        payload := pay / 2 ^ (8 * o) % 2 ^ (8 * l)
        poison := bad || (List.range body.length).any fun j =>
          (body.getD j {}).poison && decide (o < 64 * (j + 1) ∧ 64 * j < o + l) }, used)

/-- Reads runs until `need` blocks wait in the buffer: the buffer, the blocks taken of `total`, the transfers used. -/
def readRuns (fw form total need fuel : Nat) (buf : List RawBlock) (taken used : Nat) (ts : List Transfer) :
    Option (List RawBlock × Nat × Nat) :=
  match fuel with
  | 0 => if need ≤ buf.length then some (buf, taken, used) else none
  | n + 1 =>
    if need ≤ buf.length then some (buf, taken, used)
    else
      let r := if runMeta fw form = 0 then 1 else min 8 (total - taken)
      if r = 0 then none
      else match readRun fw form r ts with
        | none => none
        | some (bs, k) => readRuns fw form total need n (buf ++ bs) (taken + r) (used + k) (ts.drop k)

/-! ## The operand store (R62, R89, R93, R95) -/

/-- Reads `len` bytes at an offset of an M-tile's operand store: the number and whether a word of it is poisoned or in
`bad`. -/
def State.storeRead (s : State) (m : Nat) (bad : List Nat) (off len : Nat) : Nat × Bool :=
  (s.load (storeAddr m off) len,
    (List.range (ceilDiv (off % 8 + len) 8)).any fun i =>
      bad.contains (off / 8 + i) || s.wordPoisoned (storeAddr m 0 / 8 + off / 8 + i))

/-- Marks the words of a range of an operand store as a write leaves them (R95, R250; DEDUCED, notes/assumptions/27.md): a word that
the write covers takes its poison, one that it begins inside keeps a mark that it had, and so does one that it ends inside
when `keepLast` says so. -/
def storeMarks (m off len : Nat) (poison keepLast : Bool) : Prog :=
  let n := if len = 0 then 0 else ceilDiv (off % 8 + len) 8
  eachP (List.range n) fun i => .look fun s =>
    let k := storeAddr m 0 / 8 + off / 8 + i
    let part := (i == 0 && off % 8 != 0) || (keepLast && i + 1 == n && (off + len) % 8 != 0)
    .eff (.poisonWords k (poison || (part && s.wordPoisoned k)))

/-- Writes bytes to an operand store. -/
def storeWrite (m off : Nat) (bs : List Byte) (poison : Bool) : Prog :=
  .seq (storeBytes (storeAddr m off) bs) (storeMarks m off bs.length poison true)

/-- Writes the next bytes of an output that an operation drains to an operand store in ascending order.
(DEDUCED: notes/assumptions/27.md.) -/
def drainWrite (m off : Nat) (bs : List Byte) (poison : Bool) : Prog :=
  .seq (storeBytes (storeAddr m off) bs) (storeMarks m off bs.length poison false)

/-- The bytes of one block's elements in store layout: its frame, or its part of a plain array (R62, R112). -/
def storedBytes (fw form : Nat) : Nat :=
  match fwBase fw with
  | 6 => 128
  | 5 => 64
  | 4 => 32
  | b => if fwFramed fw then frameBytes (fwCeil fw) (form == 1) else 4 * tagWidth b

/-- Block `b` of a tensor in an operand store (R62, R112, R113): elements at line `el`, words or scale bytes at line `wl`,
index words at line `il`. In the plain layout the block word is made from the scale byte. -/
def State.storedBlock (s : State) (m : Nat) (bad : List Nat) (fw form el wl il b : Nat) : RawBlock :=
  let sz := storedBytes fw form
  let w := match fwBase fw with
    | 6 => (0, false)
    | 5 => (0, false)
    | t => if fwFramed fw then s.storeRead m bad (64 * wl + 8 * b) 8
      else
        let c := s.storeRead m bad (64 * wl + b) 1
        (place (min t 3) 62 + place c.1 40, c.2)
  let e := s.storeRead m bad (64 * el + b * sz) (min sz (payloadBytes fw form w.1))
  let x := if hasIndex form then s.storeRead m bad (64 * il + 4 * b) 4 else (0, false)
  { word := w.1, index := x.1, payload := e.1, poison := e.2 || w.2 || x.2 }

/-- Whether a map tile marks block `b` of vector `v` present, and whether the word of the tile that says so is poisoned
(R95, R114). -/
def State.mapBit (s : State) (m : Nat) (bad : List Nat) (il kb v b : Nat) : Bool × Bool :=
  let k := v % 16 * 16 + b % 16
  let w := s.storeRead m bad (64 * il + 32 * (v / 16 * ceilDiv kb 16 + b / 16) + k / 64 * 8) 8
  (w.1.testBit (k % 64), w.2)

/-- Writes a quantised block to an operand store (R62): frame and word, or packed elements and scale byte. -/
def writeStored (m fw el wl b : Nat) (q : RawBlock) : Prog :=
  let sz := storedBytes fw 0
  .seq (storeWrite m (64 * el + b * sz) (toBytes sz q.payload) q.poison)
    (match fwBase fw with
     | 6 => .skip
     | 5 => .skip
     | _ => if fwFramed fw then storeWrite m (64 * wl + 8 * b) (toBytes 8 q.word) q.poison
       else drainWrite m (64 * wl + b) (toBytes 1 (bits q.word 47 40)) false)

/-- Correctable and uncorrectable words that a read of an operand store found (R95). -/
def storeErrors (site : Nat) (e : Ecc) : Prog :=
  let bad := e.bad.eraseDups.filter fun w => decide (w < 65536)
  let fixed := e.fixed.eraseDups.filter fun w => decide (w < 65536) && !bad.contains w
  all [
    siteCount32 site 0x38 fixed.length,
    siteCount32 site 0x39 bad.length,
    eachP bad fun w => .look fun s => all [
      reportOnce 0x7404 (match s.active site with | some r => r.ctx | none => 0) site 0 site site (w / 8),
      siteFault site 2 200]]

end Sys2Proof.Machine
end

