-- ==== Sys2Proof/Machine/Matrix.lean ====
section
/-! DEFINITION. The M-tile: operation records, block steps, weight slices, draining, the shadow checker lane and the
operand store (chapter 04), and sparse execution on it (chapter 05, R107 to R135). -/

namespace Sys2Proof.Machine

open Sys2Proof

/-! ## Operation records (Tables 04-3, 05-3, 05-4) -/

/-- Word `i` of a record. -/
def mrWord (ws : List Nat) (i : Nat) : Nat := ws.getD i 0
/-- Weight-stationary. -/
def mrWS (ws : List Nat) : Bool := bit (mrWord ws 0) 63
/-- The accumulator init code. -/
def mrInit (ws : List Nat) : Nat := bits (mrWord ws 0) 62 61
/-- The output form code: 0 quantised, 1 raw FP32, 2 held. -/
def mrOut (ws : List Nat) : Nat := bits (mrWord ws 0) 60 59
/-- The A source. -/
def mrASrc (ws : List Nat) : Nat := bits (mrWord ws 0) 58 56
/-- The B source. -/
def mrBSrc (ws : List Nat) : Nat := bits (mrWord ws 0) 55 53
/-- The C source. -/
def mrCSrc (ws : List Nat) : Nat := bits (mrWord ws 0) 52 50
/-- The output destination. -/
def mrDst (ws : List Nat) : Nat := bits (mrWord ws 0) 49 47
/-- M rows. -/
def mrM (ws : List Nat) : Nat := bits (mrWord ws 0) 46 38
/-- N columns. -/
def mrN (ws : List Nat) : Nat := bits (mrWord ws 0) 37 31
/-- K blocks. -/
def mrK (ws : List Nat) : Nat := bits (mrWord ws 0) 30 19
/-- The sparse control code (Table 05-3). -/
def mrCode (ws : List Nat) : Nat := bits (mrWord ws 0) 18 16
/-- The store line of C. -/
def mrCLine (ws : List Nat) : Nat := bits (mrWord ws 0) 15 3
/-- The store line of A's elements. -/
def mrALine (ws : List Nat) : Nat := bits (mrWord ws 1) 63 51
/-- The store line of A's block words. -/
def mrAWords (ws : List Nat) : Nat := bits (mrWord ws 1) 50 38
/-- The store line of B's elements. -/
def mrBLine (ws : List Nat) : Nat := bits (mrWord ws 1) 37 25
/-- The store line of B's block words. -/
def mrBWords (ws : List Nat) : Nat := bits (mrWord ws 1) 24 12
/-- The A format word. -/
def mrAFw (ws : List Nat) : Nat := bits (mrWord ws 2) 63 32
/-- The B format word. -/
def mrBFw (ws : List Nat) : Nat := bits (mrWord ws 2) 31 0
/-- The output format word. -/
def mrOutFw (ws : List Nat) : Nat := bits (mrWord ws 3) 63 32
/-- The store line of the output's elements. -/
def mrOutLine (ws : List Nat) : Nat := bits (mrWord ws 3) 31 19
/-- The store line of the output's block words. -/
def mrOutWords (ws : List Nat) : Nat := bits (mrWord ws 3) 18 6
/-- The seed of R76. -/
def mrSeed (ws : List Nat) : Nat := mrWord ws 4
/-- The tensor ID of R76. -/
def mrTensor (ws : List Nat) : Nat := bits (mrWord ws 5) 63 40
/-- The base element index. -/
def mrBase (ws : List Nat) : Nat := bits (mrWord ws 5) 39 0
/-- The row stride. -/
def mrStride (ws : List Nat) : Nat := bits (mrWord ws 6) 39 0
/-- Index line 1. -/
def mrIndex1 (ws : List Nat) : Nat := bits (mrWord ws 6) 63 51
/-- The pass bit: backward. -/
def mrBackward (ws : List Nat) : Bool := bit (mrWord ws 6) 50
/-- S24T declared. -/
def mrS24T (ws : List Nat) : Bool := bit (mrWord ws 6) 49
/-- The scout bit. -/
def mrScout (ws : List Nat) : Bool := bit (mrWord ws 6) 48
/-- The gate bit. -/
def mrGate (ws : List Nat) : Bool := bit (mrWord ws 6) 47
/-- Blocks per CAM window. -/
def mrWindow (ws : List Nat) : Nat := bits (mrWord ws 6) 46 42
/-- Index line 2. -/
def mrIndex2 (ws : List Nat) : Nat := bits (mrWord ws 7) 63 51
/-- The store line of the keep mask. -/
def mrKeepLine (ws : List Nat) : Nat := bits (mrWord ws 7) 50 38
/-- Audit. -/
def mrAudit (ws : List Nat) : Bool := bit (mrWord ws 7) 37
/-- The audit exponent. -/
def mrAuditExp (ws : List Nat) : Nat := bits (mrWord ws 7) 36 32
/-- The threshold, a BF16 pattern. -/
def mrTau (ws : List Nat) : Nat := bits (mrWord ws 7) 31 16
/-- The K padding. -/
def mrPad (ws : List Nat) : Nat := bits (mrWord ws 7) 15 11

/-- The operation is none (R92, R120). -/
def mrNone (ws : List Nat) : Bool :=
  mrM ws == 0 || mrN ws == 0 || mrK ws == 0 || (mrCode ws == 6 && mrWindow ws == 0)

/-- The operation runs in lane slots (R124); one that the loader marked dense does not (R134, R135). -/
def mrLanes (o : MOp) : Bool := !o.dense && (mrCode o.words == 5 || mrCode o.words == 6)

/-- The operation runs in CAM windows (R127). -/
def mrCam (o : MOp) : Bool := !o.dense && mrCode o.words == 6

/-- The form of operand A (Table 05-3). -/
def aForm (ws : List Nat) : Nat := match mrCode ws with
  | 2 => 1 | 4 => 2 | 5 => 3 | 6 => 3 | _ => 0

/-- The form of operand B. -/
def bForm (ws : List Nat) : Nat := match mrCode ws with
  | 1 => 1 | 3 => 2 | 6 => 3 | _ => 0

/-- The array mode of a format word's tag: 0 T2, 1 FP4, 2 FP8, 3 BF16 (Table 04-1). -/
def modeOf (fw tag : Nat) : Nat :=
  match fwBase fw with
  | 5 => 3
  | 4 => 2
  | _ => min tag 2

/-- The mode of a WS operation (R86). -/
def wsMode (ws : List Nat) : Nat :=
  max (modeOf (mrAFw ws) (fwCeil (mrAFw ws))) (modeOf (mrBFw ws) (fwCeil (mrBFw ws)))

/-- Products per cell per beat, at least 1 (R124). -/
def modeProducts (mode : Nat) : Nat := match mode with
  | 0 => 4 | 1 => 2 | _ => 1

/-- Kw in elements (Table 04-2). -/
def modeKw (mode : Nat) : Nat := match mode with
  | 0 => 256 | 1 => 128 | 2 => 64 | _ => 32

/-- The PIX threshold of a mode (R125). -/
def pixThreshold (mode : Nat) : Nat := 32 / modeProducts mode - 1

/-- The blocks of a weight slice (Table 04-2, R121). -/
def sliceBlocks (o : MOp) : Nat :=
  (if mrCode o.words = 1 && !o.dense then 2 else 1) * (modeKw (wsMode o.words) / 32)

/-- The beats that a slice load takes (R88, R121): 4,096 bytes of elements in every mode, and 8 or 12 bytes for each
block, at 256 bytes a beat. (DEDUCED: notes/assumptions/35.md.) -/
def sliceLoadBeats (o : MOp) : Nat :=
  let words := if wsMode o.words = 3 then 0 else (if bForm o.words = 1 then 12 else 8) * 64 * sliceBlocks o
  ceilDiv (4096 + words) 256

/-! ## Fetching blocks -/

/-- An operand of a record: source, format word, form, and its three store lines. -/
structure Operand where
  src : Nat
  fw : Nat
  form : Nat
  el : Nat
  wl : Nat
  il : Nat
  deriving DecidableEq, Repr

/-- Operand A of a record. -/
def opA (ws : List Nat) : Operand := ⟨mrASrc ws, mrAFw ws, aForm ws, mrALine ws, mrAWords ws, mrIndex1 ws⟩

/-- Operand B of a record. -/
def opB (ws : List Nat) : Operand :=
  ⟨mrBSrc ws, mrBFw ws, bForm ws, mrBLine ws, mrBWords ws, if mrCode ws = 6 then mrIndex2 ws else mrIndex1 ws⟩

/-- Marks the blocks that a BSB16 map leaves out: they are structural zero and never read (R114). A block whose map word is
poisoned is poisoned (R65, R95). -/
def State.mapped (s : State) (m : Nat) (bad : List Nat) (kb : Nat) (o : Operand) (vk : Nat × Nat) (b : RawBlock) : RawBlock :=
  if o.form = 2 then
    let x := s.mapBit m bad o.il kb vk.1 vk.2
    if x.2 then { b with poison := true } else if x.1 then b else { absent := true }
  else b

/-- What a fetch gives: the blocks, and for a Bond source the buffer, the blocks taken and the transfers used. -/
structure Fetched where
  blocks : List RawBlock
  buf : List RawBlock := []
  taken : Nat := 0
  used : Nat := 0
  deriving DecidableEq, Repr

/-- The blocks of an operand at a list of (vector, block) places, `kb` blocks to a vector: read from the store, or the
next of the block stream on a Bond port, of `total` blocks in all (R193, R214). None while they have not arrived. -/
def State.fetch (s : State) (site m kb : Nat) (bad : List Nat) (o : Operand) (total taken : Nat) (buf : List RawBlock)
    (places : List (Nat × Nat)) : Option Fetched :=
  if o.src = 4 then
    some { blocks := places.map fun p => s.mapped m bad kb o p (s.storedBlock m bad o.fw o.form o.el o.wl o.il (p.1 * kb + p.2)) }
  else
    match readRuns o.fw o.form total places.length (places.length + 1) buf taken 0 (s.engineIn site o.src) with
    | none => none
    | some (bs, t, u) => some {
        blocks := (places.zip bs).map fun p => s.mapped m bad kb o p.1 p.2
        buf := bs.drop places.length, taken := t, used := u }

/-! ## One step's arithmetic (R79, R80, R107 to R110, R116) -/

/-- Elements of a block that are present (R107, R110). -/
def presentIn (form : Nat) (b : RawBlock) : List Nat := if b.absent then [] else presentOf form b.index

/-- Some present element of one block meets a present element of the other. Of a block whose index word came poisoned the
elements are those that the data under the mark names (R110; DESIGN CHOICE, notes/assumptions/126.md). -/
def blocksMeet (fa fb : Nat) (a b : RawBlock) : Bool := (presentIn fa a).any fun e => (presentIn fb b).contains e

/-- A block is malformed and is checked: it is neither absent nor poisoned (R65, R110, R115). -/
def malformedBlock (fw form : Nat) (b : RawBlock) : Bool := !b.absent && !b.poison && blockBad fw form b

/-- A block holds an out-of-range element (R116); `lim` is 32 minus the padding for the last block of the reduction. A
poisoned block is not checked (R65). -/
def outOfRange (fw form lim : Nat) (b : RawBlock) : Nat :=
  if b.absent || b.poison then 0
  else match form with
  | 3 => ((presentOf 3 b.index).filter fun e => decide (lim ≤ e)).length
  | 1 => ((presentOf 1 b.index).filter fun e => decide (lim ≤ e) && match elemNum fw 1 b e with
      | some (.fin d) => decide (d.m ≠ 0)
      | some _ => true
      | none => false).length
  | _ => 0

/-- What a step did to one output: prior value, main and checker block sums and accumulators, its new mark, whether its
operands were poisoned, and how often it overflowed. -/
structure CellOut where
  row : Nat
  col : Nat
  prior : FWord
  mainSums : List F32
  checkSums : List F32
  mainAcc : F32
  checkAcc : F32
  poison : Bool
  consumed : Bool
  infs : Nat
  deriving DecidableEq, Repr

/-- The upsets of one output and block. -/
def upsetAt (us : List Upset) (i j t : Nat) : Upset :=
  (us.find? fun u => decide (u.row = i ∧ u.col = j ∧ u.block = t)).getD { row := i, col := j }

/-- The exact sum is finite. -/
def sumFinite (a b : List (Option Num)) : Bool := numFinite (sumProducts a b)

/-- An FP32 word is infinite. -/
def isInf32 (x : F32) : Bool := match num32 x with | .inf _ => true | _ => false

/-- An FP32 word is finite. -/
def isFin32 (x : F32) : Bool := numFinite (num32 x)

/-- Adds the block sums of one output for a list of block pairs, in order (R79, R88). An output that is poisoned reports no
overflow (R65; DEDUCED: notes/assumptions/29.md). -/
def cellStep (ws : List Nat) (us : List Upset) (i j : Nat) (prior : FWord) (pairs : List (RawBlock × RawBlock))
    (oob : Nat → Bool) : CellOut :=
  let fa := aForm ws
  let fb := bForm ws
  ((pairs.zip (List.range pairs.length)).foldl (fun (c : CellOut) p =>
    let a := p.1.1
    let b := p.1.2
    let u := upsetAt us i j p.2
    let ea := (List.range 32).map fun e => elemNum (mrAFw ws) fa { a with absent := a.absent || (presentIn fa a).isEmpty } e
    let eb := (List.range 32).map fun e => elemNum (mrBFw ws) fb b e
    let ea' := if a.absent then List.replicate 32 none else ea
    let eb' := if b.absent then List.replicate 32 none else eb
    let sum := blockSum ea' eb'
    let meet := blocksMeet fa fb a b
    let pois := (a.poison || b.poison) && meet
    let bad := (malformedBlock (mrAFw ws) fa a || malformedBlock (mrBFw ws) fb b) && meet
    let ms := sum ^^^ u.mainSum
    let cs := sum ^^^ u.checkSum
    let ma := add32 c.mainAcc ms ^^^ u.mainAcc
    let ca := add32 c.checkAcc cs ^^^ u.checkAcc
    { c with
      mainSums := c.mainSums ++ [ms], checkSums := c.checkSums ++ [cs], mainAcc := ma, checkAcc := ca
      poison := c.poison || pois || bad || oob p.2
      consumed := c.consumed || pois
      infs := c.infs + (if isInf32 ma && isFin32 c.mainAcc && sumFinite ea' eb'
        && !(c.poison || pois || bad || oob p.2) then 1 else 0) })
    { row := i, col := j, prior := prior, mainSums := [], checkSums := [], mainAcc := prior.val, checkAcc := prior.val,
      poison := prior.poison, consumed := false, infs := 0 : CellOut })

/-- The key of an accumulator: the bank of an OS operation, or all four banks row by row. -/
def accKey (site : Nat) (o : MOp) (row col : Nat) : Nat :=
  site * 16384 + (if mrWS o.words then 0 else o.bank * 4096) + row * 64 + col

/-- The output row that array row `r` of column `j` computes with code 0b111 (R123), and whether its mask word is poisoned
(R95). The rows from M on are those that the mask leaves out, which the dense path computes as well (R134). -/
def State.maskRow (s : State) (m : Nat) (bad : List Nat) (ws : List Nat) (r j : Nat) : Nat × Bool :=
  let r' := r % max 1 (mrM ws)
  let g := r' / 2
  let w := s.storeRead m bad (64 * mrIndex1 ws + 4 * (j * ceilDiv (2 * mrM ws) 32 + g / 8)) 4
  let p := s24Pair w.1 (g % 8)
  let rest := (List.range 4).filter fun k => decide (k ≠ p.1 ∧ k ≠ p.2)
  (4 * g + (if r < mrM ws then (if r' % 2 = 0 then p.1 else p.2) else rest.getD (r' % 2) 0), w.2)

/-- A row is skipped under the gate (R131). -/
def rowGated (o : MOp) (i : Nat) : Bool := mrGate o.words && !o.keep.testBit i

/-- A skipped row is audited (R132). -/
def rowAudited (o : MOp) (i : Nat) : Bool :=
  rowGated o i && mrAudit o.words &&
    decide (randomValue (mrSeed o.words) (mrTensor o.words) (mrBase o.words + i * mrStride o.words)
      % 2 ^ mrAuditExp o.words = 0)

/-- The rows that an operation computes. -/
def activeRows (o : MOp) : List Nat := (List.range (mrM o.words)).filter fun i => !rowGated o i || rowAudited o i

/-! ## Effects of a step -/

/-- Changes the operation in the array. -/
def modOp (site : Nat) (f : MOp → MOp) : Prog := modM site fun m => { m with cur := m.cur.map f }

/-- Commits the main values of a list of outputs. Those of rows that a masked output never drains stay with the operation
(R134). -/
def commitCells (site : Nat) (o : MOp) (cs : List CellOut) : Prog := .seq
  (eachP (cs.filter fun c => decide (c.row < mrM o.words)) fun c =>
    .eff (.acc (accKey site o c.row c.col) { val := c.mainAcc, poison := c.poison }))
  (match cs.filter fun c => decide (mrM o.words ≤ c.row) with
   | [] => .skip
   | off => modOp site fun x => { x with off := off.foldl (fun t c =>
       Tab.set {} t (c.row * 64 + c.col) { val := c.mainAcc, poison := c.poison }) x.off })

/-- A cell that the checker compares and finds different: its inputs are not poisoned, and a NaN counts as its canonical
encoding (R57, R100). (DEDUCED: notes/assumptions/37.md.) -/
def cellDiffers (c : CellOut) : Bool :=
  !c.consumed && (c.mainSums.map canonNan != c.checkSums.map canonNan || canonNan c.mainAcc != canonNan c.checkAcc)

/-- Opens the dispute of a step on all rows of its column (R101). -/
def openDispute (site c : Nat) (o : MOp) (j : Nat) (cells : List CellOut) (aOf bOf : Nat → List RawBlock) : Prog := all [
  modM site fun m => { m with dispute := some {
    words := o.words, col := j, step := o.step, bank := o.bank, ctx := c
    rows := cells.map fun x => ⟨x.row, aOf x.row, bOf x.row, x.prior, x.mainSums, x.checkSums, x.mainAcc, x.checkAcc,
      x.poison, !x.consumed⟩ } },
  withState fun s => .votesWaiting (s.votesWaiting ++ [site]),
  count64 0x2C10 0x03 1, count32 (0x3000 + site) 0x35 1,
  report 0x7401 0 site c (pairArg site j)]

/-- What a step or a slice does once its outputs are computed: the checker's comparison, the commit, the counts and the
reports (R80, R83, R95, R99 to R101). `whole` is false for a lane beat, which counts no step of its own.
(DEDUCED: notes/assumptions/37.md.) -/
def commitStep (site c : Nat) (o : MOp) (cells : List CellOut) (mal : Nat × Nat) (oor beats : Nat) (env : StepEnv)
    (step : Nat) (whole : Bool) (aOf bOf : Nat → Nat → List RawBlock) : Prog := .look fun s =>
  let m := s.mtile site
  let l := (s.tileOf site).getD 0
  let j := randomValue (s.reg 0x2C10 0x02) l m.steps % 64
  let col := cells.filter fun x => decide (x.col = j)
  let compared := if m.checkerOn then (col.filter fun x => !x.consumed).length else 0
  let differs := m.checkerOn && col.any cellDiffers
  let held := if differs then col else []
  let infs := (cells.map fun x => x.infs).sum
  all [
    commitCells site o (cells.filter fun x => !held.contains x),
    count64 (0x3000 + site) 0x31 beats,
    siteCount64 site 0x32 env.stallBeats,
    siteCount64 site 0x34 compared,
    whenP whole (all [count64 (0x3000 + site) 0x30 1, modM site fun t => { t with steps := t.steps + 1 }]),
    arithEvent 0x7007 0x2C01 0x09 site 0x24 c infs,
    recordMalformed site c mal,
    arithEvent 0x7804 0x2C20 0x08 site 0x45 c oor,
    storeErrors site env.ecc,
    whenP differs (openDispute site c { o with step := step } j held (fun i => aOf i j) (fun i => bOf i j)),
    whenP (cells.any fun x => x.consumed) (poisonDeath c 0 site site)]

/-! ## The end of an operation in the array -/

/-- The greatest magnitude of a row's accumulators, and whether one is NaN (R130). -/
def State.rowPeak (s : State) (site : Nat) (o : MOp) (i : Nat) : Dy × Bool :=
  (List.range (mrN o.words)).foldl (fun p j =>
    match num32 (s.accAt (accKey site o i j)).val with
    | .nan => (p.1, true)
    | .inf _ => (if p.1.lt ⟨1, 200⟩ then ⟨1, 200⟩ else p.1, p.2)
    | .fin d => (if p.1.lt d.abs then d.abs else p.1, p.2)) (Dy.zero, false)

/-- The value of the threshold: an infinite one is above every finite magnitude. -/
def tauOf (ws : List Nat) : Dy := match EFmt.bf16.decode (mrTau ws) with
  | .fin d => d
  | .inf n => if n then ⟨-1, 200⟩ else ⟨1, 200⟩
  | .nan => Dy.zero

/-- A row has a poisoned accumulator. -/
def State.rowPoisoned (s : State) (site : Nat) (o : MOp) (i : Nat) : Bool :=
  (List.range (mrN o.words)).any fun j => (s.accAt (accKey site o i j)).poison

/-- A row reaches the threshold. -/
def State.rowReaches (s : State) (site : Nat) (o : MOp) (i : Nat) : Bool :=
  let p := s.rowPeak site o i
  (tauOf o.words).le p.1 || p.2

/-- The audit of a gated operation that has finished (R132): mispredictions and false keeps. The result of an audited row
is discarded: its accumulators hold what they began with, with the positive zero of a skipped row added (R109).
(DEDUCED: notes/assumptions/36.md.) A NaN is no misprediction by itself, and a kept row with one is no false keep
(DESIGN CHOICE, notes/assumptions/118.md). A row with a poisoned accumulator counts as neither (R65). -/
def finishAudit (site c : Nat) (o : MOp) : Prog := .look fun s =>
  let rows := (List.range (mrM o.words)).filter fun i => !s.rowPoisoned site o i
  let miss := (rows.filter fun i => rowAudited o i && (tauOf o.words).le (s.rowPeak site o i).1).length
  let false_ := (rows.filter fun i => o.keep.testBit i && !(s.rowPeak site o i).2
    && (s.rowPeak site o i).1.lt (tauOf o.words)).length
  whenP (mrGate o.words && mrAudit o.words) (all [
    arithEvent 0x7808 0x2C20 0x0B site 0x46 c miss,
    whenP (decide (0 < false_)) (count64 0x2C20 0x0C false_),
    eachP o.audited fun e => .eff (.acc (site * 16384 + e.1) { e.2 with val := add32 e.2.val 0 })])

/-- The operation in the array completes there once its reduction is done and no dispute is open: a scout writes its keep
mask, a held operation ends, any other begins to drain in the next beat (R96, R130). A row of a scout with poisoned accumulators
is judged by the data under the marks, and the mask word that holds its bit is poisoned (R65; DESIGN CHOICE,
notes/assumptions/117.md). -/
def finishArray (site m c : Nat) : Prog := .look fun s =>
  let t := s.mtile site
  match t.cur, t.dispute with
  | some o, none => whenP (decide (mrK o.words ≤ o.step)) (
      if mrScout o.words then all [
        eachP [0, 1, 2, 3] fun w =>
          let rows := (List.range 64).filter fun i => decide (64 * w + i < mrM o.words)
          storeWrite m (64 * mrKeepLine o.words + 8 * w)
            (toBytes 8 ((rows.filter fun i => s.rowReaches site o (64 * w + i)).map fun i => 2 ^ i).sum)
            (rows.any fun i => s.rowPoisoned site o (64 * w + i)),
        modM site fun x => { x with cur := none, recIx := x.recIx + 1 }]
      else all [
        finishAudit site c o,
        if mrOut o.words = 2 then modM site fun x => { x with cur := none, held := some o.bank, recIx := x.recIx + 1 }
        else modM site fun x => { x with cur := none, drains := x.drains ++ [o], recIx := x.recIx + 1 }])
  | _, _ => .skip

/-- The site's operation, with its M-tile index, its context and its operation, when the tile runs, is not halted and
holds no dispute, and the bank or banks that it needs have drained (R96, R101, R105). -/
def State.arrayOp (s : State) (site : Nat) : Option (Nat × Nat × MOp) :=
  let t := s.mtile site
  match s.active site, s.tileOf site, t.cur with
  | some r, some l, some o =>
    let free := if mrWS o.words then t.drains.isEmpty
      else !t.drains.any fun d => mrWS d.words || decide (d.bank = o.bank)
    if tileType l = 0 && !t.halted && t.dispute.isNone && free then some (mIndex l, r.ctx, o) else none
  | _, _, _ => none

/-! ## OPERATION_RECORD_START (R89, R92, R96, R120, R131) -/

/-- The C values that an operation with init 0b10 loads: FP32 in row order from the store or a Bond port, with the
transfers used; none while they have not arrived. -/
def State.fetchC (s : State) (site m : Nat) (ws : List Nat) (bad : List Nat) : Option (List FWord × Nat) :=
  let n := mrN ws
  if mrCSrc ws = 4 then
    some ((List.range (mrM ws * n)).map fun k =>
      let v := s.storeRead m bad (64 * mrCLine ws + 4 * k) 4
      { val := BitVec.ofNat 32 v.1, poison := v.2 }, 0)
  else
    let per := ceilDiv n 16
    let ts := (s.engineIn site (mrCSrc ws)).take (mrM ws * per)
    if ts.length < mrM ws * per then none
    else some ((List.range (mrM ws * n)).map fun k =>
      let x := ts.getD (k / n * per + k % n / 16) {}
      { val := BitVec.ofNat 32 (x.data / 2 ^ (32 * (k % n % 16)) % 2 ^ 32), poison := x.poison }, mrM ws * per)

/-- Initialises the accumulators of an operation (R96): zero, continue, or the values of C. -/
def initAccs (site : Nat) (o : MOp) (vals : Nat → FWord) : Prog :=
  eachP (List.range (mrM o.words)) fun i => eachP (List.range (mrN o.words)) fun j =>
    .eff (.acc (accKey site o i j) (vals (i * mrN o.words + j)))

/-- The keep mask of a gated operation (R131), and the rows whose bits lie in a poisoned word (R65, R95); bits at or above M
count as out of range (R116). (DEDUCED: notes/assumptions/36.md.) -/
def State.keepMask (s : State) (m : Nat) (bad : List Nat) (ws : List Nat) : Nat × Nat :=
  ((s.storeRead m bad (64 * mrKeepLine ws) 32).1,
    ((List.range 4).map fun w =>
      if (s.storeRead m bad (64 * mrKeepLine ws + 8 * w) 8).2 then (2 ^ 64 - 1) * 2 ^ (64 * w) else 0).sum)

/-- What a gated operation notes once its accumulators are initialised: the outputs of rows whose keep bits came poisoned
are poisoned (R65), and the accumulators of audited rows are kept for the end of the audit (R132). -/
def gateRows (site c : Nat) (o : MOp) : Prog :=
  let cells := fun (rows : List Nat) => rows.flatMap fun i => (List.range (mrN o.words)).map fun j => accKey site o i j
  all [
    eachP (cells ((List.range (mrM o.words)).filter fun i => o.keepBad.testBit i)) fun k =>
      withState fun s => .acc k { s.accAt k with poison := true },
    .look fun s => modOp site fun x => { x with audited :=
      (cells ((List.range (mrM o.words)).filter fun i => rowAudited o i)).map fun k => (k - site * 16384, s.accAt k) },
    whenP (decide (o.keepBad % 2 ^ mrM o.words ≠ 0)) (poisonDeath c 0 site site)]

/-- An M-tile begins its next operation record. -/
def recordStartProg (site : Nat) (env : StepEnv) : Prog := .look fun s =>
  let t := s.mtile site
  match s.active site, s.tileOf site, s.planOf site with
  | some r, some l, some p =>
    whenP (tileType l == 0 && t.cur.isNone && !t.halted && t.dispute.isNone)
      (withP (p.recs[t.recIx]?) fun ws =>
        if mrNone ws then modM site fun x => { x with recIx := x.recIx + 1 }
        else
          let km := if mrGate ws then s.keepMask (mIndex l) env.ecc.bad ws else (0, 0)
          let keep := km.1
          let bank := if mrInit ws = 1 then t.held.getD t.bank else t.bank
          let o : MOp := {
            words := ws, dense := p.denseRecs.contains t.recIx, bank := bank
            keep := keep % 2 ^ mrM ws, keepBad := km.2 }
          let late := popCount 256 (keep / 2 ^ mrM ws)
          let free := if mrWS ws then t.drains.isEmpty
            else !t.drains.any fun d => mrWS d.words || decide (d.bank = bank)
          let begin_ := all [
            modM site fun x => { x with cur := some o, held := none,
                                        bank := if mrWS ws || mrInit ws == 1 then x.bank else (bank + 1) % 4 },
            siteCount64 site 0x32 env.stallBeats,
            storeErrors site env.ecc,
            whenP (decide (0 < late)) (all [count64 0x2C20 0x08 late, siteCount32 site 0x45 late])]
          let gate := whenP (mrGate ws) (gateRows site r.ctx o)
          match mrInit ws with
          | 1 => .seq begin_ gate
          | 2 => whenP free (withP (s.fetchC site (mIndex l) ws env.ecc.bad) fun v => all [
              takeIn site (mrCSrc ws) v.2, begin_, initAccs site o (fun k => v.1.getD k {}), gate,
              whenP (v.1.any fun w => w.poison) (poisonDeath r.ctx 0 site site)])
          | _ => whenP free (all [begin_, initAccs site o (fun _ => {}), gate]))
  | _, _, _ => .skip

/-- OPERATION_RECORD_START (R89). -/
def execOperationRecordStart (site : Site) (env : StepEnv) (s : State) : Host.Outcome State Fault Refusal :=
  finish (recordStartProg site env) s

/-! ## BLOCK_STEP (R85, R86, R121 to R123) -/

/-- The tag of a block that a step reads, for the choice of its mode. -/
def blockMode (fw : Nat) (b : RawBlock) : Nat := if b.absent then 0 else modeOf fw (bits b.word 63 62)

/-- The beats of an OS step (Table 04-1, R121, R122). -/
def stepBeats (o : MOp) (as bs : List RawBlock) : Nat :=
  let md := (as.map (blockMode (mrAFw o.words)) ++ bs.map (blockMode (mrBFw o.words))).foldl max 0
  let full := 8 * 2 ^ md
  if !o.dense && (mrCode o.words == 1 || mrCode o.words == 2) then full / 2 else full

/-- A step whose BSB16 operand is wholly absent (R122); the dense path skips nothing (R135). -/
def stepSkipped (o : MOp) (as bs : List RawBlock) : Bool :=
  !o.dense && ((mrCode o.words == 3 && bs.all fun b => b.absent) || (mrCode o.words == 4 && as.all fun b => b.absent))

/-- Malformed blocks of a list of those that are checked, by the event that they report (R64, R65, R110, R115). -/
def malformedOf (fw form : Nat) (bs : List RawBlock) : Nat × Nat :=
  malformedKinds ((bs.filter (malformedBlock fw form)).map fun b => (b, form))

/-- The sum of two pairs of counts. -/
def addCounts (a b : Nat × Nat) : Nat × Nat := (a.1 + b.1, a.2 + b.2)

/-- One OS block step. -/
def blockStepProg (site : Nat) (env : StepEnv) : Prog := .look fun s =>
  withP (s.arrayOp site) fun (m, c, o) =>
    let ws := o.words
    let rowsA := if mrCode ws = 7 then 2 * mrM ws else mrM ws
    let n := mrN ws
    let k := mrK ws
    whenP (!mrWS ws && decide (o.step < k))
      (match s.fetch site m k env.ecc.bad (opA ws) (rowsA * k) o.aTaken o.aBuf ((List.range rowsA).map fun i => (i, o.step)),
          s.fetch site m k env.ecc.bad (opB ws) (n * k) o.bTaken o.bBuf ((List.range n).map fun j => (j, o.step)) with
       | some fa, some fb =>
         let aRow := fun i j =>
           if mrCode ws = 7 then
             let r := s.maskRow m env.ecc.bad ws i j
             let b := fa.blocks.getD r.1 {}
             { b with poison := b.poison || r.2 }
           else fa.blocks.getD i {}
         let bCol := fun j => fb.blocks.getD j {}
         let lim := if o.step + 1 = k then 32 - mrPad ws else 32
         let oobA := fun (b : RawBlock) => outOfRange (mrAFw ws) (aForm ws) lim b
         let oobB := fun (b : RawBlock) => outOfRange (mrBFw ws) (bForm ws) lim b
         let rows := if mrCode ws = 7 && o.dense then 2 * mrM ws else mrM ws
         let cells := (List.range rows).flatMap fun i => (List.range n).map fun j =>
           cellStep ws env.upsets i j
             (if i < mrM ws then s.accAt (accKey site o i j) else Tab.get {} o.off (i * 64 + j)) [(aRow i j, bCol j)]
             fun _ => decide (0 < oobA (aRow i j)) || decide (0 < oobB (bCol j))
         let anyA := fa.blocks.any fun b => !b.absent
         let anyB := fb.blocks.any fun b => !b.absent
         let malA := if anyB then malformedOf (mrAFw ws) (aForm ws) fa.blocks else (0, 0)
         let malB := if anyA then malformedOf (mrBFw ws) (bForm ws) fb.blocks else (0, 0)
         let oor := (fa.blocks.map oobA).sum + (fb.blocks.map oobB).sum
         let skipped := stepSkipped o fa.blocks fb.blocks
         let sparse := (1 ≤ mrCode ws ∧ mrCode ws ≤ 4) ∨ mrCode ws = 7
         all [
           takeIn site (mrASrc ws) fa.used, takeIn site (mrBSrc ws) fb.used,
           commitStep site c o cells (addCounts malA malB) oor (if skipped then 0 else stepBeats o fa.blocks fb.blocks) env
             o.step true (fun i j => [aRow i j]) (fun _ j => [bCol j]),
           modOp site fun x => { x with step := x.step + 1, aBuf := fa.buf, aTaken := fa.taken, bBuf := fb.buf,
                                        bTaken := fb.taken },
           whenP (decide sparse) (all [count64 0x2C20 0x01 1, count64 (0x3000 + site) 0x40 1]),
           whenP skipped (all [count64 0x2C20 0x02 1, count64 (0x3000 + site) 0x41 1]),
           finishArray site m c]
       | _, _ => .skip)

/-- BLOCK_STEP (R85). -/
def execBlockStep (site : Site) (env : StepEnv) (s : State) : Host.Outcome State Fault Refusal :=
  finish (blockStepProg site env) s

/-! ## WEIGHT_SLICE (R87, R88, R121, R122, R130 to R132) and the parts of lane-packed operations -/

/-- The outputs of a part of the reduction, for a list of rows. -/
def partCells (s : State) (site : Nat) (o : MOp) (env : StepEnv) (p : WPart) (as : List RawBlock) (rows : List Nat)
    (ks : Nat → List Nat) : List CellOut :=
  let ws := o.words
  let w := p.hi - p.lo
  rows.flatMap fun i => (List.range (mrN ws)).map fun j =>
    let pairs := (ks i).map fun t => (as.getD (i * w + t) {}, p.blocks.getD (j * w + t) {})
    cellStep ws env.upsets i j (s.accAt (accKey site o i j)) pairs fun q =>
      let t := (ks i).getD q 0
      let lim := if p.lo + t + 1 = mrK ws then 32 - mrPad ws else 32
      decide (0 < outOfRange (mrAFw ws) (aForm ws) lim (as.getD (i * w + t) {}))
        || decide (0 < outOfRange (mrBFw ws) (bForm ws) lim (p.blocks.getD (j * w + t) {}))

/-- Malformed and out-of-range counts of a list of blocks laid out as vectors of `w` blocks that begin at block `lo`, for
the blocks of vector `v` and place `t` that `checked` names (R110). -/
def partCounts (fw form k pad lo w : Nat) (checked : Nat → Nat → Bool) (bs : List RawBlock) : (Nat × Nat) × Nat :=
  let xs := (bs.zip (List.range bs.length)).filter fun p => checked (p.2 / w) (p.2 % w)
  (malformedOf fw form (xs.map fun p => p.1),
    (xs.map fun p => outOfRange fw form (if lo + p.2 % w + 1 = k then 32 - pad else 32) p.1).sum)

/-- The rows that an operation skips altogether: the gate's, but for those it audits (R131, R132). -/
def gatedRows (o : MOp) : List Nat := (List.range (mrM o.words)).filter fun i => rowGated o i && !rowAudited o i

/-- A slice or part that rows skip adds positive zero to their accumulators (R109). -/
def addZero (site : Nat) (o : MOp) (rows : List Nat) : Prog :=
  eachP rows fun i => eachP (List.range (mrN o.words)) fun j => .look fun s =>
    let w := s.accAt (accKey site o i j)
    .eff (.acc (accKey site o i j) { w with val := add32 w.val 0 })

/-- The blocks of a part of A: rows, then blocks. -/
def State.fetchA (s : State) (site m : Nat) (o : MOp) (env : StepEnv) (lo hi : Nat) : Option Fetched :=
  s.fetch site m (mrK o.words) env.ecc.bad (opA o.words) (mrM o.words * mrK o.words) o.aTaken o.aBuf
    ((List.range (mrM o.words)).flatMap fun i => (List.range (hi - lo)).map fun t => (i, lo + t))

/-- The blocks of a part of B: columns, then blocks. -/
def State.fetchB (s : State) (site m : Nat) (o : MOp) (env : StepEnv) (lo hi : Nat) : Option Fetched :=
  s.fetch site m (mrK o.words) env.ecc.bad (opB o.words) (mrN o.words * mrK o.words) o.bTaken o.bBuf
    ((List.range (mrN o.words)).flatMap fun j => (List.range (hi - lo)).map fun t => (j, lo + t))

/-- The next weight slice is loaded into a weight register that is free, `room` of which there are (R88): its blocks, once
they have arrived. -/
def fillRegister (site m room : Nat) (env : StepEnv) (then_ : MOp → WPart → Prog) : Prog := .look fun s =>
  withP (s.mtile site).cur fun o =>
    let lo := o.loaded
    let hi := min (mrK o.words) (lo + sliceBlocks o)
    whenP (decide (o.parts.length < room ∧ lo < mrK o.words))
      (withP (s.fetchB site m o env lo hi) fun fb => all [
        takeIn site (mrBSrc o.words) fb.used,
        modOp site fun x => { x with loaded := hi, bBuf := fb.buf, bTaken := fb.taken,
                                     parts := x.parts ++ [⟨lo, hi, fb.blocks, []⟩] },
        then_ o ⟨lo, hi, fb.blocks, []⟩])

/-- A weight slice of an operation that is not lane-packed runs over its rows, from the register that holds it, while the
next one loads into the other (R88). A row that the gate skips counts once in each slice or part, a row that is audited not at
all (R131; DESIGN CHOICE, notes/assumptions/127.md). -/
def runSlice (site m c : Nat) (env : StepEnv) : Prog := .look fun s =>
  withP (s.mtile site).cur fun o => withP o.parts.head? fun part =>
    let ws := o.words
    let lo := part.lo
    withP (s.fetchA site m o env lo part.hi) fun fa =>
      let w := part.hi - lo
      let rows := activeRows o
      let rowAbsent := fun i => !o.dense && decide (mrCode ws = 4)
        && (List.range w).all fun t => (fa.blocks.getD (i * w + t) {}).absent
      let gone := !o.dense && decide (mrCode ws = 3) && part.blocks.all fun b => b.absent
      let cells := partCells s site o env part fa.blocks rows fun _ => List.range w
      let ca := partCounts (mrAFw ws) (aForm ws) (mrK ws) (mrPad ws) lo w
        (fun i t => rows.contains i && (List.range (mrN ws)).any fun j => !(part.blocks.getD (j * w + t) {}).absent) fa.blocks
      let cb := partCounts (mrBFw ws) (bForm ws) (mrK ws) (mrPad ws) lo w
        (fun _ t => rows.any fun i => !(fa.blocks.getD (i * w + t) {}).absent) part.blocks
      let beats := (if wsMode ws = 3 then 2 else 1) * (rows.filter fun i => !rowAbsent i).length
      let skips := (if gone then 1 else 0) + (rows.filter fun i => rowAbsent i).length + (gatedRows o).length
      let wait := if lo = 0 || gone then 0 else sliceLoadBeats o - beats
      all [
        takeIn site (mrASrc ws) fa.used,
        commitStep site c o cells (addCounts ca.1 cb.1) (ca.2 + cb.2) (if gone then 0 else beats)
          { env with stallBeats := env.stallBeats + wait } o.step true
          (fun i _ => (List.range w).map fun t => fa.blocks.getD (i * w + t) {})
          (fun _ j => (List.range w).map fun t => part.blocks.getD (j * w + t) {}),
        addZero site o (gatedRows o),
        modOp site fun x => { x with step := part.hi, aBuf := fa.buf, aTaken := fa.taken, parts := x.parts.drop 1 },
        fillRegister site m 1 env fun _ _ => .skip,
        whenP (decide (0 < skips)) (all [count64 0x2C20 0x02 skips, count64 (0x3000 + site) 0x41 skips]),
        finishArray site m c]

/-! ### Lane slots (R124 to R126, R129) -/

/-- The slots that block `t` of row `i` occupies in a part (R124, R125, R129), and its CAM misses. -/
def blockSlots (o : MOp) (p : WPart) (b : RawBlock) (t : Nat) : Nat × Nat :=
  let md := wsMode o.words
  let present := presentIn 3 b
  if bits b.word 61 56 ≤ pixThreshold md then
    if mrCode o.words = 6 then
      let hits := present.filter fun e => p.union.contains (32 * (p.lo + t) + e)
      (hits.length, present.length - hits.length)
    else (present.length, 0)
  else (32 / modeProducts md, 0)

/-- The row, block and slot count of each block of a part, in slot order. A row that the gate skips has no slots; the
blocks that a partial slice misses occupy dense slots (R124). -/
def partSlots (o : MOp) (p : WPart) (as : List RawBlock) : List (Nat × Nat × Nat) :=
  let w := p.hi - p.lo
  let full := if mrCode o.words = 5 then sliceBlocks o else w
  (activeRows o).flatMap fun i => (List.range full).map fun t =>
    (i, t, if t < w then (blockSlots o p (as.getD (i * w + t) {}) t).1 else 32 / modeProducts (wsMode o.words))

/-- The rows of consecutive slots, one entry for each slot. -/
def slotRows (xs : List (Nat × Nat × Nat)) : List Nat := xs.flatMap fun x => List.replicate x.2.2 x.1

/-- The number of slots of the lane beat that begins with the given slots: at most 64, at most four segments (R124). -/
def laneLength (rows : List Nat) (last : Option Nat) (segs n fuel : Nat) : Nat :=
  match fuel with
  | 0 => n
  | f + 1 => match rows with
    | [] => n
    | r :: rs =>
      if last = some r then laneLength rs last segs (n + 1) f
      else if segs = 4 then n
      else laneLength rs (some r) (segs + 1) (n + 1) f

/-- The slot number after each block's last slot. -/
def slotEnds (at_ : Nat) (xs : List (Nat × Nat × Nat)) : List (Nat × Nat × Nat) :=
  match xs with
  | [] => []
  | x :: xs => (x.1, x.2.1, at_ + x.2.2) :: slotEnds (at_ + x.2.2) xs

/-- The running part ends: the next one becomes the running part, and the slice counts as completed. -/
def endPart (site m c : Nat) (p : WPart) : Prog := all [
  modOp site fun x => { x with step := p.hi, lane := 0, aPart := [], parts := x.parts.drop 1 },
  count64 (0x3000 + site) 0x30 1,
  modM site fun t => { t with steps := t.steps + 1 },
  finishArray site m c]

/-- Runs the next lane beat of the running part, whose A blocks are `as`. -/
def runLaneBeat (site m c : Nat) (o : MOp) (p : WPart) (as : List RawBlock) (env : StepEnv) : Prog := .look fun s =>
  let w := p.hi - p.lo
  let slots := partSlots o p as
  let rows := (slotRows slots).drop o.lane
  let n := laneLength rows none 0 0 64
  let upto := o.lane + n
  let ends := slotEnds 0 slots
  let total := (slotRows slots).length
  let inBeat := ends.filter fun e =>
    decide (e.2.1 < w) && (decide (o.lane < e.2.2 ∧ e.2.2 ≤ upto) || decide (o.lane = 0 ∧ e.2.2 = 0))
  let doneRows := (inBeat.map fun e => e.1).eraseDups
  let ks := fun i => (inBeat.filter fun e => decide (e.1 = i)).map fun e => e.2.1
  let cells := partCells s site o env p as doneRows ks
  all [
    commitStep site c o cells (0, 0) 0 (if n = 0 then 0 else 1) env o.step false
      (fun i _ => (ks i).map fun t => as.getD (i * w + t) {})
      (fun i j => (ks i).map fun t => p.blocks.getD (j * w + t) {}),
    whenP (decide (0 < n)) (all [
      count64 0x2C20 0x03 1, count64 (0x3000 + site) 0x42 1,
      count64 0x2C20 0x04 n, count64 (0x3000 + site) 0x43 n]),
    modOp site fun x => { x with lane := upto },
    whenP (decide (total ≤ upto)) (endPart site m c p)]

/-- The A blocks of the running part arrive: they are checked and counted once, with the CAM misses and the rows that
the gate skips. (DEDUCED: notes/assumptions/64.md.) -/
def openPart (site c : Nat) (o : MOp) (p : WPart) (fa : Fetched) : Prog :=
  let ws := o.words
  let w := p.hi - p.lo
  let ca := partCounts (mrAFw ws) (aForm ws) (mrK ws) (mrPad ws) p.lo w (fun i _ => (activeRows o).contains i) fa.blocks
  let miss := ((activeRows o).flatMap fun i => (List.range w).map fun t =>
    (blockSlots o p (fa.blocks.getD (i * w + t) {}) t).2).sum
  let gated := (gatedRows o).length
  all [
    takeIn site (mrASrc ws) fa.used,
    modOp site fun x => { x with aPart := fa.blocks, aBuf := fa.buf, aTaken := fa.taken },
    addZero site o (gatedRows o),
    recordMalformed site c ca.1,
    arithEvent 0x7804 0x2C20 0x08 site 0x45 c ca.2,
    whenP (decide (0 < miss)) (count64 0x2C20 0x0A miss),
    whenP (decide (0 < gated)) (all [count64 0x2C20 0x02 gated, count64 (0x3000 + site) 0x41 gated])]

/-- One lane beat. -/
def laneBeatProg (site : Nat) (env : StepEnv) : Prog := .look fun s =>
  withP (s.arrayOp site) fun (m, c, o) => withP o.parts.head? fun p =>
    whenP (mrLanes o)
      (if !o.aPart.isEmpty then runLaneBeat site m c o p o.aPart env
       else withP (s.fetchA site m o env p.lo p.hi) fun fa =>
         .seq (openPart site c o p fa)
           (.look fun t => withP (t.mtile site).cur fun o' => runLaneBeat site m c o' p o'.aPart env))

/-- LANE_BEAT (R124). -/
def execLaneBeat (site : Site) (env : StepEnv) (s : State) : Host.Outcome State Fault Refusal :=
  finish (laneBeatProg site env) s

/-- A weight slice of a lane-packed operation is loaded into a free weight register (R88): its blocks are checked and counted
as they load. -/
def loadSlice (site m c : Nat) (env : StepEnv) : Prog :=
  fillRegister site m 2 env fun o p =>
    let cb := partCounts (mrBFw o.words) (bForm o.words) (mrK o.words) (mrPad o.words) p.lo (p.hi - p.lo)
      (fun _ _ => true) p.blocks
    all [
      siteCount64 site 0x32 env.stallBeats,
      storeErrors site env.ecc,
      recordMalformed site c cb.1,
      arithEvent 0x7804 0x2C20 0x08 site 0x45 c cb.2]

/-- The part in the weight register of a site's operation can run: its A blocks have arrived. -/
def State.sliceRuns (s : State) (site m : Nat) (env : StepEnv) : Bool := match (s.mtile site).cur with
  | some o => (match o.parts.head? with
    | some part => (s.fetchA site m o env part.lo part.hi).isSome
    | none => false)
  | none => false

/-- A weight slice: the first of an operation loads before it runs, each later one has loaded while the one before it
ran, if it had arrived (R88). What a load without a run met counts with the load (R95). -/
def weightSliceProg (site : Nat) (env : StepEnv) : Prog := .look fun s =>
  withP (s.arrayOp site) fun (m, c, o) =>
    if !mrWS o.words || mrCam o then .skip
    else if mrLanes o then loadSlice site m c env
    else .seq (fillRegister site m 1 env fun _ _ => .skip) (.look fun t =>
      if t.sliceRuns site m env then runSlice site m c env
      else whenP ((t.mtile site).cur != (s.mtile site).cur) (.seq (siteCount64 site 0x32 env.stallBeats) (storeErrors site env.ecc)))

/-- WEIGHT_SLICE (R88). -/
def execWeightSlice (site : Site) (env : StepEnv) (s : State) : Host.Outcome State Fault Refusal :=
  finish (weightSliceProg site env) s

/-! ### CAM windows (R127, R128) -/

/-- The positions of block `t` present in at least one column, of blocks laid out column by column, `w` to a column. -/
def unionOf (bs : List RawBlock) (w t lo : Nat) : List Nat :=
  (List.range 32).filterMap fun e =>
    if (bs.zip (List.range bs.length)).any fun p => decide (p.2 % w = t) && (presentIn 3 p.1).contains e
    then some (32 * (lo + t) + e) else none

/-- The longest run of whole blocks whose union fits in `kw` rows (R128), at least one block. -/
def fitBlocks (kw : Nat) (sizes : List Nat) (used n : Nat) : Nat :=
  match sizes with
  | [] => n
  | x :: xs => if used + x ≤ kw || n = 0 then fitBlocks kw xs (used + x) (n + 1) else n

/-- Loads the next window, or the next part of a split one, into the free half of the CAM. -/
def camLoadProg (site : Nat) (env : StepEnv) : Prog := .look fun s =>
  withP (s.arrayOp site) fun (m, c, o) =>
    let ws := o.words
    let lo := o.loaded
    let windowEnd := min (mrK ws) ((lo / mrWindow ws + 1) * mrWindow ws)
    whenP (mrCam o && decide (lo < mrK ws ∧ o.parts.length < 2))
      (withP (s.fetchB site m o env lo windowEnd) fun fb =>
        let w := windowEnd - lo
        let unions := (List.range w).map fun t => unionOf fb.blocks w t lo
        let fit := fitBlocks (modeKw (wsMode ws)) (unions.map fun u => u.length) 0 0
        let kept := (fb.blocks.zip (List.range fb.blocks.length)).filterMap fun p => if p.2 % w < fit then some p.1 else none
        let rest := (fb.blocks.zip (List.range fb.blocks.length)).filterMap fun p => if fit ≤ p.2 % w then some p.1 else none
        let cb := partCounts (mrBFw ws) 3 (mrK ws) (mrPad ws) lo fit (fun _ _ => true) kept
        all [
          takeIn site (mrBSrc ws) fb.used,
          modOp site fun x => { x with
            loaded := lo + fit, bTaken := fb.taken, bBuf := if mrBSrc ws = 4 then [] else rest ++ fb.buf
            parts := x.parts ++ [⟨lo, lo + fit, kept, (unions.take fit).flatten⟩] },
          siteCount64 site 0x32 env.stallBeats,
          storeErrors site env.ecc,
          recordMalformed site c cb.1,
          arithEvent 0x7804 0x2C20 0x08 site 0x45 c cb.2,
          whenP (decide (fit < w)) (arithEvent 0x7805 0x2C20 0x09 site 0x44 c 1)])

/-- CAM_WINDOW_LOAD (R127). -/
def execCamWindowLoad (site : Site) (env : StepEnv) (s : State) : Host.Outcome State Fault Refusal :=
  finish (camLoadProg site env) s

/-! ## DRAIN_ROW (R90, R96, R97, R131) -/

/-- The accumulators of a row as the drain sees them: a row that the gate skipped is positive zero, poisoned when its keep bit
was (R65, R131). -/
def State.drainValues (s : State) (site : Nat) (o : MOp) (i : Nat) : List FWord :=
  (List.range (mrN o.words)).map fun j =>
    if rowGated o i then { poison := o.keepBad.testBit i } else s.accAt (accKey site o i j)

/-- The random value of an output element (R76, R90). -/
def outRand (ws : List Nat) (i e : Nat) : Nat :=
  randomValue (mrSeed ws) (mrTensor ws) (mrBase ws + i * mrStride ws + e)

/-- The elements of a row of a BF16 or FP32 output, each with its own mark (R65, R90). -/
def rowElements (ws : List Nat) (i : Nat) (vals : List FWord) : List (Conv × Bool) :=
  (vals.zip (List.range vals.length)).map fun p => (rawConv (mrOutFw ws) (outRand ws i p.2) p.1.val, p.1.poison)

/-- The quantised blocks of a row and what the quantiser counted (R73, R90). A block with a poisoned input is poisoned and
counts nothing (R65). -/
def rowBlocks (ws : List Nat) (limit i : Nat) (vals : List FWord) : List (RawBlock × QStats) :=
  (List.range (ceilDiv vals.length 32)).map fun q =>
    let part := (vals.drop (32 * q)).take 32
    let nums := (part.map fun v => num32 v.val) ++ List.replicate (32 - part.length) (.fin Dy.zero)
    let bad := part.any fun v => v.poison
    let b := quantiseBlock (mrOutFw ws) limit (fun e => outRand ws i (32 * q + e)) nums
    ({ b.1.raw with poison := bad }, if bad then {} else b.2)

/-- Sends a row of elements of `w` bytes: raw FP32, or the elements of a BF16 or FP32 output (R97, R214).
(DEDUCED: notes/assumptions/28.md.) -/
def drainElements (site m w : Nat) (ws : List Nat) (i : Nat) (xs : List (Nat × Bool)) : Prog :=
  if mrDst ws = 4 then
    eachP (xs.zip (List.range xs.length)) fun p =>
      drainWrite m (64 * mrOutLine ws + w * (i * mrN ws + p.2)) (toBytes w p.1.1) p.1.2
  else pushOut site (mrDst ws) (elementTransfers w xs)

/-- Sends a raw FP32 row (R97). -/
def drainRaw (site m : Nat) (ws : List Nat) (i : Nat) (vals : List FWord) : Prog :=
  drainElements site m 4 ws i (vals.map fun v => (v.val.toNat, v.poison))

/-- Sends the quantised blocks of a row: to the store, or on Bond in runs of 8 blocks, the last of the operation maybe
shorter (R214, R215). (DEDUCED: notes/assumptions/28.md.) -/
def drainBlocks (site m : Nat) (o : MOp) (i : Nat) (bs : List RawBlock) : Prog :=
  let ws := o.words
  let per := ceilDiv (mrN ws) 32
  if mrDst ws = 4 then
    eachP (bs.zip (List.range bs.length)) fun p =>
      writeStored m (mrOutFw ws) (mrOutLine ws) (mrOutWords ws) (i * per + p.2) p.1
  else
    let buf := o.outBlocks ++ bs
    let n := if i + 1 = mrM ws then buf.length else buf.length / 8 * 8
    .seq (pushOut site (mrDst ws) (streamTransfers (mrOutFw ws) 0 n (buf.take n)))
      (modM site fun t => { t with drains := t.drains.map fun d => if d = o then { d with outBlocks := buf.drop n } else d })

/-- The next row of the oldest draining operation leaves. -/
def drainRowProg (site : Nat) (stall : Nat) : Prog := .look fun s =>
  let t := s.mtile site
  match s.active site, s.tileOf site, t.drains with
  | some r, some l, o :: rest =>
    let ws := o.words
    let waiting := t.dispute.isSome && rest.isEmpty && t.cur.isNone
    whenP (tileType l == 0 && !t.halted && !waiting && (mrDst ws == 4 || s.outFree site (mrDst ws))) (
      let vals := s.drainValues site o o.row
      all [
        if mrOut ws = 1 then drainRaw site (mIndex l) ws o.row vals
        else if 5 ≤ fwBase (mrOutFw ws) then
          let xs := rowElements ws o.row vals
          .seq (drainElements site (mIndex l) (rawWidth (mrOutFw ws)) ws o.row (xs.map fun x => (x.1.code, x.2)))
            (recordStats site r.ctx (rawStats xs))
        else
          let bs := rowBlocks ws (s.reg 0x2C03 0x01) o.row vals
          .seq (drainBlocks site (mIndex l) o o.row (bs.map fun b => b.1))
            (recordStats site r.ctx ((bs.map fun b => b.2).foldl QStats.add {})),
        siteCount64 site 0x33 stall,
        modM site fun x => { x with drains := match x.drains with
          | [] => []
          | d :: ds => if d.row + 1 < mrM ws then { d with row := d.row + 1 } :: ds else ds }])
  | _, _, _ => .skip

/-- DRAIN_ROW (R96). -/
def execDrainRow (site : Site) (stallBeats : Nat) (s : State) : Host.Outcome State Fault Refusal :=
  finish (drainRowProg site stallBeats) s

/-! ## Verdicts and sequencers (R102, R105, R106) -/

/-- The number of a verdict in event 0x7402. -/
def verdictCode (v : Verdict) : Nat := match v with
  | .main => 0 | .checker => 1 | .unresolved => 2

/-- Applies the verdict that the controller has delivered to the dispute that a site holds (R102): an unresolved one poisons
the whole column of the accumulator bank. A halted tile holds none. -/
def applyVerdict (site : Nat) (v : Verdict) (holdBeats : Nat) : Prog := .look fun s =>
  withP (s.mtile site).dispute fun d =>
    let o : MOp := { words := d.words, bank := d.bank }
    whenP (d.verdict == some v) (all [
      eachP (d.rows.filter fun r => decide (r.row < mrM d.words)) fun r => .eff (.acc (accKey site o r.row d.col)
        (match v with
         | .main => { val := r.mainAcc, poison := r.poison }
         | .checker => { val := r.checkAcc, poison := r.poison }
         | .unresolved => { val := r.mainAcc, poison := true })),
      match v with
      | .unresolved => eachP (List.range (mrM d.words)) fun i => withState fun t =>
          .acc (accKey site o i d.col) { t.accAt (accKey site o i d.col) with poison := true }
      | _ => .skip,
      modM site fun t => { t with dispute := none },
      siteCount64 site 0x36 holdBeats,
      report 0x7402 0 site site (verdictCode v),
      withP (s.tileOf site) fun l => finishArray site (mIndex l) d.ctx,
      match v with
      | .unresolved => poisonDeath d.ctx 0 site site
      | _ => .skip])

/-- VERDICT_APPLY (R102). -/
def execVerdictApply (site : Site) (v : Verdict) (holdBeats : Nat) (s : State) : Host.Outcome State Fault Refusal :=
  finish (applyVerdict site v holdBeats) s

/-- The sequencers of a site work: main power and its island are up and it is not fenced. -/
def State.sequencersUp (s : State) (site : Nat) : Bool :=
  s.mainOn && (s.reg (0x4000 + siteIsland site) 0x01 == 2 || s.reg (0x4000 + siteIsland site) 0x01 == 3) && !s.isFenced site

/-- The context whose section stands on a site, 0xFF when none does. -/
def State.standingCtx (s : State) (site : Nat) : Nat := match s.runningAt site with
  | some r => r.ctx
  | none => 0xFF

/-- A tile's two sequencers differ: it halts, abandons a dispute and becomes a fence candidate (R105, R106, R374).
(DEDUCED: notes/assumptions/95.md.) -/
def sequencerMismatch (site holdBeats : Nat) : Prog := .look fun s =>
  whenP (s.sequencersUp site && !(s.mtile site).halted) (all [
    modM site fun t => { t with halted := true, dispute := none },
    count32 (0x3000 + site) 0x37 1,
    report 0x7403 0 site (s.standingCtx site) site,
    whenP (s.mtile site).dispute.isSome (all [
      siteCount64 site 0x36 holdBeats,
      report 0x7402 0 site site 3,
      withState fun t => .votesWaiting (t.votesWaiting.filter fun n => decide (n ≠ site)),
      withState fun t => .votes (t.votes.filter fun w => decide (w.site ≠ site))]),
    siteFault site 1 600])

/-- SEQUENCER_MISMATCH (R105). -/
def execSequencerMismatch (site : Site) (holdBeats : Nat) (s : State) : Host.Outcome State Fault Refusal :=
  finish (sequencerMismatch site holdBeats) s

/-! ## The locks of an operand store (R94) -/

/-- The element and block-word lines of an operand that a record reads from the store, as pairs of first line and
count. -/
def operandData (o : Operand) (vectors kb : Nat) : List (Nat × Nat) :=
  if o.src ≠ 4 ∨ vectors * kb = 0 then []
  else
    let n := vectors * kb
    (o.el, ceilDiv (n * storedBytes o.fw o.form) 64) ::
      (if fwBase o.fw = 5 ∨ fwBase o.fw = 6 then [] else [(o.wl, ceilDiv (if fwFramed o.fw then 8 * n else n) 64)])

/-- The index lines of an operand in the store, and its map lines, which lie there whatever its source (R111, R114,
R214). -/
def operandIndex (o : Operand) (vectors kb : Nat) : List (Nat × Nat) :=
  if vectors * kb = 0 then []
  else if o.form = 2 then [(o.il, ceilDiv (32 * (ceilDiv vectors 16 * ceilDiv kb 16)) 64)]
  else if hasIndex o.form && decide (o.src = 4) then [(o.il, ceilDiv (4 * (vectors * kb)) 64)]
  else []

/-- The mask lines of a masked output (R123). -/
def maskLines (ws : List Nat) : List (Nat × Nat) :=
  if mrCode ws = 7 then [(mrIndex1 ws, ceilDiv (4 * mrN ws * ceilDiv (2 * mrM ws) 32) 64)] else []

/-- The index, map and mask lines of a record. -/
def indexLines (ws : List Nat) : List (Nat × Nat) :=
  operandIndex (opA ws) (mrM ws) (mrK ws) ++ operandIndex (opB ws) (mrN ws) (mrK ws) ++ maskLines ws

/-- The element, block-word and C lines of a record's sources. -/
def dataLines (ws : List Nat) : List (Nat × Nat) :=
  operandData (opA ws) (if mrCode ws = 7 then 2 * mrM ws else mrM ws) (mrK ws) ++ operandData (opB ws) (mrN ws) (mrK ws)
    ++ (if mrInit ws = 2 ∧ mrCSrc ws = 4 then [(mrCLine ws, ceilDiv (4 * mrM ws * mrN ws) 64)] else [])

/-- The lines that an operation record names as A, B or C sources. -/
def sourceLines (ws : List Nat) : List (Nat × Nat) :=
  dataLines ws ++ indexLines ws ++ (if mrGate ws then [(mrKeepLine ws, 1)] else [])

/-- A line of a site's store is locked by the section that runs there (R94). -/
def State.lineLocked (s : State) (site line : Nat) : Bool :=
  match s.planOf site with
  | none => false
  | some p => p.recs.any fun ws => !mrNone ws &&
      (sourceLines ws).any fun x => decide (x.1 ≤ line ∧ line < x.1 + x.2)

/-- A write to a range of a store touches a locked line. -/
def State.writeLocked (s : State) (site off len : Nat) : Option Nat :=
  ((List.range (if len = 0 then 0 else (off + len - 1) / 64 - off / 64 + 1)).map fun i => off / 64 + i).find? fun l =>
    s.lineLocked site l

/-- A write to a locked line is rejected: reported and counted. `bond` says that a route brought it, which kills the
context of the section. -/
def rejectStoreWrite (site line : Nat) (bond : Bool) : Prog := .look fun s =>
  withP (s.active site) fun r => all [
    count32 (0x3000 + site) 0x3A 1,
    reportOnce 0x7405 r.ctx site 0 site site line,
    whenP bond (killContext r.ctx 0x7405)]

end Sys2Proof.Machine
end

