-- ==== Sys2Proof/Machine/Special.lean ====
section
/-! DEFINITION. Special functions (R178, Table 07-3): each function's exact value as a fixed-point number of 400 fraction
bits, and the FP32 words within the stated error of it. The device's own choice among those words is `Config.specialChoice`
(notes/assumptions/40.md). -/

namespace Sys2Proof.Machine

open Sys2Proof

/-! ## Exact values in 400 fraction bits -/

/-- The fraction bits of a fixed-point value. -/
def fixBits : Nat := 400

/-- One. -/
def fixOne : Int := 2 ^ fixBits

/-- The natural logarithm of 2. -/
def fixLn2 : Int :=
  1789879222497203190815761498240779176894896805856420935579692301363062920687047601279850318367644315849030039181347319086

/-- Two divided by the square root of pi. -/
def fixErfScale : Int :=
  2913756966668194800300214067270034030186276855045544562015353861004409627435460814446341471088463227900768995815277951550

/-- The product of two fixed-point values. -/
def fixMul (a b : Int) : Int := a * b / fixOne

/-- A value of at most 400 fraction bits in fixed point. -/
def Dy.fixed (d : Dy) : Int := if 0 ≤ d.e + fixBits then d.m * pow2 (d.e + fixBits) else d.m / pow2 (-(d.e + fixBits))

/-- A fixed-point value. -/
def ofFixed (x : Int) : Dy := ⟨x, -(fixBits : Int)⟩

/-- `n` terms of a series: `next k t` is the term after term `k`, and `part k t` what term `k` adds. -/
def fixSeries (n : Nat) (next part : Nat → Int → Int) (t : Int) : Int :=
  ((List.range n).foldl (fun (p : Int × Int) k => (p.1 + part k p.2, next k p.2)) (0, t)).1

/-- The exponential of a value between −110 and 110: a power of 2 times the exponential series of the remainder. -/
def expDy (x : Dy) : Dy :=
  let k := x.fixed / fixLn2
  let r := x.fixed - k * fixLn2
  (ofFixed (fixSeries 100 (fun n t => fixMul t r / ((n : Int) + 1)) (fun _ t => t) fixOne)).scale k

/-- The natural logarithm of a positive value: its exponent times that of 2, and the series of the inverse hyperbolic
tangent. -/
def logDy (x : Dy) : Dy :=
  let f := (x.scale (-x.log2)).fixed
  let z := (f - fixOne) * fixOne / (f + fixOne)
  ofFixed (x.log2 * fixLn2
    + 2 * fixSeries 140 (fun _ t => fixMul t (fixMul z z)) (fun k t => t / (2 * (k : Int) + 1)) z)

/-- The integer square root of a number below `2^(2n)`, bit by bit. -/
def rootBits (n v : Nat) : Nat :=
  (List.range n).foldl (fun r k =>
    let c := r + 2 ^ (n - 1 - k)
    if c * c ≤ v then c else r) 0

/-- One divided by the square root of a positive value. -/
def rsqrtDy (x : Dy) : Dy :=
  let odd := x.e % 2
  let m := x.m.natAbs * 2 ^ odd.toNat
  ⟨(rootBits 404 (2 ^ 800 / m) : Int), -400 - (x.e - odd) / 2⟩

/-- A value just below one. -/
def almostOne : Dy := ⟨2 ^ 60 - 1, -60⟩

/-- The hyperbolic tangent of a positive value. -/
def tanhDy (x : Dy) : Dy :=
  if Dy.le ⟨20, 0⟩ x then almostOne
  else
    let e := (expDy (x.scale 1)).fixed
    ofFixed ((e - fixOne) * fixOne / (e + fixOne))

/-- The error function of a positive value, by its alternating series. -/
def erfDy (x : Dy) : Dy :=
  if Dy.le ⟨6, 0⟩ x then almostOne
  else
    let y := fixMul x.fixed x.fixed
    let s := fixSeries 320 (fun n t => -(fixMul t y / ((n : Int) + 1))) (fun n t => t / (2 * (n : Int) + 1)) fixOne
    x.mul (ofFixed (fixMul s fixErfScale))

/-! ## The words within the stated error -/

/-- The value of an FP32 magnitude, infinity standing at the next power of two. -/
def magnitude32 (c : Nat) : Dy := if c = 0x7F800000 then ⟨1, 128⟩ else numVal (EFmt.fp32.decode c)

/-- One unit in the last place of a positive value. -/
def ulp32 (v : Dy) : Dy := ⟨1, EFmt.fp32.quantum v⟩

/-- The FP32 magnitudes within `n` units in the last place of a positive value; a value above every finite one gives
infinity alone (R178). -/
def nearWords (n : Nat) (v : Dy) : List Nat :=
  if Dy.lt ⟨1, 128⟩ v then [0x7F800000]
  else
    let c := (round32 v false).toNat
    ((List.range 9).map fun k => c + k - 4).eraseDups.filter fun w =>
      decide (w ≤ 0x7F800000) && ((magnitude32 w).add v.neg).abs.le ((ulp32 v).mul ⟨n, 0⟩)

/-- The FP32 words that a special function may give on a finite input that is not one of its special cases
(Table 07-3). -/
def specialWords (op : Nat) (d : Dy) : List Nat :=
  let signed := fun (neg : Bool) (ws : List Nat) => if neg then ws.map fun w => w + 0x80000000 else ws
  match op with
  | 0x06 =>
    if Dy.le ⟨110, 0⟩ d then [0x7F800000]
    else if d.le ⟨-110, 0⟩ then nearWords 1 ⟨1, -158⟩ else nearWords 1 (expDy d)
  | 0x07 =>
    let v := logDy d
    if v.m = 0 then [0, 1, 0x80000000, 0x80000001] else signed (decide (v.m < 0)) (nearWords 1 v.abs)
  | 0x08 => nearWords 1 (rsqrtDy d)
  | 0x0A => signed (decide (d.m < 0)) (nearWords 2 (tanhDy d.abs))
  | _ => signed (decide (d.m < 0)) (nearWords 2 (erfDy d.abs))

/-- The result of a special function on a finite input that is not one of its special cases: one of the words within the
stated error, always the same for the same input. -/
def nearSpecial (op : Nat) (x : F32) (d : Dy) : F32 :=
  let ws := specialWords op d
  BitVec.ofNat 32 (ws.getD (Config.specialChoice op x % max 1 ws.length) 0)

/-- A special function's result, and whether its input is outside the domain. (DEDUCED: notes/assumptions/40.md.) -/
def specialFn (op : Nat) (x : F32) : F32 × Bool :=
  match op, num32 x with
  | _, .nan => (nan32, false)
  | 0x06, .inf n => (if n then 0 else inf32 false, false)
  | 0x07, .inf n => if n then (nan32, true) else (inf32 false, false)
  | 0x08, .inf n => if n then (nan32, true) else (0, false)
  | 0x09, .inf n => (if n then 0x80000000 else 0, false)
  | _, .inf n => (if n then 0xBF800000 else 0x3F800000, false)
  | 0x06, .fin d => (nearSpecial 0x06 x d, false)
  | 0x07, .fin d =>
    if d.m = 0 then (inf32 true, false) else if d.m < 0 then (nan32, true) else (nearSpecial 0x07 x d, false)
  | 0x08, .fin d =>
    if d.m = 0 then (inf32 (neg32 x), false) else if d.m < 0 then (nan32, true) else (nearSpecial 0x08 x d, false)
  | 0x09, .fin d => if d.m = 0 then (inf32 (neg32 x), false) else (div32 ⟨1, 0⟩ d false, false)
  | op, .fin d => if d.m = 0 then (x, false) else (nearSpecial op x d, false)

end Sys2Proof.Machine
end

