-- ==== Sys2Proof/Machine/Lanes.lean ====
section
/-! DEFINITION. The F-tile: function records, elementwise and special functions, reductions, softmax statistics, quantisers
and compressors (R174 to R183), and the U2 halt word and execution mode (R184, R189). -/

namespace Sys2Proof.Machine

open Sys2Proof

/-! ## Function records (Table 07-1) -/

/-- The opcode. -/
def frOp (ws : List Nat) : Nat := bits (mrWord ws 0) 63 56
/-- The A register. -/
def frA (ws : List Nat) : Nat := bits (mrWord ws 0) 55 50
/-- The B register. -/
def frB (ws : List Nat) : Nat := bits (mrWord ws 0) 49 44
/-- The C register. -/
def frC (ws : List Nat) : Nat := bits (mrWord ws 0) 43 38
/-- The destination. -/
def frD (ws : List Nat) : Nat := bits (mrWord ws 0) 37 32
/-- The A source, 4 the register file. -/
def frSrc (ws : List Nat) : Nat := bits (mrWord ws 0) 31 29
/-- The output, 4 the register file. -/
def frOut (ws : List Nat) : Nat := bits (mrWord ws 0) 28 26
/-- The engine input that a record reads: a U2 operation names its port in a fifth word. -/
def frInPort (ws : List Nat) : Nat := if ws.length = 5 ∧ frSrc ws ≠ 4 then bits (mrWord ws 4) 3 0 else frSrc ws
/-- The engine output that a record writes, likewise. -/
def frOutPort (ws : List Nat) : Nat := if ws.length = 5 ∧ frOut ws ≠ 4 then bits (mrWord ws 4) 7 4 else frOut ws
/-- The length. -/
def frLen (ws : List Nat) : Nat := bits (mrWord ws 0) 25 11
/-- The format word. -/
def frFw (ws : List Nat) : Nat := bits (mrWord ws 1) 63 32
/-- The sparse form word. -/
def frSf (ws : List Nat) : Nat := bits (mrWord ws 1) 31 0
/-- The seed. -/
def frSeed (ws : List Nat) : Nat := mrWord ws 2
/-- The tensor ID. -/
def frTensor (ws : List Nat) : Nat := bits (mrWord ws 3) 63 40
/-- The base element index. -/
def frBase (ws : List Nat) : Nat := bits (mrWord ws 3) 39 0
/-- The registers that a vector of the record occupies. -/
def frRegs (ws : List Nat) : Nat := ceilDiv (frLen ws) 256

/-- The operands that an opcode reads: A, B, C (Table 07-2). -/
def opReads (op : Nat) : Bool × Bool × Bool :=
  match op with
  | 0x01 => (true, true, true)
  | 0x02 | 0x03 | 0x04 | 0x05 | 0x13 => (true, true, false)
  | _ => (true, false, false)

/-- Beats per register of an opcode (Table 07-2). -/
def opBeats (ws : List Nat) : Nat :=
  match frOp ws with
  | 0x06 | 0x07 | 0x08 | 0x09 => 2
  | 0x0A | 0x0B => 4
  | 0x12 => 3
  | 0x21 => if sfTranspose (frSf ws) then 8 else 2
  | _ => 1

/-! ## The arithmetic of a context's mode (R58, R178, R179, R186) -/

/-- The 64-bit words of the operand store of the M-tile that is a site's partner, which hold the constant tables of a U2
unit (R185). -/
def State.u2Tables (s : State) (site : Nat) : List Nat :=
  let l := (s.tileOf site).getD 64
  (List.range 65536).map fun i => (s.storeRead (mIndex (l - 64)) [] (8 * i) 8).1

/-- A context runs in U2 mode (R184). -/
def State.u2Mode (s : State) (c : Nat) : Bool := s.reg (0x2700 + c) 0x20 == 1

/-- A subnormal word becomes +0 (R186). -/
def flush32 (x : F32) : F32 := if x.toNat / 2 ^ 23 % 256 = 0 ∧ x.toNat % 2 ^ 23 ≠ 0 then 0 else x

/-- What a lane does with one, two or three words: its FMA path, its reduction path, its special functions. -/
structure Arith where
  op : (F32 → F32 → F32 → F32) → F32 → F32 → F32 → F32
  reduce : (F32 → F32 → F32) → F32 → Nat → List F32 → F32
  special : Nat → F32 → F32 × Bool

/-! ### Reductions (R179) -/

/-- One level of the tree: adjacent pairs combined. -/
def treeLevel (f : F32 → F32 → F32) (xs : List F32) : List F32 :=
  match xs with
  | a :: b :: xs => f a b :: treeLevel f xs
  | xs => xs

/-- `n` levels of the tree. -/
def tree (f : F32 → F32 → F32) (n : Nat) (xs : List F32) : List F32 :=
  match n with
  | 0 => xs
  | n + 1 => tree f n (treeLevel f xs)

/-- The reduction of a vector: eight levels in each register, padding lanes entering as `pad`, then the registers in
ascending order. A sum, whose padding is +0, of inputs that are all −0 is +0 even where no lane is padding, as the sentence after
the rule says and the tree alone would not give (DESIGN CHOICE, notes/assumptions/128.md). -/
def reduceVec (f : F32 → F32 → F32) (pad : F32) (regs : Nat) (xs : List F32) : F32 :=
  let part := fun k => (tree f 8 (((xs.drop (256 * k)).take 256) ++
    List.replicate (256 - ((xs.drop (256 * k)).take 256).length) pad)).headD pad
  let r := (List.range (regs - 1)).foldl (fun acc k => f acc (part (k + 1))) (part 0)
  if pad = 0 ∧ r = 0x80000000 then 0 else r

/-- The native arithmetic: IEEE 754 with subnormals, the tree of R179, the special functions of Table 07-3. -/
def nativeArith : Arith := { op := fun f => f, reduce := reduceVec, special := specialFn }

/-- The arithmetic of a U2 context (R186): subnormal inputs and results become +0, lanes are reduced one after another in
ascending order from the first, and special functions come from the U2 tables. A NaN is canonical as everywhere (R57), and an
input outside the domain gives NaN and is counted (R178). (DESIGN CHOICE: notes/assumptions/22.md.) -/
def u2Arith (tables : List Nat) : Arith := {
  op := fun f x y z => flush32 (f (flush32 x) (flush32 y) (flush32 z))
  reduce := fun f pad _ xs => match xs with
    | [] => pad
    | x :: xs => canonNan (xs.foldl (fun acc y => flush32 (f acc (flush32 y))) (flush32 x))
  special := fun op x =>
    if (specialFn op (flush32 x)).2 then (nan32, true)
    else (canonNan (flush32 (Config.u2Special op tables (flush32 x))), false) }

/-- The arithmetic of a context at a site. -/
def State.arith (s : State) (site c : Nat) : Arith := if s.u2Mode c then u2Arith (s.u2Tables site) else nativeArith

/-! ### Softmax statistics (R180, R181) -/

/-- `a − b`. -/
def Arith.sub (ar : Arith) (a b : F32) : F32 := ar.op (fun x y _ => add32 x (y ^^^ 0x80000000)) a b 0

/-- The EXP of the special functions. -/
def Arith.exp (ar : Arith) (x : F32) : F32 := (ar.special 0x06 x).1

/-- The statistics of SOFTMAX_STATS (R181): the maximum and the sum of exponentials. The difference from the maximum is rounded to
FP32 before its EXP (DESIGN CHOICE, notes/assumptions/129.md). -/
def softmaxStats (ar : Arith) (regs : Nat) (xs : List F32) : F32 × F32 :=
  let m := ar.reduce max32 (inf32 true) regs xs
  let es := xs.map fun a => if m = inf32 true then (0x3F800000 : F32) else ar.exp (ar.sub a m)
  (m, ar.reduce add32 0 regs es)

/-- SOFTMAX_COMBINE (R180). -/
def softmaxCombine (ar : Arith) (m1 s1 m2 s2 : F32) : F32 × F32 :=
  let m := ar.op (fun x y _ => max32 x y) m1 m2 0
  let add := fun a b => ar.op (fun x y _ => add32 x y) a b 0
  let mul := fun a b => ar.op (fun x y _ => mul32 x y) a b 0
  if m1 = inf32 true ∧ m2 = inf32 true then (inf32 true, add s1 s2)
  else (m, add (mul s1 (ar.exp (ar.sub m1 m))) (mul s2 (ar.exp (ar.sub m2 m))))

/-! ## Vectors of the register file -/

/-- The key of lane `e` of the vector that begins at a register. -/
def vkey (site reg e : Nat) : Nat := site * 16384 + reg * 256 + e

/-- A vector of the register file; an uncorrectable word is a poisoned lane (R183). -/
def State.vector (s : State) (site reg len : Nat) (bad : List (Nat × Nat)) : List FWord :=
  (List.range len).map fun e =>
    let w := s.vregAt (vkey site reg e)
    if bad.contains (reg + e / 256, e % 256) then { w with poison := true } else w

/-- Writes a vector to the register file from lane 0 of a register. -/
def writeVector (site reg : Nat) (vs : List FWord) : Prog :=
  eachP (vs.zip (List.range vs.length)) fun p => .eff (.vreg (vkey site reg p.2) p.1)

/-- Raw FP32 words as transfers, 16 to a transfer. -/
def rawTransfers (vs : List FWord) : List Transfer :=
  (List.range (ceilDiv vs.length 16)).map fun q =>
    let part := (vs.drop (16 * q)).take 16
    { data := packCodes 32 (part.map fun v => v.val.toNat), poison := part.any fun v => v.poison }

/-- A result leaves for the register file or a Bond port. -/
def sendVector (site : Nat) (ws : List Nat) (vs : List FWord) : Prog :=
  if frOut ws = 4 then writeVector site (frD ws) vs else pushOut site (frOutPort ws) (rawTransfers vs)

/-- The FP32 words that transfers carry, 16 each. -/
def streamWords (ts : List Transfer) : List FWord :=
  ts.flatMap fun t => (List.range 16).map fun i =>
    { val := BitVec.ofNat 32 (t.data / 2 ^ (32 * i) % 2 ^ 32), poison := t.poison }

/-! ## Input -/

/-- The form of a run of blocks by its block words (Table 05-2): the greatest form code among them. Where every word is zero the
blocks are absent ones of a BSB16 tensor, unless the base tag T2 makes such words those of dense blocks (R114; DESIGN CHOICE,
notes/assumptions/40.md). -/
def runForm (fw : Nat) (words : List Nat) : Nat :=
  if sparseTensor fw && fwBase fw != 0 && words.all (fun w => w == 0) then 2
  else (words.map fun w => bits w 55 54).foldl max 0

/-- The block words in the first transfer of a run. -/
def metaWords (ts : List Transfer) (r : Nat) : List Nat :=
  (List.range r).map fun i => (ts.headD {}).data / 2 ^ (64 * i) % 2 ^ 64

/-- Reads `n` blocks of a stream, each run in the form that its words name: the blocks with their forms, and the transfers
used. -/
def readBlocks (fw fuel n : Nat) (ts : List Transfer) : Option (List (RawBlock × Nat) × Nat) :=
  match fuel with
  | 0 => if n = 0 then some ([], 0) else none
  | f + 1 =>
    if n = 0 then some ([], 0)
    else
      let r := min 8 n
      let form := if runMeta fw 0 = 0 then 0 else runForm fw (metaWords ts r)
      match readRun fw form r ts with
      | none => none
      | some (bs, k) => (readBlocks fw f (n - r) (ts.drop k)).map fun p => (bs.map (fun b => (b, form)) ++ p.1, k + p.2)

/-- The element values of a block of a run widened exactly to FP32; a structural zero is +0; a poisoned or malformed block
gives poisoned lanes (R64, R65, R115, R183). A block word of zero in a BSB16 run is an absent block's (R214). -/
def widenBlock (fw form : Nat) (b : RawBlock) : List FWord :=
  let absent := form == 2 && decide (b.word = 0)
  let bad := b.poison || (!absent && blockBad fw form b)
  (List.range 32).map fun e =>
    { val := if absent then 0 else match elemNum fw form b e with
        | some x => of32 x
        | none => 0
      poison := bad }

/-- The malformed blocks of a list. -/
def malformedIn (fw : Nat) (bs : List (RawBlock × Nat)) : List (RawBlock × Nat) :=
  bs.filter fun p => !p.1.poison && !(p.2 == 2 && decide (p.1.word = 0)) && blockBad fw p.2 p.1

/-- Element `e` of a BF16 or FP32 vector that transfers carry, widened to FP32 (R57, R174). -/
def rawElement (fw : Nat) (vs : List FWord) (e : Nat) : FWord :=
  if fwBase fw = 5 then
    let w := vs.getD (e / 2) {}
    { w with val := ofBf16 (w.val.toNat / 2 ^ (16 * (e % 2)) % 65536) }
  else vs.getD e {}

/-- An element of a BF16 or FP32 vector that a lane holds, widened to FP32 (R174). -/
def laneElement (fw : Nat) (w : FWord) : FWord :=
  if fwBase fw = 5 then { val := ofBf16 (w.val.toNat % 65536), poison := w.poison } else { val := w.val, poison := w.poison }

/-- The bits of an element code of a stored block. -/
def codeWidth (fw word : Nat) : Nat := if fwBase fw = 4 then 8 else tagWidth (bits word 63 62)

/-- Element `e` of a block of a form in a lane: its code, zero where it is a structural zero, with the block's words (R174,
R175). -/
def fileLane (fw form : Nat) (b : RawBlock) (e : Nat) : FWord :=
  { val := BitVec.ofNat 32 ((codeAt form (codeWidth fw b.word) b e).getD 0), poison := b.poison
    blockWord := b.word, blockIndex := b.index }

/-- The block that 32 lanes of the register file hold. -/
def fileBlock (fw form : Nat) (vs : List FWord) : RawBlock :=
  let word := (vs.headD {}).blockWord
  let index := (vs.headD {}).blockIndex
  let w := codeWidth fw word
  let code := fun (e : Nat) => (vs.getD e {}).val.toNat % 2 ^ w
  { word := word, index := index, payload := packCodes w ((if form = 1 then presentOf 1 index else List.range 32).map code)
    poison := vs.any fun v => v.poison }

/-- The blocks that the lanes of a vector hold, with their forms, each run of 8 in the form that its words name. -/
def fileBlocks (fw : Nat) (vs : List FWord) : List (RawBlock × Nat) :=
  let lanes := fun (b : Nat) => (vs.drop (32 * b)).take 32
  let form := fun (b : Nat) => runForm fw
    (((List.range (ceilDiv vs.length 32)).filter fun x => decide (x / 8 = b / 8)).map fun x => ((lanes x).headD {}).blockWord)
  (List.range (ceilDiv vs.length 32)).map fun b => (fileBlock fw (form b) (lanes b), form b)

/-- The lanes that a record reads of each operand: SOFTMAX_COMBINE reads a pair (R180). -/
def frTakes (ws : List Nat) : Nat := if frOp ws = 0x13 then 2 else frLen ws

/-- What operand A of a record gives: its lanes, the transfers used, and the malformed blocks met, of R64 and of R115. None
while it has not arrived. -/
def State.operandA (s : State) (site : Nat) (ws : List Nat) (bad : List (Nat × Nat)) :
    Option (List FWord × Nat × Nat × Nat) :=
  let len := frTakes ws
  let fw := frFw ws
  let file := s.vector site (frA ws) len bad
  let port := s.engineIn site (frInPort ws)
  let need := ceilDiv len (64 / rawWidth fw)
  let canon := fun (vs : List FWord) => if frOp ws = 0x22 then vs.map fun v => { v with val := canonNan v.val } else vs
  let raw := fun (vs : List FWord) => canon ((List.range len).map (rawElement fw vs))
  let widened := fun (bs : List (RawBlock × Nat)) (used : Nat) =>
    ((bs.flatMap fun b => widenBlock fw b.2 b.1).take len, used, malformedKinds (malformedIn fw bs))
  let fp32 := decide (frOp ws = 0x20 ∨ frOp ws = 0x21)
  if frSrc ws = 4 then
    if frOp ws ≠ 0x22 then some (file, 0, 0, 0)
    else if 5 ≤ fwBase fw then some (canon (file.map (laneElement fw)), 0, 0, 0)
    else some (widened (fileBlocks fw file) 0)
  else if fp32 then
    if port.length < ceilDiv len 16 then none else some ((streamWords (port.take (ceilDiv len 16))).take len, ceilDiv len 16, 0, 0)
  else if 5 ≤ fwBase fw then
    if port.length < need then none else some (raw (streamWords (port.take need)), need, 0, 0)
  else (readBlocks fw (ceilDiv len 32 + 1) (ceilDiv len 32) port).map fun p => widened p.1 p.2

/-- An operation of a U2 compute unit as a function record: five words, its vector no longer than the 128 lanes of its four
stages of 32 (R185). It works on FP32 lanes: a U2 context has neither block formats nor sparsity, so that no record of it quantises,
compresses or widens (R187). -/
def u2Lanes (ws : List Nat) : List Nat :=
  let op := if 0x20 ≤ frOp ws ∧ frOp ws ≤ 0x22 then 0x30 else frOp ws
  (List.range 5).map fun i =>
    match i with
    | 0 => place op 56 + mrWord ws 0 % 2 ^ 56 - place (frLen ws) 11 + place (min (frLen ws) 128) 11
    | 1 => place 6 60
    | _ => mrWord ws i % 2 ^ 64

/-- Record `i` of a site's plan, or operation `i` of the program of its U2 unit, which the manual leaves to the unit's
configuration words (DESIGN CHOICE, notes/assumptions/22.md). -/
def State.functionRecord (s : State) (site i : Nat) : Option (List Nat) :=
  match s.unitProgram site, s.planOf site with
  | some [], _ => none
  | some ws, _ => if (s.ftile site).u2Halted then none else some (u2Lanes (Config.u2Record ws i))
  | none, some p => p.recs[i]?
  | none, none => none

/-- The next record of a site, with its context, when it runs there under one of the given opcodes, its tile is not halted
and the place of its output is free; a record of length 0 needs none (R176). (DEDUCED: notes/assumptions/39.md.) -/
def State.laneRecord (s : State) (site op : Nat) : Option (Nat × List Nat) :=
  match s.active site, s.tileOf site with
  | some r, some l =>
    match s.functionRecord site (s.ftile site).recIx with
    | some ws =>
      if tileType l = 2 ∧ (s.mtile site).halted = false ∧ frOp ws = op ∧ (frLen ws = 0 ∨ frOut ws = 4 ∨ s.outFree site (frOutPort ws) = true)
      then some (r.ctx, ws) else none
    | none => none
  | _, _ => none

/-! ## Running a record -/

/-- What an operation makes of its operands: its output, how many domain errors, and what a quantiser counted. -/
structure LaneOut where
  prog : Prog
  domain : Nat := 0
  stats : QStats := {}
  pruned : Nat := 0
  rejected : Nat := 0
  broken : Nat := 0
  dropped : Nat := 0
  maskPoison : Bool := false
  moved : Bool := false

/-- The vectors of a compression, and the blocks of each: one vector, or four one after another for an S24T tensor (DESIGN CHOICE,
notes/assumptions/14.md). -/
def laneShape (ws : List Nat) (sf : Nat) : Nat × Nat :=
  let vectors := if sfS24T sf then 4 else 1
  (vectors, ceilDiv (ceilDiv (frLen ws) vectors) 32)

/-- The place of word `k` of the existing mask of a function record. Where it lies the manual does not say: the model takes it from
the tile's register file, at a place that the record fixes (DESIGN CHOICE, notes/assumptions/7.md). -/
def maskAt (ws : List Nat) (k : Nat) : Nat := (Config.maskPlace ws + k) % 16384

/-- The words of the existing mask that a record reads: one for each block, or one for 32 blocks of a BSB16 tensor. -/
def maskCount (ws : List Nat) : Nat :=
  let n := (laneShape ws (frSf ws)).1 * (laneShape ws (frSf ws)).2
  if frOp ws = 0x21 ∧ sfMask (frSf ws) then (if sfForm (frSf ws) = 2 then ceilDiv n 32 else n) else 0

/-- The words of the register file that a record reads, as register and lane. -/
def frReads (ws : List Nat) (r l : Nat) : Bool :=
  ((List.range (maskCount ws)).any fun k => decide (maskAt ws k = 256 * r + l ∧ l < 256)) ||
  let rd := opReads (frOp ws)
  let within := fun (base : Nat) => decide (256 * base ≤ 256 * r + l ∧ 256 * r + l < 256 * base + frTakes ws ∧ l < 256)
  (frSrc ws == 4 && within (frA ws)) || (rd.2.1 && within (frB ws)) || (rd.2.2 && within (frC ws))

/-- Runs the next function record of a site, `f` being its operation on the operands A, B and C: the counts and reports of
R177, R178, R183 and R374, then the output (R83, R383). A record of length 0 is none (R176). -/
def laneProg (site op : Nat) (env : LaneEnv)
    (f : State → Nat → List Nat → List FWord → List FWord → List FWord → LaneOut) : Prog := .look fun s =>
  withP (s.laneRecord site op) fun (c, ws) =>
    let next := modF site fun x => { x with recIx := x.recIx + 1 }
    if frLen ws = 0 then next
    else withP (s.operandA site ws env.bad) fun a =>
      let rd := opReads op
      let b := if rd.2.1 then s.vector site (frB ws) (frTakes ws) env.bad else []
      let cc := if rd.2.2 then s.vector site (frC ws) (frTakes ws) env.bad else []
      let bad := env.bad.eraseDups.filter fun p => frReads ws p.1 p.2
      let poison := (a.1 ++ b ++ cc).any fun w => w.poison
      let o := f s c ws a.1 b cc
      all [
        takeIn site (frInPort ws) a.2.1,
        count64 (0x3000 + site) 0x60 (opBeats ws * frRegs ws),
        whenP (s.unitProgram site).isSome (count64 (0x3000 + site) 0x65 (opBeats ws * frRegs ws)),
        siteCount64 site 0x61 env.waitBeats,
        siteCount32 site 0x62 env.fixed,
        siteCount64 site 0x33 env.stallBeats,
        eachP bad fun p => all [count32 (0x3000 + site) 0x63 1, report 0x7C02 0 site site p.1, siteFault site 2 200],
        recordMalformed site c a.2.2,
        arithEvent 0x7C03 0x2C30 0x02 site 0x64 c o.domain,
        recordStats site c o.stats,
        arithEvent 0x7802 0x2C20 0x05 site 0x47 c o.pruned,
        arithEvent 0x7801 0x2C20 0x06 site 0x48 c o.rejected,
        whenP (decide (0 < o.broken)) (reportOnce 0x7809 c site 0 site c site),
        countDropped site o.dropped,
        o.prog,
        next,
        whenP ((poison || o.maskPoison) && !o.moved) (poisonDeath c 0 site site)]

/-- An elementwise operation of up to three operands: a lane is poisoned when one of its operands is (R65). -/
def elementwise (site op : Nat) (env : LaneEnv) (f : F32 → F32 → F32 → F32) : Prog :=
  laneProg site op env fun s ctx ws a b c =>
    { prog := sendVector site ws ((List.range a.length).map fun e =>
        let x := a.getD e {}
        let y := b.getD e {}
        let z := c.getD e {}
        { val := (s.arith site ctx).op f x.val y.val z.val, poison := x.poison || y.poison || z.poison }) }

/-- A special function of every lane. -/
def specialProg (site op : Nat) (env : LaneEnv) : Prog :=
  laneProg site op env fun s c ws a _ _ =>
    { prog := sendVector site ws (a.map fun x => { val := ((s.arith site c).special op x.val).1, poison := x.poison })
      domain := (a.filter fun x => !x.poison && ((s.arith site c).special op x.val).2).length }

/-- FMA (R174). -/
def execFma (site : Site) (env : LaneEnv) (s : State) : Host.Outcome State Fault Refusal :=
  finish (elementwise site 0x01 env fma32) s

/-- ADD (R177). -/
def execAdd (site : Site) (env : LaneEnv) (s : State) : Host.Outcome State Fault Refusal :=
  finish (elementwise site 0x02 env fun a b _ => add32 a b) s

/-- MUL (R177). -/
def execMul (site : Site) (env : LaneEnv) (s : State) : Host.Outcome State Fault Refusal :=
  finish (elementwise site 0x03 env fun a b _ => mul32 a b) s

/-- MAX (R177). -/
def execMax (site : Site) (env : LaneEnv) (s : State) : Host.Outcome State Fault Refusal :=
  finish (elementwise site 0x04 env fun a b _ => max32 a b) s

/-- MIN (R177). -/
def execMin (site : Site) (env : LaneEnv) (s : State) : Host.Outcome State Fault Refusal :=
  finish (elementwise site 0x05 env fun a b _ => min32 a b) s

/-- EXP (R178). -/
def execExp (site : Site) (env : LaneEnv) (s : State) : Host.Outcome State Fault Refusal :=
  finish (specialProg site 0x06 env) s

/-- LOG (R178). -/
def execLog (site : Site) (env : LaneEnv) (s : State) : Host.Outcome State Fault Refusal :=
  finish (specialProg site 0x07 env) s

/-- RSQRT (R178). -/
def execRsqrt (site : Site) (env : LaneEnv) (s : State) : Host.Outcome State Fault Refusal :=
  finish (specialProg site 0x08 env) s

/-- RECIP (R178). -/
def execRecip (site : Site) (env : LaneEnv) (s : State) : Host.Outcome State Fault Refusal :=
  finish (specialProg site 0x09 env) s

/-- TANH (R178). -/
def execTanh (site : Site) (env : LaneEnv) (s : State) : Host.Outcome State Fault Refusal :=
  finish (specialProg site 0x0A env) s

/-- ERF (R178). -/
def execErf (site : Site) (env : LaneEnv) (s : State) : Host.Outcome State Fault Refusal :=
  finish (specialProg site 0x0B env) s

/-- A register that holds a reduction's result: the result in lane 0, +0 in the others (R179). -/
def reduced (v : FWord) : List FWord := v :: List.replicate 255 {}

/-- The lanes of a reduction's result that leave on Bond: one transfer (DESIGN CHOICE, notes/assumptions/14.md). -/
def sendReduced (site : Nat) (ws : List Nat) (vs : List FWord) : Prog :=
  if frOut ws = 4 then writeVector site (frD ws) vs else pushOut site (frOutPort ws) (rawTransfers (vs.take 16))

/-- A reduction with an operation and a padding value. -/
def reduceProg (site op : Nat) (env : LaneEnv) (f : F32 → F32 → F32) (pad : F32) : Prog :=
  laneProg site op env fun s c ws a _ _ =>
    { prog := sendReduced site ws (reduced { val := (s.arith site c).reduce f pad (frRegs ws) (a.map fun x => x.val),
                                             poison := a.any fun x => x.poison }) }

/-- REDUCE_SUM (R179). -/
def execReduceSum (site : Site) (env : LaneEnv) (s : State) : Host.Outcome State Fault Refusal :=
  finish (reduceProg site 0x10 env add32 0) s

/-- REDUCE_MAX (R179). -/
def execReduceMax (site : Site) (env : LaneEnv) (s : State) : Host.Outcome State Fault Refusal :=
  finish (reduceProg site 0x11 env max32 (inf32 true)) s

/-- SOFTMAX_STATS (R181). -/
def execSoftmaxStats (site : Site) (env : LaneEnv) (s : State) : Host.Outcome State Fault Refusal :=
  finish (laneProg site 0x12 env fun t c ws a _ _ =>
    let r := softmaxStats (t.arith site c) (frRegs ws) (a.map fun x => x.val)
    let p := a.any fun x => x.poison
    { prog := sendReduced site ws [{ val := r.1, poison := p }, { val := r.2, poison := p }] }) s

/-- SOFTMAX_COMBINE (R180). -/
def execSoftmaxCombine (site : Site) (env : LaneEnv) (s : State) : Host.Outcome State Fault Refusal :=
  finish (laneProg site 0x13 env fun t c ws a b _ =>
    let r := softmaxCombine (t.arith site c) (a.getD 0 {}).val (a.getD 1 {}).val (b.getD 0 {}).val (b.getD 1 {}).val
    let p := (a.getD 0 {}).poison || (a.getD 1 {}).poison || (b.getD 0 {}).poison || (b.getD 1 {}).poison
    { prog := sendReduced site ws [{ val := r.1, poison := p }, { val := r.2, poison := p }] }) s

/-! ## Quantising and compressing (R182, R183) -/

/-- Word `k` of the existing mask of a function record; `bad` are the words that the codes could not correct. -/
def State.maskWord (s : State) (site : Nat) (ws : List Nat) (bad : List (Nat × Nat)) (k : Nat) : FWord :=
  let w := s.vregAt (site * 16384 + maskAt ws k)
  if bad.contains (maskAt ws k / 256, maskAt ws k % 256) then { w with poison := true } else w

/-- The compressor's input of a function record. -/
def laneInput (s : State) (site : Nat) (ws : List Nat) (bad : List (Nat × Nat)) (sf : Nat) (a : List FWord) : CInput :=
  let vectors := (laneShape ws sf).1
  let len := ceilDiv (frLen ws) vectors
  let vb := (laneShape ws sf).2
  let ix := fun (v p : Nat) => if p < len ∧ v < vectors ∧ v * len + p < frLen ws then some (v * len + p) else none
  let word := fun (v b : Nat) => s.maskWord site ws bad (if sfForm sf = 2 then (v * vb + b) / 32 else v * vb + b)
  { fw := frFw ws, sf := sf, limit := s.reg 0x2C03 0x01, vectors := vectors, len := len, vb := vb
    value := fun v p => match ix v p with | some e => (a.getD e {}).val | none => 0
    poisoned := fun v p => match ix v p with | some e => (a.getD e {}).poison | none => false
    mask := fun v b =>
      if sfForm sf = 2 then (if (word v b).val.toNat.testBit ((v * vb + b) % 32) then 1 else 0) else (word v b).val.toNat
    maskBad := fun v b => (word v b).poison
    rand := fun e => randomValue (frSeed ws) (frTensor ws) (frBase ws + e) }

/-- The words of a result that lie in the register file: none past the vector's last lane (R175). -/
def writeLanes (site : Nat) (ws : List Nat) (vs : List FWord) : Prog := writeVector site (frD ws) (vs.take (frLen ws))

/-- The lanes of a tensor of blocks, vector by vector: element `i` in lane `i` (R174, R175). -/
def fileVector (fw form : Nat) (x : CInput) (bs : List CBlock) : List FWord :=
  let d := if sfTranspose x.sf then x.transposed else x
  (List.range d.vectors).flatMap fun v => (List.range d.len).map fun p =>
    fileLane fw form (bs.getD (v * d.vb + p / 32) { raw := {} }).raw (p % 32)

/-- The output of a quantiser or compressor: its blocks as a stream on Bond, or its elements lane by lane in the register
file. -/
def sendBlocks (site : Nat) (ws : List Nat) (form : Nat) (x : CInput) : LaneOut :=
  let bs := x.blocks
  { prog := if frOut ws = 4 then writeLanes site ws (fileVector (frFw ws) form x bs)
      else pushOut site (frOutPort ws) (streamTransfers (frFw ws) form (bs.length + 1) (bs.map fun b => b.raw))
    stats := (bs.map fun b => b.stats).foldl QStats.add {}
    pruned := (bs.map fun b => b.pruned).sum
    rejected := (bs.map fun b => b.rejected).sum
    broken := (bs.filter fun b => b.broken).length
    dropped := (bs.map fun b => b.dropped).sum
    maskPoison := sfMask x.sf && (List.range x.vectors).any fun v => (List.range x.vb).any fun b => x.maskBad v b }

/-- The output of a quantiser of BF16 or FP32: its elements, to Bond or to the register file (R175, R214). -/
def sendElements (site : Nat) (ws : List Nat) (xs : List (Conv × Bool)) : LaneOut :=
  let ys := xs.map fun x => (x.1.code, x.2)
  { prog := if frOut ws = 4 then writeLanes site ws (ys.map fun y => { val := BitVec.ofNat 32 y.1, poison := y.2 })
      else pushOut site (frOutPort ws) (elementTransfers (rawWidth (frFw ws)) ys)
    stats := rawStats xs }

/-- The output of a quantiser or compressor of a record on its input. -/
def quantised (site : Nat) (ws : List Nat) (form : Nat) (x : CInput) : LaneOut :=
  if 5 ≤ fwBase (frFw ws) then sendElements site ws x.elements else sendBlocks site ws form x

/-- F_QUANTISE (R182). -/
def execFQuantise (site : Site) (env : LaneEnv) (s : State) : Host.Outcome State Fault Refusal :=
  finish (laneProg site 0x20 env fun t _ ws a _ _ => quantised site ws 0 (laneInput t site ws env.bad 0 a)) s

/-- F_COMPRESS (R183). -/
def execFCompress (site : Site) (env : LaneEnv) (s : State) : Host.Outcome State Fault Refusal :=
  finish (laneProg site 0x21 env fun t _ ws a _ _ =>
    quantised site ws (sfForm (frSf ws)) (laneInput t site ws env.bad (frSf ws) a)) s

/-- DEQUANTISE (R183). -/
def execDequantise (site : Site) (env : LaneEnv) (s : State) : Host.Outcome State Fault Refusal :=
  finish (laneProg site 0x22 env fun _ _ ws a _ _ => { prog := sendVector site ws a }) s

/-- MOVE (R177). Moving a poisoned word unchanged consumes no poison (R384). -/
def execMove (site : Site) (env : LaneEnv) (s : State) : Host.Outcome State Fault Refusal :=
  finish (laneProg site 0x30 env fun _ _ ws a _ _ => { prog := sendVector site ws a, moved := true }) s

/-! ## U2 mode (R184, R189) -/

/-- A unit of a U2 program executes its halt word: its tile has nothing more to do (R189). -/
def u2HaltProg (site stageBeats : Nat) : Prog := .look fun s =>
  match s.active site, s.tileOf site with
  | some r, some l => withP (s.planAt (l * 4 + r.slot)) fun p =>
      whenP p.u2.isSome (.seq (siteCount64 site 0x65 stageBeats) (modF site fun x => { x with u2Halted := true }))
  | _, _ => .skip

/-- U2_HALT_WORD (R189). -/
def execU2HaltWord (site : Site) (stageBeats : Nat) (s : State) : Host.Outcome State Fault Refusal :=
  finish (u2HaltProg site stageBeats) s

/-- A context has a plan slot loaded. -/
def State.hasSlots (s : State) (c : Nat) : Bool := s.plans.any fun e => match e.2 with
  | some p => decide (p.ctx = c)
  | none => false

/-- The write of a context's execution mode (R184). -/
def executionModeCommand (c v : Nat) : Command := {
  valueOk := fun _ => decide (v ≤ 1)
  stateOk := fun s => !s.hasSlots c
  refused := fun code => whenP (decide (code = abortState)) (report 0x7C06 7 c c 0)
  effect := setReg (0x2700 + c) 0x20 v
  setting := true }

/-- EXECUTION_MODE_WRITE (R184). -/
def execExecutionModeWrite (p : Path) (c : Ctx) (v : Nat) (s : State) : Host.Outcome State Fault Refusal :=
  finish (commandWrite p (0x2700 + c) 0x20 (executionModeCommand c v)) s

end Sys2Proof.Machine
end

