-- ==== Sys2Proof/Machine/Scratch.lean ====
section
/-! DEFINITION. The S-tile scratchpad: addresses, tags, ports, errors, address generators and the memory-operation
engine (chapter 06). Words and tags are keyed by the S-tile index, so sparing moves nothing (R32). -/

namespace Sys2Proof.Machine

open Sys2Proof

/-! ## Addresses (R146 to R150) -/

/-- The site that serves an S-tile. -/
def State.sSite (s : State) (t : Nat) : Option Nat := s.siteOf (sTileLogical t)

/-- The site number of an S-tile in an event, 0xFFF when none serves it. -/
def State.sSiteNo (s : State) (t : Nat) : Nat := (s.sSite t).getD 0xFFF

/-- The bank of a slot (R146). -/
def slotBank (slot : Nat) : Nat := slot / 8192 * 4 + slot % 4

/-- The group of a word. -/
def wordGroup (w : Nat) : Nat := w / 65536

/-- The tag of a slot of an S-tile. -/
def State.slotTag (s : State) (t slot : Nat) : Nat := s.tagAt (t * 65536 + slot)

/-- Sets a slot's tag. -/
def setTag (t slot v : Nat) : Prog := .eff (.tags (t * 65536 + slot) v)

/-- The device address of a word of an S-tile. -/
def wordAddr (t w : Nat) : Nat := scratchAddr t (8 * w)

/-- The value of a word. -/
def State.word (s : State) (t w : Nat) : Nat := s.load (wordAddr t w) 8

/-- The enabled rings of an S-tile. -/
def State.tileRings (s : State) (t : Nat) : List (Nat × Ring) := s.ringsOn.filter fun e => decide (ringTile e.1 = t)

/-- The enabled ring of an S-tile that holds a byte offset (R149). -/
def State.ringAt (s : State) (t o : Nat) : Option (Nat × Ring) :=
  (s.tileRings t).find? fun e => decide (8 * rdBase e.2.desc ≤ o ∧ o < 8 * rdBase e.2.desc + rdSize e.2.desc)

/-- The save area of an island: S-tile index and first group (Table 15-2). -/
def State.saveArea (s : State) (i : Nat) : Option (Nat × Nat) :=
  let w := s.reg 0x2601 (i + 1)
  if bit w 31 then some (sIndex (bits w 27 16), bits w 2 0) else none

/-- The island whose valid save area holds a word (R406). -/
def State.savedWord (s : State) (t w : Nat) : Option Nat :=
  (List.range 24).find? fun i => match s.saveArea i with
    | some a => decide (a.1 = t ∧ a.2 ≤ wordGroup w ∧ wordGroup w ≤ a.2 + 1)
    | none => false

/-- The word addresses of an access of `len` bytes at offset `off`; none when it fails with an address error (R148,
R149). -/
def State.decode (s : State) (t : Nat) (aliased : Bool) (off len : Nat) : Option (List Nat) :=
  if off % 8 ≠ 0 ∨ len % 8 ≠ 0 then none
  else if aliased then
    match s.ringAt t off with
    | none => none
    | some e =>
      let b := 8 * rdBase e.2.desc
      let size := rdSize e.2.desc
      if size < len then none
      else some ((List.range (len / 8)).map fun i => (b + (off - b + 8 * i) % size) / 8)
  else if 0x400000 < off + len then none
  else some ((List.range (len / 8)).map fun i => off / 8 + i)

/-- The slots that a list of words touches, in order, each once. -/
def slotsOf (ws : List Nat) : List Nat := (ws.map fun w => w / 8).eraseDups

/-- A slot is covered whole by a list of words. -/
def coversSlot (ws : List Nat) (slot : Nat) : Bool := (List.range 8).all fun i => ws.contains (8 * slot + i)

/-! ## Ports (R151 to R153) -/

/-- The owner of a group under the map in effect: 0 wide, 1 narrow 0, 2 narrow 1 (R151). -/
def State.groupOwner (s : State) (site g : Nat) : Nat := bits (s.reg (0x3000 + site) 0x50) (2 * g + 1) (2 * g)

/-- A list without the entries that repeat the one before them. -/
def squeeze (xs : List Nat) : List Nat :=
  match xs with
  | [] => []
  | x :: xs => x :: (squeeze xs).dropWhile fun y => y == x

/-- Slot `k` joins the wide beat that has moved `m` slots up to slot `last`: it is the next slot of the same group, and the
beat has room (Table 06-2). -/
def joinsBeat (last m k : Nat) : Bool := decide (0 < m ∧ m < 4 ∧ k = last + 1 ∧ k / 8192 = last / 8192)

/-- The wide beats that move a list of slots in order, after a beat that has moved `m` slots up to `last` (Table 06-2). -/
def wideBeats (last m : Nat) (slots : List Nat) : Nat :=
  match slots with
  | [] => 0
  | k :: ks => if joinsBeat last m k then wideBeats k (m + 1) ks else 1 + wideBeats k 1 ks

/-- A group belongs to the wide port of a site. -/
def State.isWide (s : State) (site w : Nat) : Bool := s.groupOwner site (wordGroup w) == 0

/-- The places of an access in order where it crosses from one group to another and one of the two is the wide port's
(R152). -/
def State.groupSplits (s : State) (site : Nat) (ws : List Nat) : Nat :=
  ((ws.zip (ws.drop 1)).filter fun p =>
    decide (wordGroup p.1 ≠ wordGroup p.2) && (s.isWide site p.1 || s.isWide site p.2)).length

/-- Counts the granted beats of an access to a list of words in its order, and its group splits (R152). -/
def countBeats (site : Nat) (ws : List Nat) : Prog := .look fun s =>
  let wide := ws.filter fun w => s.isWide site w
  all [
    siteCount64 site 0x51 (wideBeats 0 0 (squeeze (wide.map fun w => w / 8))),
    siteCount64 site 0x52 (ws.length - wide.length),
    siteCount32 site 0x57 (s.groupSplits site ws)]

/-! ## Errors (R163 to R166) -/

/-- The corrected errors of a bank in the present second: the table of limits holds (second + 1) × 2^33, plus 2^32 once the
bank has been reported in it, plus the count under this key. -/
def bankKey (t bank : Nat) : Nat := 0x14006 * 2 ^ 32 + t * 32 + bank

/-- Counts one corrected error of a bank and reports the bank when its errors of the second exceed the threshold, once in
that second (R166), a class 3 fault. (DEDUCED: notes/assumptions/98.md.) -/
def bankCorrected (t site bank : Nat) : Prog := .look fun s =>
  let sec := s.now / second + 1
  let old := s.limitAt (bankKey t bank)
  let same := decide (old / 2 ^ 33 = sec)
  let n := if same then old % 2 ^ 32 + 1 else 1
  let told := same && old.testBit 32
  let tell := !told && decide (s.reg 0x29E0 0x02 < n)
  all [
    .eff (.limits (bankKey t bank) (sec * 2 ^ 33 + (if told || tell then 2 ^ 32 else 0) + n % 2 ^ 32)),
    whenP tell (all [report 0x4006 0 site site bank, siteFault site 3 50])]

/-- A corrected word: counted, and to be written back (R163). -/
def correctedWord (t site w : Nat) : Prog := all [
  count64 0x29E0 0x04 1, count32 (0x3000 + site) 0x54 1,
  modS t fun x => if x.writeBacks.contains w then x else { x with writeBacks := x.writeBacks ++ [w] },
  bankCorrected t site (slotBank (w / 8))]

/-- An uncorrectable word: the slot is poisoned and the word is to be rewritten (R164, R165). -/
def badWord (t site w code : Nat) : Prog := all [
  count64 0x29E0 0x05 1, count32 (0x3000 + site) 0x55 1,
  setTag t (w / 8) 2,
  modS t fun x => if x.rewrites.contains w then x else { x with rewrites := x.rewrites ++ [w] },
  report code 0 site site (w / 8),
  siteFault site 2 200]

/-- An uncorrectable error of tag group `g`: every slot that it covers becomes poisoned (R164). -/
def badTagGroup (t site g : Nat) : Prog := all [
  count64 0x29E0 0x05 1, count32 (0x3000 + site) 0x55 1,
  eachP (List.range 32) fun k => setTag t (32 * g + k) 2,
  report 0x4008 0 site site (32 * g),
  siteFault site 2 200]

/-- What the tag arrays' codes found in an access to a list of slots. -/
def tagErrors (t site : Nat) (slots : List Nat) (e : Ecc) : Prog :=
  eachP (e.tagBad.eraseDups.filter fun g => slots.any fun k => decide (k / 32 = g)) fun g => badTagGroup t site g

/-- The words of a read that the code corrected, and those that it could not. -/
def wordErrors (t site : Nat) (ws : List Nat) (e : Ecc) : Prog := all [
  eachP (e.fixed.eraseDups.filter fun w => ws.contains w && !e.bad.contains w) fun w => correctedWord t site w,
  eachP (e.bad.eraseDups.filter fun w => ws.contains w) fun w => badWord t site w 0x4001]

/-- The wide beats that move a list of slots in order and meet a slot of `late`, after a beat that has moved `m` slots up to
`last` and is late or not. -/
def lateBeats (late : List Nat) (last m : Nat) (isLate : Bool) (slots : List Nat) : Nat :=
  match slots with
  | [] => 0
  | k :: ks =>
    let was := joinsBeat last m k && isLate
    let hit := late.contains k
    (if hit && !was then 1 else 0) + lateBeats late k (if joinsBeat last m k then m + 1 else 1) (hit || was) ks

/-- What the words' codes found in a read of a list of words, with the beats that corrections cost: 2 for a wide beat, 1 for a
narrow word (R163, R164). -/
def readErrors (t site : Nat) (ws : List Nat) (e : Ecc) : Prog := .look fun s =>
  let fixed := e.fixed.eraseDups.filter fun w => ws.contains w && !e.bad.contains w
  let wide := ws.filter fun w => s.isWide site w
  let late := lateBeats (fixed.map fun w => w / 8) 0 0 false (squeeze (wide.map fun w => w / 8))
  .seq (siteCount64 site 0x56 (2 * late + (fixed.filter fun w => !s.isWide site w).length)) (wordErrors t site ws e)

/-- The bytes of a list of words. -/
def State.wordBytes (s : State) (t : Nat) (ws : List Nat) : List Byte := ws.flatMap fun w => s.bytesAt (wordAddr t w) 8

/-- Some slot of a list of words is poisoned. -/
def State.slotsPoisoned (s : State) (t : Nat) (ws : List Nat) : Bool :=
  (slotsOf ws).any fun k => s.slotTag t k == 2

/-! ## Plain writes and tags (Table 06-4) -/

/-- Writes the bytes of whole words. A write cancels a write-back or a rewrite of the word (R163, R164). -/
def putWords (t : Nat) (ws : List Nat) (bs : List Byte) : Prog :=
  match ws with
  | [] => .skip
  | w :: ws => all [
      storeBytes (wordAddr t w) (padTo 8 bs),
      modS t fun x => { x with writeBacks := x.writeBacks.filter fun v => decide (v ≠ w),
                               rewrites := x.rewrites.filter fun v => decide (v ≠ w) },
      putWords t ws (bs.drop 8)]

/-- The tag change of a plain write to a slot (Table 06-4). -/
def plainTag (t slot : Nat) (whole poison : Bool) : Prog := .look fun s =>
  if poison then setTag t slot 2
  else whenP (whole && s.slotTag t slot == 2) (setTag t slot 1)

/-- A plain write of whole words. -/
def plainWriteWords (t : Nat) (ws : List Nat) (bs : List Byte) (poison : Bool) : Prog := all [
  putWords t ws bs,
  eachP (slotsOf ws) fun k => plainTag t k (coversSlot ws k) poison]

/-! ## Ring heads (R269, R273) -/

/-- The status word of a ring (Table 10-5). -/
def statusWord (r : Ring) : Nat := place r.tail 45 + place r.head 26 + place (r.placed % 2 ^ 24) 2

/-- The ring engine writes the status word: word 0 of the status slot, the others zero (R269). -/
def writeStatus (r : Nat) (e : Ecc) : Prog := .look fun s =>
  let x := s.ring r
  let n := s.sSiteNo (ringTile r)
  let w := 8 * rdStatus x.desc
  let ws := (List.range 8).map fun i => w + i
  all [
    countBeats n ws, tagErrors (ringTile r) n [rdStatus x.desc] e,
    plainWriteWords (ringTile r) ws (toBytes 64 (statusWord x)) false]

/-- The slot of ring offset `o`. -/
def ringSlot (desc o : Nat) : Nat := rdSlot desc + o % rdSize desc / 64

/-- Moves the head of a posted or receive ring over the empty slots at it, and says how many. -/
def advanceHead (s : State) (r : Nat) (x : Ring) (fuel : Nat) : Ring × Nat :=
  match fuel with
  | 0 => (x, 0)
  | n + 1 =>
    if x.head = x.tail then (x, 0)
    else if s.slotTag (ringTile r) (ringSlot x.desc x.head) = 0 then
      let y := advanceHead s r { x with head := (x.head + 64) % rdSize x.desc } n
      (y.1, y.2 + 1)
    else (x, 0)

/-- A request of a ring engine to send a packet. -/
def ringRequest (r : Nat) (p : Packet) : Prog :=
  withState fun s => .issue (s.issue ++ [{ packet := p, origin := .ring r }])

/-- A CREDIT_RETURN packet of a receive ring: the send ring in operand [15:0] and the slots in [31:16] (Table 09-5). -/
def creditPacket (src dst c partner n : Nat) : Packet :=
  { dst := dst, src := src, ctx := c, cls := 1, typ := 0x11, len := 0, operand := partner + place n 16 }

/-- The head of a ring moves past emptied slots: the status word is written, and a receive ring returns credits to its
partner, merging returns that have not been injected (R269, R273). -/
def ringHead (r : Nat) (e : Ecc) : Prog := .look fun s =>
  let x := s.ring r
  let k := rdKind x.desc
  whenP (rdEnabled x.desc && (k == 0 || k == 2)) (
    let y := advanceHead s r x (rdSlots x.desc)
    whenP (decide (0 < y.2)) (all [
      .eff (.rings r y.1),
      writeStatus r e,
      whenP (k == 2) (
        let partner := rdPartner x.desc
        let waiting := s.issue.find? fun q => decide (q.origin = .ring r ∧ q.packet.typ = 0x11 ∧ q.packet.cls = 1)
        match waiting, s.sSite (ringTile r), s.sSite (ringTile partner) with
        | some _, _, _ => withState fun t => .issue (t.issue.map fun q =>
            if q.origin = .ring r ∧ q.packet.typ = 0x11 ∧ q.packet.cls = 1 then
              { q with packet := { q.packet with operand := q.packet.operand + place y.2 16 } }
            else q)
        | none, some a, some b => ringRequest r (creditPacket a b (rdCtx x.desc) partner y.2)
        | _, _, _ => .skip)]))

/-- The rings whose head may move because a slot became empty. -/
def slotEmptied (t slot : Nat) (e : Ecc) : Prog := .look fun s =>
  eachP ((s.tileRings t).filter fun x => decide (rdSlot x.2.desc ≤ slot ∧ slot < rdSlot x.2.desc + rdSlots x.2.desc))
    fun x => ringHead x.1 e

/-! ## Synchronised accesses (Table 06-4, R161) -/

/-- A slot is in passage. -/
def State.inPassage (s : State) (t slot : Nat) : Bool := (s.stile t).passages.any fun p => decide (p.slot = slot)

/-- A synchronised access of a kind finds its slot ready. -/
def State.syncReady (s : State) (t slot : Nat) (k : SyncKind) : Bool :=
  !s.inPassage t slot && (match k with
    | .write => s.slotTag t slot == 0
    | _ => s.slotTag t slot == 1 || s.slotTag t slot == 2)

/-- The eight words of a slot. -/
def slotWords (slot : Nat) : List Nat := (List.range 8).map fun i => 8 * slot + i

/-- The tag change of a consume. -/
def consumeNow (t slot : Nat) (e : Ecc) : Prog := all [setTag t slot 0, slotEmptied t slot e]

/-- The slots of a message of `l` bytes. -/
def messageSlots (l : Nat) : Nat := ceilDiv (8 + l) 64

/-- The free space of a posted or receive ring (R269). -/
def ringFree (x : Ring) : Nat := rdSize x.desc - 64 - (x.tail + rdSize x.desc - x.head) % rdSize x.desc

/-- The message that the ring engine of S-tile `t` writes has room in its ring for the slot after which `left` slots remain: a
ring never fills its last 64 bytes (R172, R269). (DESIGN CHOICE: notes/assumptions/47.md.) -/
def State.messageRoom (s : State) (t left : Nat) : Bool :=
  match (s.stile t).message with
  | some m => decide (64 * (messageSlots m.packet.len - left) ≤ ringFree (s.ring m.ring))
  | none => true

/-- The tag that a written slot takes: full or poisoned, but reserved for the header of a message, of which other slots are
still to be written (R160, R173). -/
def State.writtenTag (s : State) (t slot : Nat) (msg poison : Bool) : Nat :=
  match (s.stile t).message with
  | some m => if msg && m.header == slot then 3 else if poison then 2 else 1
  | none => if poison then 2 else 1

/-- The words of a slot are written, and its tag changes (Table 06-4). -/
def syncWriteNow (t slot : Nat) (msg : Bool) (bs : List Byte) (poison : Bool) : Prog := .look fun s => all [
  putWords t (slotWords slot) (padTo 64 bs),
  setTag t slot (s.writtenTag t slot msg poison)]

/-- The ring engine of S-tile `t` has written every slot of its message: the header slot becomes full, then the tail moves and
the status word follows (R173). -/
def finishMessage (t : Nat) (e : Ecc) : Prog := .look fun s => withP (s.stile t).message fun m => all [
  setTag t m.header (if m.packet.poison then 2 else 1),
  modS t fun x => { x with message := none },
  packetDone m.packet,
  modRing m.ring fun y => { y with
    tail := (y.tail + 64 * messageSlots m.packet.len) % rdSize y.desc, placed := (y.placed + 1) % 2 ^ 24
    messages := satAdd 64 y.messages 1 },
  writeStatus m.ring e]

/-- A requester writes slots in order, each as a synchronised write: one whose slot is not ready is blocked with those after
it (R162); on a narrow port each slot's passage begins and SLOT_PASSAGE_END goes on (R161). -/
def writeSlots (t n : Nat) (who : Requester) (msg poison : Bool) (bs : List Byte) (slots : List Nat) (e : Ecc) : Prog :=
  match slots with
  | [] => whenP msg (finishMessage t e)
  | k :: ks => .look fun s =>
    if !(s.syncReady t k .write && (!msg || s.messageRoom t ks.length)) then
      modS t fun x => { x with blocked := x.blocked ++ [⟨who, .write, k, bs, poison, ks, msg, s.slotTag t k⟩] }
    else if s.isWide n (8 * k) then all [
      countBeats n (slotWords k), syncWriteNow t k msg (bs.take 64) poison,
      writeSlots t n who msg poison (bs.drop 64) ks e]
    else all [
      countBeats n (slotWords k), setTag t k 3,
      modS t fun x => { x with passages := x.passages ++ [⟨who, .write, k, bs, poison, ks, msg⟩] }]

/-- An access is the ring engine's. -/
def isRingAccess (q : Requester) : Bool :=
  match q with
  | .ringEngine _ => true
  | _ => false

/-- An access is Mortar ingress's. -/
def isIngressAccess (q : Requester) : Bool :=
  match q with
  | .ingress _ => true
  | _ => false

/-- The ring engine of an S-tile is free to begin an access: none of its accesses is blocked or in passage, and it writes no
message (R162, R173). -/
def SCore.ringFree (x : SCore) : Bool :=
  x.message.isNone && !(x.blocked.any fun b => isRingAccess b.who) && !(x.passages.any fun p => isRingAccess p.who)

/-- The tile that serves an S-tile is halted (R105). -/
def State.sHalted (s : State) (t : Nat) : Bool :=
  match s.sSite t with
  | some n => (s.mtile n).halted
  | none => false

/-- The ring engine of an S-tile is free, and its tile is not halted. -/
def State.ringEngineFree (s : State) (t : Nat) : Bool := (s.stile t).ringFree && !s.sHalted t

/-- The ring engine takes a slot itself: at once through the wide port, in passage through a narrow one (R161). Its passage is
marked as one of a message. -/
def takeSlot (t n c k : Nat) (e : Ecc) : Prog := .look fun s =>
  if s.isWide n (8 * k) then consumeNow t k e
  else .seq (setTag t k 3) (modS t fun x => { x with passages := x.passages ++ [{
    who := .ringEngine { aliased := false, off := 64 * k, len := 64, ctx := Fin.ofNat 64 c }, kind := .consume, slot := k
    msg := true }] })

/-- The ring engine writes the first gate slot that waits for it, as a synchronised write (R271), once nothing that it began
before is blocked or in passage (R162). -/
def nextGate (t : Nat) (e : Ecc) : Prog := .look fun s =>
  match (s.stile t).gates with
  | [] => .skip
  | g :: gs => whenP (s.ringEngineFree t) (all [
      modS t fun x => { x with gates := gs },
      tagErrors t (s.sSiteNo t) [g.slot] e,
      writeSlots t (s.sSiteNo t) (.ringEngine {
        aliased := false, off := 64 * g.slot, len := 64, ctx := Fin.ofNat 64 (rdCtx (s.ring g.ring).desc) })
        false g.poison (padTo 64 (toBytes 8 g.handle)) [g.slot] e])

/-! ## Address generators (R156 to R159) -/

/-- A field of a stream record. -/
def recWord (ws : List Nat) (i : Nat) : Nat := ws.getD i 0
/-- The base word address. -/
def srBase (ws : List Nat) : Nat := bits (recWord ws 0) 63 45
/-- The mode: 0 plain read, 1 plain write, 2 consume, 3 peek, 4 synchronised write. -/
def srMode (ws : List Nat) : Nat := bits (recWord ws 0) 44 42
/-- The port. -/
def srPort (ws : List Nat) : Nat := bits (recWord ws 0) 41 40
/-- The Bond side, 4 striped. -/
def srSide (ws : List Nat) : Nat := bits (recWord ws 0) 39 37
/-- The alias bit. -/
def srAlias (ws : List Nat) : Bool := bit (recWord ws 0) 36
/-- The local ring. -/
def srRing (ws : List Nat) : Nat := bits (recWord ws 0) 35 32
/-- Units per innermost run. -/
def srCount0 (ws : List Nat) : Nat := bits (recWord ws 1) 63 44
/-- The middle count. -/
def srCount1 (ws : List Nat) : Nat := bits (recWord ws 1) 43 32
/-- The outer count. -/
def srCount2 (ws : List Nat) : Nat := bits (recWord ws 1) 31 20
/-- The middle stride in words. -/
def srStride1 (ws : List Nat) : Int := signed 20 (bits (recWord ws 2) 63 44)
/-- The outer stride in words. -/
def srStride2 (ws : List Nat) : Int := signed 20 (bits (recWord ws 2) 43 24)
/-- The words of a unit. -/
def srUnit (ws : List Nat) : Nat := if srPort ws = 0 then 8 else 1
/-- The number of units. -/
def srUnits (ws : List Nat) : Nat := srCount0 ws * srCount1 ws * srCount2 ws

/-- The word address of unit `u` before folding (R157). -/
def srRaw (ws : List Nat) (u : Nat) : Int :=
  let i0 := u % srCount0 ws
  let i1 := u / srCount0 ws % srCount1 ws
  let i2 := u / srCount0 ws / srCount1 ws
  srBase ws + i2 * srStride2 ws + i1 * srStride1 ws + i0 * srUnit ws

/-- The word of an S-tile that word `w` of a U2 memory unit is: the unit's 384 KiB lie in banks 0 to 2 of group 0, a slot a bank in
turn (R146, R185; DESIGN CHOICE, notes/assumptions/22.md). -/
def u2Word (w : Nat) : Nat :=
  let k := w % 49152 / 8
  8 * (4 * (k / 3) + k % 3) + w % 8

/-- The word address of unit `u` of a record on an S-tile (R157); that of an access of a U2 memory unit lies in the unit's three
banks (R185). -/
def State.srAddr (s : State) (t : Nat) (ws : List Nat) (u : Nat) : Nat :=
  let a := srRaw ws u
  if ws.length = 5 then u2Word (a.toNat / srUnit ws * srUnit ws)
  else if srAlias ws then
    let d := (s.ring (t * 16 + srRing ws)).desc
    let b : Int := rdBase d
    (b + (a - b) % ((2 ^ rdExp d : Nat) : Int)).toNat
  else a.toNat

/-- The engine port of unit `u` (R157, R193); a record of a U2 memory unit names its U2 port in a fifth word. -/
def srPortOf (ws : List Nat) (u : Nat) : Nat :=
  if srSide ws = 4 then u % 4 else if ws.length = 5 then bits (recWord ws 4) 3 0 else srSide ws

/-- Replaces the state of address generator `k`. -/
def modAg (t k : Nat) (f : AgState → AgState) : Prog :=
  modS t fun x => { x with ags := x.ags.set k (f (x.ags.getD k {})) }

/-- The state of address generator `k`. -/
def State.ag (s : State) (t k : Nat) : AgState := (s.stile t).ags.getD k {}

/-- Address generator `k` moves on by `m` units; the record completes after its last (R159). -/
def agAdvance (t k m : Nat) : Prog := modAg t k fun g =>
  match g.cur with
  | none => g
  | some ws =>
    if g.unit + m < srUnits ws then { g with unit := g.unit + m, blocked := false }
    else { recIx := g.recIx + 1 }

/-- The transfers of a unit's bytes: one word in [63:0] on a narrow port, a slot on the wide port (R157). -/
def unitTransfers (narrow : Bool) (poison : Bool) (bs : List Byte) : List Transfer :=
  if narrow then (List.range (bs.length / 8)).map fun i =>
    { data := ofBytes ((bs.drop (8 * i)).take 8), poison := poison }
  else dataTransfers poison bs

/-- Record `i` of the list of address generator `k` of a site, or access `i` of the program of its U2 memory unit
(DESIGN CHOICE, notes/assumptions/22.md). -/
def State.streamRecord (s : State) (n k i : Nat) : Option (List Nat) :=
  match s.unitProgram n, s.planOf n with
  | some [], _ => none
  | some ws, _ =>
    if (s.ftile n).u2Halted then none else some ((List.range 5).map fun j => recWord (Config.u2Access ws k i) j % 2 ^ 64)
  | none, some p => (p.streams.getD k [])[i]?
  | none, none => none

/-- The stream record that address generator `k` runs, when its tile runs a section and is not halted and the generator is
not blocked (R105). -/
def State.agRecord (s : State) (t k : Nat) : Option (Nat × List Nat × Nat) :=
  match s.sSite t, (s.ag t k).cur with
  | some n, some ws => if (s.active n).isSome && !(s.mtile n).halted && !(s.ag t k).blocked then some (n, ws, (s.ag t k).unit) else none
  | _, _ => none

/-- The words of unit `u` of a record. -/
def State.unitWords (s : State) (t : Nat) (ws : List Nat) (u : Nat) : List Nat :=
  (List.range (srUnit ws)).map fun i => s.srAddr t ws u + i

/-- Counts the beats of unit `u` of the record of address generator `k`, and for a read what its words' codes found. The units
of a striped stream share wide beats of up to four consecutive slots (R157, R163). -/
def agBeat (t k n : Nat) (ws : List Nat) (u : Nat) (reads : Bool) (e : Ecc) : Prog := .look fun s =>
  let wds := s.unitWords t ws u
  let slot := s.srAddr t ws u / 8
  let g := s.ag t k
  let last := s.srAddr t ws (u - 1) / 8
  if srSide ws ≠ 4 then .seq (countBeats n wds) (whenP reads (readErrors t n wds e))
  else if joinsBeat last g.inBeat slot then
    let hit := reads && e.fixed.any fun w => wds.contains w && !e.bad.contains w
    all [
      modAg t k fun x => { x with inBeat := x.inBeat + 1, late := x.late || hit },
      siteCount64 n 0x56 (if hit && !g.late then 2 else 0),
      whenP reads (wordErrors t n wds e)]
  else
    let hit := reads && e.fixed.any fun w => wds.contains w && !e.bad.contains w
    all [
      siteCount32 n 0x57 (if decide (0 < g.inBeat ∧ g.inBeat < 4 ∧ slot = last + 1) then 1 else 0),
      modAg t k fun x => { x with inBeat := 1, late := hit },
      countBeats n wds, whenP reads (readErrors t n wds e)]

/-- An access for context `c` at a byte offset fails with an address error (R148, R149, R406). -/
def addressErrorAt (t c off : Nat) : Prog := .look fun s =>
  reportOnce 0x4003 c (s.sSiteNo t) 0 (s.sSiteNo t) c (pairArg (s.sSiteNo t) off)

/-- An access for context `c` reaches the valid save area of island `i` and fails (R406). -/
def savedAccess (t n c i off : Nat) : Prog := .seq (addressErrorAt t c off) (report 0x9005 0 n i c)

/-- Unit `u` of a record reaches a save area: the access fails, and the generator goes on without the unit, of which a write's
transfers are dropped (R406; DESIGN CHOICE, notes/assumptions/131.md). -/
def agRefused (t k n i : Nat) (ws : List Nat) (u : Nat) : Prog := .look fun s =>
  let units := if 2 ≤ srMode ws ∧ srPort ws ≠ 0 then 8 else 1
  all [
    savedAccess t n (((s.active n).map fun r => r.ctx).getD 0xFF) i (8 * s.srAddr t ws u),
    whenP (srMode ws == 1 || srMode ws == 4) (takeIn n (srPortOf ws u) units),
    agAdvance t k units]

/-- The island whose valid save area unit `u` of a record reaches (R406). -/
def State.agSaved (s : State) (t : Nat) (ws : List Nat) (u : Nat) : Option Nat :=
  (s.unitWords t ws u).findSome? fun w => s.savedWord t w

/-- Reads unit `u` of a plain-read or peek record and sends it. -/
def agRead (t k n : Nat) (ws : List Nat) (u : Nat) (e : Ecc) : Prog := .look fun s =>
  let wds := s.unitWords t ws u
  let port := srPortOf ws u
  match s.agSaved t ws u with
  | some i => agRefused t k n i ws u
  | none => whenP (s.outFree n port) (all [
    siteCount64 n 0x58 e.waitBeats, tagErrors t n (slotsOf wds) e, agBeat t k n ws u true e,
    .look fun t' => pushOut n port (unitTransfers (srPort ws != 0) (t'.slotsPoisoned t wds) (t'.wordBytes t wds)),
    agAdvance t k 1])

/-- How many transfers a synchronised unit moves: a narrow slot passes as 8 words. -/
def syncUnits (ws : List Nat) : Nat := if srPort ws = 0 then 1 else 8

/-- Performs a synchronised access whose slot is ready, for address generator `k`. On a narrow port the passage begins
and SLOT_PASSAGE_END ends it (R161). (DEDUCED: notes/assumptions/42.md.) -/
def agSync (t k n : Nat) (ws : List Nat) (u : Nat) (kind : SyncKind) (e : Ecc) : Prog := .look fun s =>
  let slot := s.srAddr t ws u / 8
  let wds := slotWords slot
  let port := srPortOf ws u
  let ins := (s.engineIn n port).take (syncUnits ws)
  let inPoison := ins.any fun x => x.poison
  let inBytes := if srPort ws = 0 then ins.flatMap Transfer.bytes else ins.flatMap fun x => toBytes 8 x.data
  if srPort ws = 0 then
    match kind with
    | .write => all [agBeat t k n ws u false e, takeIn n port 1, syncWriteNow t slot false inBytes inPoison, agAdvance t k 1]
    | _ => all [
        agBeat t k n ws u true e,
        .look fun t' => pushOut n port (dataTransfers (t'.slotsPoisoned t wds) (t'.wordBytes t wds)),
        match kind with
        | .consume => consumeNow t slot e
        | _ => .skip,
        agAdvance t k 1]
  else all [
    countBeats n wds, whenP (kind != .write) (readErrors t n wds e),
    .look fun t' => modS t fun x => { x with passages := x.passages ++ [match kind with
      | .write => { who := .ag (Fin.ofNat 4 k), kind := kind, slot := slot, bytes := inBytes, poison := inPoison }
      | _ => { who := .ag (Fin.ofNat 4 k), kind := kind, slot := slot, bytes := t'.wordBytes t wds
               poison := t'.slotsPoisoned t wds }] },
    match kind with
    | .peek => .skip
    | _ => setTag t slot 3,
    match kind with
    | .write => takeIn n port 8
    | _ => .skip,
    modAg t k fun g => { g with blocked := true }]

/-- Address generator `k` presents its synchronised unit: performed when the slot is ready, blocked otherwise (R162). -/
def agPresent (t k : Nat) (kind : SyncKind) (e : Ecc) : Prog := .look fun s =>
  withP (s.agRecord t k) fun r =>
    let n := r.1
    let ws := r.2.1
    let u := r.2.2
    let slot := s.srAddr t ws u / 8
    let port := srPortOf ws u
    let code := match kind with | .consume => 2 | .peek => 3 | .write => 4
    let able := match kind with
      | .write => decide (syncUnits ws ≤ (s.engineIn n port).length)
      | _ => s.outFree n port
    whenP (srMode ws == code && able) (match s.agSaved t ws u with
    | some i => agRefused t k n i ws u
    | none => all [
      siteCount64 n 0x58 e.waitBeats, tagErrors t n [slot] e,
      .look fun t' =>
        if t'.syncReady t slot kind then agSync t k n ws u kind e
        else all [
          modAg t k fun g => { g with blocked := true },
          modS t fun x => { x with blocked := x.blocked ++ [{
            who := .ag (Fin.ofNat 4 k), kind := kind, slot := slot, tag := t'.slotTag t slot }] }]])

/-! ## Other requesters -/

/-- An access fails with an address error. -/
def scratchAddressError (t : Nat) (a : Access) : Prog := addressErrorAt t a.ctx.val a.off

/-- The words that an access of a requester reaches; none, with its report, when it fails. -/
def withAccess (t : Nat) (a : Access) (p : Nat → List Nat → Prog) : Prog := .look fun s =>
  match s.sSite t, s.decode t a.aliased a.off a.len with
  | some n, some ws =>
    match ws.findSome? fun w => s.savedWord t w with
    | some i => savedAccess t n a.ctx.val i a.off
    | none => p n ws
  | _, _ => scratchAddressError t a

/-- A requester takes an access to a list of slots now: its later accesses wait behind a blocked one or one in passage; Mortar
ingress holds up to four blocked accesses aside, and one to a slot that it holds an access for waits (R162). -/
def State.takes (s : State) (t : Nat) (q : Requester) (slots : List Nat) : Bool :=
  let x := s.stile t
  match q with
  | .ag _ => true
  | .ringEngine _ => x.ringFree
  | .ingress _ =>
    let held := x.blocked.filter fun b => isIngressAccess b.who
    decide (held.length < 5) && !(x.passages.any fun p => isIngressAccess p.who)
      && !(held.any fun b => (b.slot :: b.more).any slots.contains)
  | .memop _ => true

/-- The access of a requester that is not an address generator. -/
def accessOf (q : Requester) : Option Access :=
  match q with
  | .ag _ => none
  | .ringEngine a | .ingress a | .memop a => some a

/-- The words that an access of a requester other than an address generator reaches, when the requester takes it now. -/
def withTaken (t : Nat) (q : Requester) (a : Access) (p : Nat → List Nat → Prog) : Prog := .look fun s =>
  whenP (s.takes t q (((s.decode t a.aliased a.off a.len).map slotsOf).getD [])) (withAccess t a p)

/-- A plain read by a requester: the data leaves with its poison mark. -/
def plainReadProg (t : Nat) (q : Requester) (e : Ecc) : Prog := .look fun s =>
  match q with
  | .ag k => withP (s.agRecord t k) fun r => whenP (srMode r.2.1 == 0) (agRead t k r.1 r.2.1 r.2.2 e)
  | .ringEngine a | .ingress a | .memop a => withTaken t q a fun n ws => all [
      countBeats n ws, siteCount64 n 0x58 e.waitBeats, tagErrors t n (slotsOf ws) e, readErrors t n ws e,
      .look fun t' => .eff (.emit (.readData n (t'.wordBytes t ws) (t'.slotsPoisoned t ws)))]

/-- PLAIN_READ (R160). -/
def execPlainRead (t : STile) (q : Requester) (ecc : Ecc) (s : State) : Host.Outcome State Fault Refusal :=
  finish (plainReadProg t q ecc) s

/-- A plain write by a requester. -/
def plainWriteProg (t : Nat) (q : Requester) (e : Ecc) : Prog := .look fun s =>
  match q with
  | .ag k => withP (s.agRecord t k) fun r =>
      let ws := r.2.1
      let port := srPortOf ws r.2.2
      match s.engineIn r.1 port with
      | [] => .skip
      | x :: _ => whenP (srMode ws == 1) (
          let wds := s.unitWords t ws r.2.2
          match s.agSaved t ws r.2.2 with
          | some i => agRefused t k r.1 i ws r.2.2
          | none => all [
            agBeat t k r.1 ws r.2.2 false e, siteCount64 r.1 0x58 e.waitBeats, tagErrors t r.1 (slotsOf wds) e,
            takeIn r.1 port 1,
            plainWriteWords t wds (toBytes (8 * srUnit ws) x.data) x.poison,
            agAdvance t k 1])
  | .ringEngine a | .ingress a | .memop a => withTaken t q a fun n ws => all [
      countBeats n ws, siteCount64 n 0x58 e.waitBeats, tagErrors t n (slotsOf ws) e,
      plainWriteWords t ws (padTo a.len a.bytes) a.poison]

/-- PLAIN_WRITE (R160). -/
def execPlainWrite (t : STile) (q : Requester) (ecc : Ecc) (s : State) : Host.Outcome State Fault Refusal :=
  finish (plainWriteProg t q ecc) s

/-- The data of a slot goes to a requester that is not an address generator; a poisoned word that a ring engine takes as an
operand is consumed (R383). -/
def slotData (n : Nat) (q : Requester) (bs : List Byte) (poison : Bool) : Prog :=
  let ctx := match accessOf q with | some a => a.ctx.val | none => 0
  .seq (.eff (.emit (.readData n bs poison))) (whenP (poison && isRingAccess q) (poisonDeath ctx 0 n n))

/-- A requester that is not an address generator consumes or peeks one whole slot that is ready: at once through the wide port,
in passage through a narrow one (R161). -/
def readSlot (t n slot : Nat) (kind : SyncKind) (q : Requester) (e : Ecc) : Prog := all [
  countBeats n (slotWords slot),
  readErrors t n (slotWords slot) e,
  .look fun s =>
    let bs := s.wordBytes t (slotWords slot)
    let p := s.slotsPoisoned t (slotWords slot)
    if s.isWide n (8 * slot) then .seq (slotData n q bs p) (whenP (kind == .consume) (consumeNow t slot e))
    else .seq (whenP (kind == .consume) (setTag t slot 3))
      (modS t fun x => { x with passages := x.passages ++ [{ who := q, kind := kind, slot := slot, bytes := bs, poison := p }] })]

/-- A requester presents a synchronised access to one whole slot (R160, R162). One that is not a whole slot on a slot boundary
fails with an address error (DESIGN CHOICE, notes/assumptions/132.md). -/
def presentSync (t : Nat) (q : Requester) (kind : SyncKind) (e : Ecc) : Prog :=
  match q with
  | .ag k => agPresent t k kind e
  | .memop _ => .skip
  | .ringEngine a | .ingress a => withTaken t q a fun n ws =>
      let slot := ws.headD 0 / 8
      if a.off % 64 = 0 ∧ a.len = 64 then all [
        siteCount64 n 0x58 e.waitBeats, tagErrors t n [slot] e,
        match kind with
        | .write => writeSlots t n q false a.poison (padTo 64 a.bytes) [slot] e
        | _ => .look fun t' =>
          if t'.syncReady t slot kind then readSlot t n slot kind q e
          else modS t fun x => { x with blocked := x.blocked ++ [{
            who := q, kind := kind, slot := slot, tag := t'.slotTag t slot }] }]
      else scratchAddressError t a

/-- CONSUME (R160). -/
def execConsume (t : STile) (q : Requester) (ecc : Ecc) (s : State) : Host.Outcome State Fault Refusal :=
  finish (presentSync t q .consume ecc) s

/-- PEEK (R160). -/
def execPeek (t : STile) (q : Requester) (ecc : Ecc) (s : State) : Host.Outcome State Fault Refusal :=
  finish (presentSync t q .peek ecc) s

/-- SYNCHRONISED_WRITE (R160). -/
def execSynchronisedWrite (t : STile) (q : Requester) (ecc : Ecc) (s : State) : Host.Outcome State Fault Refusal :=
  finish (presentSync t q .write ecc) s

/-- A blocked access is ready: its slot admits it, and the ring has room where it writes a message. -/
def State.blockedReady (s : State) (t : Nat) (b : Blocked) : Bool :=
  s.syncReady t b.slot b.kind && (!b.msg || s.messageRoom t b.more.length)

/-- Retries blocked access `i` after `beats` blocked beats (R162). The beats of a consume on a receive ring that was blocked on
an empty slot count as receiver stall beats of the partner send ring (R273). -/
def blockedRetryProg (t i beats : Nat) (e : Ecc) : Prog := .look fun s =>
  withP ((s.stile t).blocked[i]?) fun b => withP (s.sSite t) fun n =>
    let recvRing := (s.tileRings t).find? fun r => decide (rdKind r.2.desc = 2 ∧ rdSlot r.2.desc ≤ b.slot
      ∧ b.slot < rdSlot r.2.desc + rdSlots r.2.desc)
    all [
      siteCount64 n 0x53 beats, siteCount64 n 0x58 e.waitBeats,
      match b.kind, recvRing with
      | .consume, some r => whenP (b.tag == 0)
          (modRing (rdPartner r.2.desc) fun x => { x with receiverStall := satAdd 64 x.receiverStall beats })
      | _, _ => .skip,
      tagErrors t n [b.slot] e,
      .look fun t' => if t'.blockedReady t b then all [
          modS t fun x => { x with blocked := x.blocked.eraseIdx i },
          match b.who, b.kind with
          | .ag k, _ => all [
              modAg t k fun g => { g with blocked := false },
              .look fun u => withP (u.agRecord t k) fun r => agSync t k r.1 r.2.1 r.2.2 b.kind e]
          | q, .write => writeSlots t n q b.msg b.poison b.bytes (b.slot :: b.more) e
          | q, k => readSlot t n b.slot k q e,
          nextGate t e]
        else modS t fun x => { x with blocked := x.blocked.set i { b with tag := t'.slotTag t b.slot } }]

/-- BLOCKED_ACCESS_RETRY (R162). -/
def execBlockedAccessRetry (t : STile) (n beats : Nat) (ecc : Ecc) (s : State) : Host.Outcome State Fault Refusal :=
  finish (blockedRetryProg t n beats ecc) s

/-- The passage of a narrow slot ends: the tag takes its final value and the words have moved, and a write goes on to its
next slot (R161). A halted tile ends none (R105). (DEDUCED: notes/assumptions/42.md.) -/
def passageEndProg (t slot : Nat) (e : Ecc) : Prog := .look fun s =>
  withP ((s.stile t).passages.find? fun p => decide (p.slot = slot)) fun p => withP (s.sSite t) fun n => whenP (!s.sHalted t) (all [
    modS t fun x => { x with passages := x.passages.filter fun q => decide (q.slot ≠ slot) },
    match p.kind with
    | .write => syncWriteNow t slot p.msg (p.bytes.take 64) p.poison
    | .consume => consumeNow t slot e
    | .peek => .skip,
    match p.who, p.kind with
    | .ag k, _ => .look fun t' => withP (t'.ag t k).cur fun ws => all [
        whenP (p.kind != .write) (pushOut n (srPortOf ws (t'.ag t k).unit) (unitTransfers true p.poison p.bytes)),
        agAdvance t k 8]
    | q, .write => writeSlots t n q p.msg p.poison (p.bytes.drop 64) p.more e
    | q, _ => whenP (!p.msg) (slotData n q p.bytes p.poison),
    nextGate t e])

/-- SLOT_PASSAGE_END (R161). -/
def execSlotPassageEnd (t : STile) (slot : Nat) (ecc : Ecc) (s : State) : Host.Outcome State Fault Refusal :=
  finish (passageEndProg t slot ecc) s

/-- A corrected word is written back: its stored code is valid again (R163). -/
def writeBackProg (t w : Nat) : Prog :=
  modS t fun x => { x with writeBacks := x.writeBacks.filter fun v => decide (v ≠ w) }

/-- CORRECTED_WRITE_BACK (R163). -/
def execCorrectedWriteBack (t : STile) (word : Nat) (s : State) : Host.Outcome State Fault Refusal :=
  finish (writeBackProg t word) s

/-- An uncorrectable word is rewritten with its data as read and a valid code; the tag keeps the mark (R164). -/
def poisonRewriteProg (t w : Nat) : Prog :=
  modS t fun x => { x with rewrites := x.rewrites.filter fun v => decide (v ≠ w) }

/-- POISON_REWRITE (R164). -/
def execPoisonRewrite (t : STile) (word : Nat) (s : State) : Host.Outcome State Fault Refusal :=
  finish (poisonRewriteProg t word) s

/-- The slot that row `row` of a bank holds (R146). -/
def bankSlot (bank row : Nat) : Nat := bank / 4 * 8192 + row * 4 + bank % 4

/-- The patrol reads a bank's next slot with its tag group (R165). -/
def patrolProg (t : Nat) (bank : Nat) (e : Ecc) : Prog := .look fun s =>
  whenP (decide (s.reg 0x29E0 0x01 ≠ 0)) (withP (s.sSite t) fun n =>
    let row := (s.stile t).patrol.getD bank 0
    let slot := bankSlot bank row
    let ws := slotWords slot
    all [
      modS t fun x => { x with patrol := x.patrol.set bank ((row + 1) % 2048) },
      tagErrors t n [slot] e,
      eachP (e.fixed.eraseDups.filter fun w => ws.contains w && !e.bad.contains w) fun w => correctedWord t n w,
      eachP (e.bad.eraseDups.filter fun w => ws.contains w) fun w => badWord t n w 0x4002])

/-- PATROL_SCRUB (R165). -/
def execPatrolScrub (t : STile) (bank : Fin 32) (ecc : Ecc) (s : State) : Host.Outcome State Fault Refusal :=
  finish (patrolProg t bank ecc) s

/-- An address generator begins its next stream record; an empty stream completes at once (R159). -/
def streamStartProg (t k : Nat) : Prog := .look fun s =>
  withP (s.sSite t) fun n => whenP (!(s.mtile n).halted) (
    let g := s.ag t k
    match g.cur, s.streamRecord n k g.recIx with
    | none, some ws =>
      if srUnits ws = 0 then modAg t k fun x => { recIx := x.recIx + 1 }
      else modAg t k fun x => { recIx := x.recIx, cur := some ws }
    | _, _ => .skip)

/-- STREAM_RECORD_START (R157). -/
def execStreamRecordStart (t : STile) (ag : Fin 4) (s : State) : Host.Outcome State Fault Refusal :=
  finish (streamStartProg t ag) s

/-! ## Memory operations (R167 to R171) -/

/-- A memory-operation record: operation, tag action, destination, source, length in words, fill value (Table 06-7). -/
structure MemRec where
  op : Nat
  tagAction : Nat
  dst : Nat
  src : Nat
  len : Nat
  fill : Nat
  deriving DecidableEq, Repr

/-- The record that four words spell. -/
def memRecOf (ws : List Nat) : MemRec :=
  let w0 := recWord ws 0
  ⟨bits w0 63 62, bits w0 61 60, bits w0 59 41, bits w0 40 22, bits (recWord ws 1) 63 44, recWord ws 2⟩

/-- The record is rejected (R170). A length of 0 leaves no range whose alignment a tag action could ask for (R13, R15). -/
def MemRec.bad (m : MemRec) : Bool :=
  decide (m.op = 0 ∨ m.op = 3) || decide (2 ^ 19 < m.dst + m.len) || (m.op == 2 && decide (2 ^ 19 < m.src + m.len))
    || (m.tagAction == 3 && (m.op != 2 || decide (m.len ≠ 0 ∧ (m.dst % 8 ≠ 0 ∨ m.src % 8 ≠ 0 ∨ m.len % 8 ≠ 0))))

/-- The tag action on the slots that a range covers whole (R169). `tags` gives each destination slot the tag of its
source. -/
def tagActions (t : Nat) (m : MemRec) (old : State) : Prog :=
  let ws := (List.range m.len).map fun i => m.dst + i
  eachP ((slotsOf ws).filter fun k => coversSlot ws k) fun k =>
    match m.tagAction with
    | 1 => setTag t k 0
    | 2 => setTag t k 1
    | 3 => setTag t k (old.slotTag t (m.src / 8 + (k - m.dst / 8)))
    | _ => .skip

/-- Counts the granted beats of a copy (Table 06-8): where one range is the wide port's and the other a narrow port's, the wide port
moves one word a beat as the narrow one does. -/
def countCopy (site : Nat) (sws dws : List Nat) : Prog := .look fun s =>
  let ps := sws.zip dws
  let both := ps.filter fun p => s.isWide site p.1 && s.isWide site p.2
  let mixed := (ps.filter fun p => s.isWide site p.1 != s.isWide site p.2).length
  let narrow := ((sws ++ dws).filter fun w => !s.isWide site w).length
  all [
    siteCount64 site 0x51 (wideBeats 0 0 (squeeze (both.map fun p => p.1 / 8)) + wideBeats 0 0 (squeeze (both.map fun p => p.2 / 8))
      + mixed),
    siteCount64 site 0x52 narrow,
    siteCount32 site 0x57 (s.groupSplits site sws + s.groupSplits site dws)]

/-- The island whose valid save area a memory operation reaches (R406). -/
def State.memSaved (s : State) (t : Nat) (m : MemRec) : Option Nat :=
  ((List.range m.len).flatMap fun i => if m.op = 2 then [m.dst + i, m.src + i] else [m.dst + i]).findSome? fun w => s.savedWord t w

/-- Performs a memory operation on S-tile `t` for context `c` (R168, R169). (DEDUCED: notes/assumptions/43.md.) -/
def memOperation (t n c : Nat) (m : MemRec) (e : Ecc) : Prog := .look fun s =>
  let dws := (List.range m.len).map fun i => m.dst + i
  let sws := (List.range m.len).map fun i => m.src + i
  if m.op = 1 then all [
    countBeats n dws,
    tagErrors t n (slotsOf dws) e,
    plainWriteWords t dws ((List.replicate m.len (toBytes 8 m.fill)).flatten) false,
    tagActions t m s,
    eachP (if m.tagAction = 1 then slotsOf dws else []) fun k => slotEmptied t k e]
  else all [
    countCopy n sws dws,
    tagErrors t n (slotsOf (sws ++ dws)) e,
    readErrors t n sws e,
    .look fun s1 =>
      let hit := slotsOf ((sws.zip dws).filterMap fun p => if s1.slotTag t (p.1 / 8) = 2 then some p.2 else none)
      all [
        plainWriteWords t dws (s1.wordBytes t sws) false,
        tagActions t m s1,
        eachP hit fun k => setTag t k 2,
        whenP (!hit.isEmpty) (reportOnce 0x4007 c n 0 n c n),
        eachP (slotsOf dws) fun k => slotEmptied t k e]]

/-- The next memory-operation record of the tile's plan, when its operation is `op`. -/
def memopProg (t op : Nat) (e : Ecc) : Prog := .look fun s =>
  withP (s.sSite t) fun n => withP (s.active n) fun r => withP (s.planOf n) fun p =>
    withP (p.recs[(s.stile t).memIx]?) fun ws =>
      whenP ((memRecOf ws).op == op && !s.sHalted t) (all [
        match s.memSaved t (memRecOf ws) with
        | some i => savedAccess t n r.ctx i (8 * (memRecOf ws).dst)
        | none => .seq (memOperation t n r.ctx (memRecOf ws) e) (siteCount64 n 0x58 e.waitBeats),
        modS t fun x => { x with memIx := x.memIx + 1 }])

/-- MEMOP_FILL (R168). -/
def execMemopFill (t : STile) (ecc : Ecc) (s : State) : Host.Outcome State Fault Refusal := finish (memopProg t 1 ecc) s

/-- MEMOP_COPY (R168). -/
def execMemopCopy (t : STile) (ecc : Ecc) (s : State) : Host.Outcome State Fault Refusal := finish (memopProg t 2 ecc) s

end Sys2Proof.Machine
end

