-- ==== Sys2Proof/Machine/Mortar.lean ====
section
/-! DEFINITION. The Mortar network: injection, arbitration, hops, multicast, links, ejection and returns (chapter 09). -/

namespace Sys2Proof.Machine

open Sys2Proof

/-! ## Packets -/

/-- A packet type of Table 09-5: its class, 0 SYNC, 1 CTRL, 2 BULK; none for a reserved type. -/
def typeClass (t : Nat) : Option Nat :=
  if 0x01 ≤ t ∧ t ≤ 0x06 then some 0
  else if t = 0x10 ∨ t = 0x11 ∨ t = 0x12 ∨ t = 0x3E then some 1
  else if 0x20 ≤ t ∧ t ≤ 0x25 then some 2
  else none

/-- The payload length suits the type (Table 09-5). -/
def lengthOk (t l : Nat) : Bool :=
  if t ≤ 0x06 ∨ t = 0x11 ∨ t = 0x12 then decide (l = 0)
  else if t = 0x10 ∨ t = 0x23 ∨ t = 0x24 then decide (1 ≤ l ∧ l ≤ 1024)
  else if t = 0x20 ∨ t = 0x21 then decide (8 ≤ l ∧ l ≤ 1024 ∧ l % 8 = 0)
  else if t = 0x22 ∨ t = 0x25 then decide (64 ≤ l ∧ l ≤ 1024 ∧ l % 64 = 0)
  else decide (l = 32)

/-- The packet is malformed (R231). -/
def malformed (p : Packet) : Bool :=
  decide (typeClass p.typ ≠ some p.cls) || !lengthOk p.typ p.len || (p.cls == 0 && decide (112 < p.len))

/-- The packet is routed adaptively (R236). -/
def adaptive (p : Packet) : Bool := decide (p.typ = 0x20 ∨ p.typ = 0x23)

/-- The plane of a type with an XY route (Table 09-5). -/
def typePlane (t : Nat) : Nat := if t < 0x20 ∨ t = 0x3E then 0 else 1

/-- The first 16 bytes of a packet's header (Table 09-3): a copy of a multicast has the multicast's (R244). -/
def headerBytes (p : Packet) : List Byte := toBytes 16
  (place (if p.copy then 0xFFF else p.dst) 116 + place p.src 104 + place p.ctx 98 + place p.cls 96 + place p.typ 90 + place p.len 79
    + (if p.poison then 2 ^ 78 else 0) + (if p.axis then 2 ^ 77 else 0) + (if p.includeSource then 2 ^ 76 else 0)
    + place p.farEnd 64 + p.operand % 2 ^ 64)

/-! ## Buffers -/

/-- Appends a packet to a buffer. -/
def pushNet (k : Nat) (p : Packet) : Prog := withState fun s => .net k (s.netAt k ++ [p])

/-- The flits of the packets of a plane and class that an endpoint has checked and not consumed: they still stand in its ejection
queue (R232). A RETURN is consumed at once (R246), and an operation of its own tile never entered the queue. -/
def State.keptFlits (s : State) (plane node cls : Nat) : Nat :=
  ((s.delivered.filter fun q => decide (q.dst = node ∧ q.plane = plane ∧ q.cls = cls ∧ q.typ ≠ 0x3E) && !q.reported).map flits).sum

/-- An endpoint's ejection queue has room for a whole packet (R232); a RETURN always finds it (R246). -/
def State.ejectRoom (s : State) (plane node : Nat) (p : Packet) : Bool :=
  p.typ == 0x3E || decide (s.bufferFlits (netKey plane node 5 p.cls) + s.keptFlits plane node p.cls + flits p ≤ 18)

/-- Removes the first packet of a buffer that equals `p`, which is its head when it moves. -/
def takeNet (k : Nat) (p : Packet) : Prog := withState fun s => .net k ((s.netAt k).erase p)

/-! ## Adaptive routes (R236) -/

/-- Free flits of the BULK buffer beyond an output. -/
def State.freeBeyond (s : State) (plane n d : Nat) : Nat :=
  match neighbour n d with
  | some m => 18 - s.bufferFlits (netKey plane m (1 + opposite d) 2)
  | none => 0

/-- The output direction of an adaptive packet under the north-last rule (R236), and whether it is non-minimal. One whose minimal
moves under that rule all enter link-dead sites goes on over the shortest live route, in the escape buffers, to its end (R39,
R238): a packet bound north-east or north-west whose E or W move is excluded counts so too, where it goes north first. (DESIGN
CHOICE: notes/assumptions/133.md.) -/
def State.adaptiveOut (s : State) (plane n m : Nat) (detoured : Bool) : Option (Nat × Bool) :=
  let live := some ((s.liveOut n m).getD 0, true)
  if n = m then none
  else if detoured then live
  else
    let able := fun d => !s.deadAhead n d
    let mins := (if n % 68 < m % 68 then [1] else []) ++ (if m % 68 < n % 68 then [3] else [])
      ++ (if n / 68 < m / 68 then [2] else [])
    match mins.filter able with
    | d :: ds => some (ds.foldl (fun a b => if s.freeBeyond plane n a < s.freeBeyond plane n b then b else a) d, false)
    | [] =>
      if mins.isEmpty && decide (m / 68 < n / 68) && able 0 then some (0, false)
      else live

/-! ## Returns (R245) -/

/-- The RETURN of a packet, from a node. -/
def returnOf (p : Packet) (reason node : Nat) : Packet :=
  { dst := p.src, src := node, ctx := p.ctx, cls := 1, typ := 0x3E, len := 32, poison := true,
    payload := headerBytes p ++ BitVec.ofNat 8 reason :: List.replicate 15 0, management := p.management }

/-- The kind and number of the unit that an endpoint is, for the log (R484). -/
def endpointUnit (e : Nat) : Nat × Nat := if e < 3264 then (0, e) else if e < 0xD80 then (1, e - 0xD00) else (2, e - 0xD80)

/-- A packet that cannot be delivered to the node `named` is turned into a RETURN by a node; a RETURN itself is discarded
(R245, R246). -/
def returnNaming (p : Packet) (reason node named : Nat) : Prog :=
  let u := endpointUnit node
  all [
    packetDone p,
    if p.typ = 0x3E then reportOnce 0x5002 p.ctx node u.1 u.2 p.ctx (pairArg 0 named)
    else all [
      whenP (decide (node < 3264)) (count32 (0x3000 + node) 0x86 1),
      count64 0x2A00 0x07 1,
      reportOnce 0x5002 p.ctx node u.1 u.2 p.ctx (pairArg reason named),
      withState fun s => .issue (s.issue ++ [{ packet := returnOf p reason node }])]]

/-- A packet that cannot be delivered to its destination is returned. -/
def returnPacketTo (p : Packet) (reason node : Nat) : Prog := returnNaming p reason node p.dst

/-! ## Injection (R228, R241, R243) -/

/-- The substitute of an orphaned X-tile: the next one of its edge, counting upward in `j` and wrapping, that is not
orphaned (R295). -/
def State.substitute (s : State) (x : Nat) : Option Nat :=
  ((List.range 31).map fun k => xAtPlace (x / 32) ((xPlace x + k + 1) % 32)).find? fun y => !(s.xtile y).orphan

/-- The X-tile that serves an HBM address: its home, or the home's substitute once the route tables send traffic there (R290,
R295). -/
def State.serverX (s : State) (a : Nat) : Nat :=
  let x := homeX a
  if (s.xtile x).rerouted then (s.substitute x).getD x else x

/-- A request of an engine of context `c` comes back returned by `node` (R245): counted and reported. -/
def requestReturned (c reason node dst : Nat) : Prog :=
  let u := endpointUnit node
  all [
    whenP (decide (node < 3264)) (count32 (0x3000 + node) 0x86 1),
    count64 0x2A00 0x07 1,
    reportOnce 0x5002 c node u.1 u.2 c (pairArg reason dst)]

/-- A request of context `c` to a line that its stack cannot serve comes back from the X-tile (R305). -/
def lineReturned (c a : Nat) : Prog := .look fun s =>
  requestReturned c 3 (0xD00 + s.serverX a) (0xD00 + s.serverX a)

/-- Lines of a range of HBM lie behind a memory lintel that lets nothing through: the access waits (R314). -/
def State.hbmWaits (s : State) (a n : Nat) : Bool := (linesOf a n).any fun l => !s.lintelOpen (s.serverX (64 * l))

/-- The corner X-tile of the active host port: port `h` lies on die 2h (Table 12-1, R328). -/
def State.hostCorner (s : State) : Nat := 0xD80 + 2 * s.reg 0x2E10 0x01

/-- The endpoint that a device address translates to (R228, R290); none for an address error. -/
def State.translate (s : State) (a : Nat) : Option Nat :=
  match placeOf a with
  | .hbm x => some (0xD00 + s.serverX x)
  | .scratch t _ _ => s.siteOf (sTileLogical t)
  | .store m _ => s.siteOf (mTileLogical m)
  | .pairWindow n _ => some (0xD80 + n / 256)
  | .host _ => some s.hostCorner
  | .hole => none

/-- A multicast's far end lies on its line, inside the partition of its context (R243). -/
def State.multicastOk (s : State) (p : Packet) : Bool :=
  (p.typ == 0x01 || p.typ == 0x02 || p.typ == 0x06 || p.typ == 0x25) && decide (p.src < 3264 ∧ p.farEnd < 3264)
    && (if p.axis then decide (p.src % 68 = p.farEnd % 68) else decide (p.src / 68 = p.farEnd / 68))
    && (p.management || (s.partMask p.ctx).testBit (siteRegion p.farEnd))

/-- The reason for which the source's own router returns a packet, none when it goes out (R245). -/
def State.injectReason (s : State) (p : Packet) : Option Nat :=
  if p.typ = 0x3E then none
  else if p.dst = 0xFFF then (if s.multicastOk p then none else some 5)
  else if !endpointExists p.dst then some 5
  else if decide (p.dst < 3264) && !p.management && !(s.partMask p.ctx).testBit (siteRegion p.dst) then some 6
  else none

/-- The plane that a packet takes from a router (Table 09-5, R236). -/
def State.planeFor (s : State) (p : Packet) (n : Nat) : Nat :=
  if adaptive p then (if s.bufferFlits (netKey 0 n 0 2) < s.bufferFlits (netKey 1 n 0 2) then 0 else 1) else typePlane p.typ

/-- Injection of ordered packets is stopped for the packet's context (R239). -/
def State.injectStopped (s : State) (p : Packet) : Bool :=
  !adaptive p && !p.management && (s.injectStop &&& s.partMask p.ctx) != 0

/-- A descriptor of a context ends with a status: its completion record is to be written. -/
def endDescriptor (c n code : Nat) : Prog := modCtx c fun x => { x with
  active := x.active.map fun d => if d.num = n ∧ d.status = none then { d with status := some code } else d }

/-- A packet of a SET_FLAG, CLEAR_FLAG or POST_RING descriptor has been injected: the descriptor completes (R265). -/
def injectedFor (q : Request) : Prog :=
  match q.origin with
  | .descriptor c n => whenP (decide (q.packet.typ = 0x01 ∨ q.packet.typ = 0x02 ∨ q.packet.typ = 0x24)) (endDescriptor c n 0)
  | _ => .skip

/-- An address error that the injection stage finds: no packet is sent (R27, R228). A descriptor fails with event
0x8004, and for any other engine an address in a scratchpad window is reported as event 0x4003 (R148). -/
def injectAddressError (q : Request) : Prog :=
  match q.origin with
  | .descriptor c n => all [
      endDescriptor c n 0x8004,
      reportOnce 0x8004 c (queueEndpoint c) 2 (queueDie c) c n]
  | _ => match placeOf q.packet.operand with
    | .scratch t off _ => addressErrorAt t q.packet.ctx off
    | _ => .skip

/-- The packet that a request of an endpoint becomes; none for an address error (R228, R236). -/
def State.requestPacket (s : State) (q : Request) : Option Packet :=
  (if q.byAddr then s.translate q.packet.operand else some q.packet.dst).map fun e =>
    let p := { q.packet with dst := e }
    { p with plane := s.planeFor p p.src }

/-- The multicast has no target beyond its source. -/
def endsHere (p : Packet) : Bool := p.dst == 0xFFF && p.farEnd == p.src

/-- The source's router takes the packet of a request now: it ends there, or the router's input buffer has room, and so does the
source's own ejection queue where it is a target; a SYNC packet of a site waits for the pacing interval, of which `beats` have
passed (R232, R241). -/
def State.injects (s : State) (q : Request) (beats : Nat) : Bool :=
  match s.requestPacket q with
  | none => true
  | some p => (s.injectReason p).isSome
    || ((endsHere p || s.room (netKey p.plane p.src 0 p.cls) 18 p)
        && (!(p.dst == 0xFFF && p.includeSource) || s.ejectRoom p.plane p.src p)
        && (p.cls != 0 || decide (3264 ≤ p.src) || decide (s.reg 0x2A00 0x04 ≤ beats)))

/-- The oldest request of an endpoint that its router takes now. Requests of one class leave in order; those that a change of
route tables stops wait aside (R233, R239). -/
def State.nextRequest (s : State) (src beats : Nat) (held : List Nat) (qs : List Request) : Option Request :=
  match qs with
  | [] => none
  | q :: qs =>
    if q.packet.src ≠ src ∨ s.injectStopped q.packet ∨ held.contains q.packet.cls then s.nextRequest src beats held qs
    else if s.injects q beats then some q
    else s.nextRequest src beats (q.packet.cls :: held) qs

/-- Injects the next request of an endpoint, `beats` after the last SYNC packet that it injected on that plane (R228, R241). -/
def injectProg (src beats : Nat) : Prog := .look fun s =>
  withP (s.nextRequest src beats [] s.issue) fun q =>
    let gone := withState fun t => .issue (t.issue.erase q)
    match s.requestPacket q with
    | none => all [gone, injectAddressError q]
    | some p =>
      match s.injectReason p with
      | some r => all [gone, whenP (isFlagOp p) (setReg (0x2700 + p.ctx) 0x0A (s.reg (0x2700 + p.ctx) 0x0A + 1)),
          returnPacketTo p r src]
      | none => all [
          gone,
          injectedFor q,
          whenP (isFlagOp p && p.dst != 0xFFF) (count32 (0x2700 + p.ctx) 0x0A 1),
          whenP (decide (src < 3264)) (count64 (0x3000 + src) 0x80 1),
          whenP (p.dst == 0xFFF && p.includeSource) (.seq
            (pushNet (netKey p.plane src 5 p.cls) { p with dst := src, copy := true })
            (count64 (0x3000 + src) 0x82 (flits p))),
          whenP (!endsHere p) (.seq (pushNet (netKey p.plane src 0 p.cls) p) (claimRoute p.plane src 0 p))]

/-- PACKET_INJECT (R228). -/
def execPacketInject (src : Endpoint) (beats : Nat) (s : State) : Host.Outcome State Fault Refusal :=
  finish (injectProg src beats) s

/-! ## Moves of a router (R232 to R241) -/

/-- Where the packet at the head of an input goes: into the router's endpoint, over a link to the next router's port, or back
with a reason. `off` marks that it leaves its route. -/
inductive Move where
  | eject
  | link (d next port : Nat) (off : Bool)
  | back (reason : Nat)
  deriving DecidableEq, Repr

/-- The flits of a link direction that are not acknowledged. -/
def LinkState.unacked (l : LinkState) : Nat := (l.flight.map fun f => f.left).sum

/-- The direction of a multicast's line at a site. -/
def lineDir (p : Packet) (n : Nat) : Nat := (xyDir n p.farEnd).getD 0

/-- The move of a unicast packet at an input port of a router. -/
def State.moveOf (s : State) (plane node port : Nat) (p : Packet) : Move :=
  let across := fun (d next : Nat) (off : Bool) =>
    if s.linkFailed plane node d then .back 4 else .link d next (portBeyond node d) off
  if 3264 ≤ node then
    if p.dst = node then .eject
    else if s.deadSite (endpointSite node) then .back 4 else across 0 (endpointSite node) false
  else
    let m := endpointSite p.dst
    match if adaptive p then s.adaptiveOut plane node m p.detoured else s.xyOut node m port p.detoured with
    | none => match endpointPort p.dst with
      | none => if s.isFenced p.dst then .back 1 else .eject
      | some d => across d p.dst false
    | some x => if s.deadSite m || s.deadAhead node x.1 then .back 4
      else match neighbour node x.1 with
        | some n' => across x.1 n' x.2
        | none => .back 4

/-- The output that a move takes: 0 the endpoint, 1 + d direction d. -/
def Move.out (m : Move) : Option Nat :=
  match m with
  | .eject => some 0
  | .link d _ _ _ => some (1 + d)
  | .back _ => none

/-- The buffer that a packet enters at the next router, and its size: the reserved escape buffer once it is off its route
(R238). -/
def landing (plane next port : Nat) (p : Packet) (off : Bool) : Nat × Nat :=
  if p.detoured || off then (netKey plane next (port + 8) p.cls, 9) else (netKey plane next port p.cls, 18)

/-- A move has the room that it needs (R232, R248). -/
def State.fits (s : State) (plane node : Nat) (p : Packet) (m : Move) : Bool :=
  match m with
  | .eject => s.ejectRoom plane node p
  | .link d next port off =>
    s.room (landing plane next port p off).1 (landing plane next port p off).2 p
      && decide ((s.link (linkKey plane node d)).unacked + flits p ≤ 32)
  | .back _ => true

/-- A site on a multicast's line is a target: it serves (R243). -/
def State.lineTarget (s : State) (n : Nat) : Bool := !s.isFenced n && (s.tileOf n).isSome

/-- The next router of a multicast accepts it: room for the whole packet in its input buffer and in the ejection queue of a
target (R244). -/
def State.lineAccepts (s : State) (plane n' d : Nat) (p : Packet) : Bool :=
  s.room (netKey plane n' (1 + opposite d) p.cls) 18 p && (!s.lineTarget n' || s.ejectRoom plane n' p)

/-- A multicast may leave a router along its line: it is accepted and its flits fit the replay buffer. -/
def State.lineMoves (s : State) (plane node : Nat) (p : Packet) : Bool :=
  match neighbour node (lineDir p node) with
  | some n' => !s.deadSite n' && !s.linkFailed plane node (lineDir p node) && s.lineAccepts plane n' (lineDir p node) p
      && decide ((s.link (linkKey plane node (lineDir p node))).unacked + flits p ≤ 32)
  | none => false

/-- The output that a packet at an input could take now; none while it must wait, or goes back. -/
def State.wants (s : State) (plane node port : Nat) (p : Packet) : Option Nat :=
  if p.dst = 0xFFF then (if s.lineMoves plane node p then some (1 + lineDir p node) else none)
  else
    let m := s.moveOf plane node port p
    if s.fits plane node p m then m.out else none

/-- The packets at the head of an input of a class, with their buffers: the port's own buffer and its escape buffer. -/
def State.heads (s : State) (plane node port cls : Nat) : List (Nat × Packet) :=
  [netKey plane node port cls, netKey plane node (port + 8) cls].filterMap fun k => (s.netAt k).head?.map fun p => (k, p)

/-- The head of an input of a class that could take an output now. -/
def State.waiting (s : State) (plane node out cls port : Nat) : Option (Nat × Packet) :=
  (s.heads plane node port cls).find? fun x => s.wants plane node port x.2 == some out

/-- The input after the one of class `cls` that an output granted last, and its CTRL grants in a row (R240). -/
def arbNext (v cls : Nat) : Nat := v / 8 ^ cls % 8
/-- The CTRL grants in a row of an output while a BULK packet waits. -/
def arbRun (v : Nat) : Nat := v / 512

/-- The input of a class whose turn it is at an output: round-robin local, N, E, S, W after the input granted last (R240). -/
def State.turn (s : State) (plane node out cls : Nat) : Option Nat :=
  ((List.range 5).map fun i => (arbNext (s.arbAt (outKey plane node out)) cls + i) % 5).find? fun port =>
    (s.waiting plane node out cls port).isSome

/-- The class and input that an output grants now: SYNC first; nothing else while a claim is held; CTRL before BULK, but one BULK
packet after 4 CTRL grants while it waits (R240, R241). -/
def State.granted (s : State) (plane node out : Nat) : Option (Nat × Nat) :=
  match s.turn plane node out 0 with
  | some p => some (0, p)
  | none =>
    if 0 < s.claimAt (outKey plane node out) then none
    else match s.turn plane node out 1, s.turn plane node out 2 with
      | some c, some b => if 4 ≤ arbRun (s.arbAt (outKey plane node out)) then some (2, b) else some (1, c)
      | some c, none => some (1, c)
      | none, some b => some (2, b)
      | none, none => none

/-- An output grants an input of a class: its turn passes on, and a CTRL grant while a BULK packet waits counts (R240). -/
def grantOutput (plane node out cls port : Nat) : Prog := .look fun s =>
  let v := s.arbAt (outKey plane node out)
  let run := if cls = 1 ∧ (s.turn plane node out 2).isSome then arbRun v + 1 else if cls = 0 then arbRun v else 0
  let next := fun (c : Nat) => (if c = cls then (port + 1) % 5 else arbNext v c) * 8 ^ c
  .eff (.arbs (outKey plane node out) (next 0 + next 1 + next 2 + 512 * run))

/-- A link direction carries a packet into buffers of its receiver: its flits count and wait for acknowledgement (R248). -/
def sendOnLink (plane n d : Nat) (p : Packet) (keys : List Nat) : Prog := all [
  whenP (decide (n < 3264)) (count64 (0x3000 + n) 0x82 (flits p)),
  modLink (linkKey plane n d) fun l => { l with
    nextSeq := (l.nextSeq + flits p) % 64, flight := l.flight ++ [⟨p, keys, flits p⟩] }]

/-- A SYNC packet passes an output whose claim it made. -/
def passClaim (plane n d : Nat) (p : Packet) : Prog := whenP (p.cls == 0)
  (withState fun s => .claims (outKey plane n (1 + d)) (s.claimAt (outKey plane n (1 + d)) - 1))

/-- Makes the move of the packet `p` at the head of buffer `key`. -/
def makeMove (plane node port key : Nat) (p : Packet) (m : Move) : Prog :=
  match m with
  | .back r => all [takeNet key p, unclaimRoute plane node port p, returnPacketTo p r node]
  | .eject => all [
      grantOutput plane node 0 p.cls port, takeNet key p,
      whenP (decide (node < 3264)) (count64 (0x3000 + node) 0x82 (flits p)),
      pushNet (netKey plane node 5 p.cls) p]
  | .link d next inPort off =>
    let dest := (landing plane next inPort p off).1
    all [
      grantOutput plane node (1 + d) p.cls port, takeNet key p, sendOnLink plane node d p [dest], passClaim plane node d p,
      pushNet dest { p with detoured := p.detoured || off },
      whenP (off && !p.detoured) (all [count32 (0x3000 + node) 0x89 1, reportOnce 0x5006 p.ctx node 0 node p.ctx node])]

/-- The head of an input that acts now on a command for class `cls` and input `port`: one that goes back, or the one that its
output grants. -/
def State.actsNow (s : State) (plane node port cls : Nat) (hs : List (Nat × Packet)) (isBack : Packet → Bool) :
    Option (Nat × Packet) :=
  hs.find? fun x => isBack x.2 || (match s.wants plane node port x.2 with
    | some o => s.granted plane node o == some (cls, port)
        && (s.waiting plane node o cls port).any fun y => y.1 == x.1
    | none => false)

/-- A unicast packet goes back from a router. -/
def State.movesBack (s : State) (plane node port : Nat) (p : Packet) : Bool :=
  match s.moveOf plane node port p with
  | .back _ => true
  | _ => false

/-- A claim keeps a unicast packet from starting. -/
def State.claimHolds (s : State) (plane node port : Nat) (p : Packet) : Bool :=
  match (s.moveOf plane node port p).out with
  | some o => decide (0 < s.claimAt (outKey plane node o))
  | none => false

/-- One hop of a unicast packet at the head of an input, when its output grants it; otherwise the beats for which a claim has
kept it count (R241). -/
def hopProg (plane node port cls claimBeats : Nat) : Prog := .look fun s =>
  let hs := (s.heads plane node port cls).filter fun x => x.2.dst != 0xFFF
  match s.actsNow plane node port cls hs (s.movesBack plane node port) with
  | some x => makeMove plane node port x.1 x.2 (s.moveOf plane node port x.2)
  | none => whenP (cls != 0 && decide (node < 3264) && hs.any fun x => s.claimHolds plane node port x.2)
      (count64 (0x3000 + node) 0x88 claimBeats)

/-- ROUTER_HOP (R233). -/
def execRouterHop (plane : Plane) (node : Endpoint) (port : Fin 5) (cls : Cls) (claimBeats : Nat) (s : State) :
    Host.Outcome State Fault Refusal := finish (hopProg plane node port cls claimBeats) s

/-! ## Multicast (R243, R244) -/

/-- The site that stops a multicast at a router: link-dead, behind a failed link, or missing. -/
def State.lineStops (s : State) (plane node : Nat) (p : Packet) : Bool :=
  match neighbour node (lineDir p node) with
  | some n' => s.deadSite n' || s.linkFailed plane node (lineDir p node)
  | none => true

/-- A multicast at the head of buffer `key` moves to the next router `n'` of its line, which ejects a copy. -/
def lineStep (plane node port key n' : Nat) (p : Packet) : Prog := .look fun s =>
  let d := lineDir p node
  let copyKey := netKey plane n' 5 p.cls
  let onKey := netKey plane n' (1 + opposite d) p.cls
  let copied := s.lineTarget n'
  all [
    grantOutput plane node (1 + d) p.cls port, takeNet key p,
    sendOnLink plane node d p ((if copied then [copyKey] else []) ++ (if n' = p.farEnd then [] else [onKey])),
    passClaim plane node d p,
    whenP copied (.seq (pushNet copyKey { p with dst := n', copy := true }) (count64 (0x3000 + n') 0x82 (flits p))),
    whenP (n' != p.farEnd) (pushNet onKey p)]

/-- The multicast at the head of an input moves on when the next router accepts it and its output grants it; a site that cannot
be reached stops it, and the router before it returns it, naming that site (R244). -/
def multicastProg (plane node port cls : Nat) : Prog := .look fun s =>
  let hs := (s.heads plane node port cls).filter fun x => x.2.dst == 0xFFF && decide (node < 3264)
  withP (s.actsNow plane node port cls hs (s.lineStops plane node)) fun x =>
    let n' := (neighbour node (lineDir x.2 node)).getD 0xFFF
    if s.lineStops plane node x.2 then
      all [takeNet x.1 x.2, unclaimRoute plane node port x.2, returnNaming x.2 4 node n']
    else lineStep plane node port x.1 n' x.2

/-- MULTICAST_FORWARD (R244). -/
def execMulticastForward (plane : Plane) (node : Endpoint) (port : Fin 5) (cls : Cls) (s : State) :
    Host.Outcome State Fault Refusal := finish (multicastProg plane node port cls) s

/-- A multicast has held for `beats`: they count, and above the threshold the hold is reported once for the packet. -/
def holdProg (plane node port cls beats : Nat) : Prog := .look fun s =>
  let key := netKey plane node port cls
  match s.netAt key with
  | [] => .skip
  | p :: ps =>
    whenP (p.dst == 0xFFF && decide (node < 3264)) (
      withP (neighbour node (lineDir p node)) fun n' => whenP (!s.lineAccepts plane n' (lineDir p node) p) (all [
        count64 (0x3000 + node) 0x87 beats,
        whenP (decide (s.reg 0x2A00 0x02 < beats) && !p.reported) (all [
          .eff (.net key ({ p with reported := true } :: ps)),
          report 0x5007 0 node p.ctx (pairArg node n')])]))

/-- MULTICAST_HOLD_THRESHOLD (R244). -/
def execMulticastHoldThreshold (plane : Plane) (node : Endpoint) (port : Fin 5) (cls : Cls) (beats : Nat) (s : State) :
    Host.Outcome State Fault Refusal := finish (holdProg plane node port cls beats) s

/-! ## Links (R247, R248) -/

/-- The packets of a buffer of a router that would leave in direction `d` are returned with reason 4. -/
def returnHeld (plane n d port cls : Nat) (escape : Bool) : Prog := .look fun s =>
  let key := netKey plane n (if escape then port + 8 else port) cls
  let goes := fun (p : Packet) =>
    if p.dst = 0xFFF then lineDir p n == d
    else if 3264 ≤ n then p.dst != n
    else match if adaptive p then s.adaptiveOut plane n (endpointSite p.dst) p.detoured
        else s.xyOut n (endpointSite p.dst) port p.detoured with
      | some x => x.1 == d
      | none => endpointPort p.dst == some d
  all [
    .eff (.net key ((s.netAt key).filter fun p => !goes p)),
    eachP ((s.netAt key).filter goes) fun p => .seq (unclaimRoute plane n port p)
      (returnNaming p 4 n (if p.dst = 0xFFF then (neighbour n d).getD 0xFFF else p.dst))]

/-- A packet in a buffer is the packet `p` that a link carried there, or a copy of it. -/
def samePacket (p q : Packet) : Bool :=
  (q.copy || q.dst == p.dst)
    && decide ({ q with dst := p.dst, detoured := p.detoured, reported := p.reported, copy := p.copy } = p)

/-- A packet in flight on a failed direction `d` of router `n`: the receiver discards it where it stands in the buffers that the
link led to, and the sender returns it. One that has left them all was received whole, and only its acknowledgement is lost.
(DEDUCED: notes/assumptions/50.md.) -/
def dropPartly (n d : Nat) (f : Flight) : Prog := .look fun s =>
  let held := f.keys.filter fun k => (s.netAt k).any (samePacket f.packet)
  all [
    eachP held fun k => all [
      withP ((s.netAt k).reverse.find? (samePacket f.packet)) (unclaimAt k),
      .look fun t => .eff (.net k ((t.netAt k).reverse.eraseP (samePacket f.packet)).reverse)],
    whenP (!held.isEmpty) (returnNaming f.packet 4 n
      (if f.packet.dst = 0xFFF then (routerBeyond n d).getD 0xFFF else f.packet.dst))]

/-- A link direction of a router fails: the receiver discards what it has received in part, the sender returns what it holds for
the link, sent in part or not, and a site takes a class 4 fault (R248, Table 14-1). (DEDUCED: notes/assumptions/50.md.) -/
def failLink (plane n d : Nat) : Prog := .look fun s =>
  let l := s.link (linkKey plane n d)
  let u := endpointUnit n
  all [
    .look fun t => if n < 3264 then setReg (0x3000 + n) 0x8A (setBit (t.reg (0x3000 + n) 0x8A) (4 * plane + d)) else .skip,
    report 0x5005 u.1 u.2 n (pairArg n (4 * plane + d)),
    eachP l.flight (dropPartly n d),
    eachP [0, 1, 2, 3, 4] fun port => eachP [0, 1, 2] fun cls => all [
      returnHeld plane n d port cls false, returnHeld plane n d port cls true],
    modLink (linkKey plane n d) fun _ => { failed := decide (3264 ≤ n) },
    whenP (decide (n < 3264)) (siteFault n 4 600)]

/-- One flit of a link direction is acknowledged. -/
def LinkState.acked (l : LinkState) : LinkState :=
  match l.flight with
  | [] => l
  | f :: fs => { l with flight := if f.left ≤ 1 then fs else { f with left := f.left - 1 } :: fs }

/-- The receiver at the far end of an outbound link direction takes the next flit. -/
def flitProg (n plane d : Nat) (err : FlitError) : Prog := .look fun s =>
  let l := s.link (linkKey plane n d)
  whenP (decide (0 < l.unacked) && !l.rejecting && !s.linkFailed plane n d)
    (match err with
     | .bad =>
       if s.reg 0x2A00 0x03 < l.fails + 1 then failLink plane n d
       else modLink (linkKey plane n d) fun l => { l with rejecting := true, fails := l.fails + 1 }
     | _ => all [
       modLink (linkKey plane n d) fun l => { l.acked with expected := (l.expected + 1) % 64, fails := 0 },
       match err with
       | .corrected => withP (routerBeyond n d) fun m => whenP (decide (m < 3264)) (count32 (0x3000 + m) 0x83 1)
       | _ => .skip])

/-- FLIT_RECEIVE (R247). -/
def execFlitReceive (node : Endpoint) (plane : Plane) (d : Dir) (err : FlitError) (s : State) :
    Host.Outcome State Fault Refusal := finish (flitProg node plane d err) s

/-- The sender resends after a negative acknowledgement; a retry above the threshold of a second is reported once in
it. -/
def retryProg (n plane d : Nat) : Prog := .look fun s =>
  let l := s.link (linkKey plane n d)
  let sec := s.now / second + 1
  let k := if l.second = sec then l.retries + 1 else 1
  let u := endpointUnit n
  whenP (l.rejecting && !s.linkFailed plane n d) (all [
    modLink (linkKey plane n d) fun l => { l with rejecting := false, second := sec, retries := k },
    whenP (decide (n < 3264)) (count32 (0x3000 + n) 0x84 1),
    whenP (decide (k = s.reg 0x2A00 0x05 + 1)) (report 0x5004 u.1 u.2 n (pairArg n (4 * plane + d)))])

/-- LINK_RETRY (R248). -/
def execLinkRetry (node : Endpoint) (plane : Plane) (d : Dir) (s : State) : Host.Outcome State Fault Refusal :=
  finish (retryProg node plane d) s

/-! ## Ejection (R231, R249, R250) -/

/-- The bytes of a packet's flits, header flit first (R229, R230). -/
def flitBytes (p : Packet) : List Byte :=
  if p.len ≤ 112 then headerBytes p ++ padTo 112 (p.payload.take p.len)
  else headerBytes p ++ List.replicate 112 0 ++ padTo (128 * ceilDiv p.len 128) (p.payload.take p.len)

/-- The CRC-32 of a packet's flits (R249). -/
def packetCrc (p : Packet) : Nat := crc32 (flitBytes p)

/-- A packet that the flits brought as `r` with the CRC `crc`, of the packet that was sent: its header and payload are those that
came, the model's marks those of the packet. -/
def arrived (p r : Packet) : Packet :=
  { r with
    dst := if p.copy then p.dst else r.dst, reported := p.reported, copy := p.copy, management := p.management
    plane := p.plane, detoured := p.detoured, followed := p.followed }

/-- The types that a memory X-tile takes (R296). -/
def xTakes (t : Nat) : Bool := t == 0x12 || t == 0x20 || t == 0x21 || t == 0x3E

/-- A packet whose CRC checks has reached an endpoint: its format and its poison are checked, and the endpoint takes it. -/
def takePacket (node : Nat) (p : Packet) : Prog := .look fun s =>
  let u := endpointUnit node
  if malformed p then all [
    reportOnce 0x5001 p.ctx node u.1 u.2 node (pairArg p.cls p.typ), packetDone p]
  else if p.poison && (p.cls == 0 || p.typ == 0x11 || p.typ == 0x12) then all [
    report 0x500A u.1 u.2 p.ctx p.typ, packetDone p, poisonDeath p.ctx u.1 u.2 node]
  else if decide (node < 3264) && s.isFenced node then returnPacketTo p 1 node
  else if decide (0xD80 ≤ node) && !s.dieUp (node - 0xD80) then returnPacketTo p 4 node
  else if decide (0xD00 ≤ node ∧ node < 0xD80) && !xTakes p.typ then returnPacketTo p 3 node
  else all [progress p.ctx, withState fun t => .delivered (t.delivered ++ [p])]

/-- The engines of a site take nothing: its slice runs, or it has halted and is not reset yet (R402, R105). -/
def State.siteHolds (s : State) (n : Nat) : Bool := s.slicing n || (s.mtile n).halted

/-- A packet that its endpoint does not take now and that waits in front of it: one for the engines of a site that take nothing, and
one for an endpoint behind a lintel that lets nothing through (R314, R402). What the tile monitor takes, flag operations, section
packets and plan lines, does not wait, and no RETURN does (R246). (DEDUCED: notes/assumptions/78.md.) -/
def State.endpointHolds (s : State) (node : Nat) (p : Packet) : Bool :=
  p.typ != 0x3E && (decide (node < 3264) && s.siteHolds node && p.cls != 0 && p.typ != 0x25
    || !s.endpointOpen node && (decide (node < 0xD80) || s.dieUp (node - 0xD80)))

/-- The packet that an endpoint takes from its ejection queue: the head, or the oldest RETURN while the head is held (R246). -/
def State.ejectNext (s : State) (key node : Nat) : Option Packet :=
  match s.netAt key with
  | [] => none
  | p :: ps => if s.endpointHolds node p then ps.find? fun q => q.typ == 0x3E else some p

/-- The next packet of an endpoint's ejection queue is checked and taken. `damage` is the packet with its CRC as they came,
where they are not what was sent. -/
def ejectProg (plane node cls : Nat) (damage : Option (Packet × Nat)) : Prog := .look fun s =>
  let key := netKey plane node 5 cls
  let u := endpointUnit node
  withP (s.ejectNext key node) fun p => all [
      takeNet key p,
      whenP (decide (node < 3264)) (count64 (0x3000 + node) 0x81 1),
      match damage with
      | none => takePacket node p
      | some x => if packetCrc x.1 = x.2 then takePacket node (arrived p x.1)
        else all [
          whenP (decide (node < 3264)) (count32 (0x3000 + node) 0x85 1), count64 0x2A00 0x08 1,
          report 0x5003 u.1 u.2 x.1.src x.1.dst, packetDone p]]

/-- PACKET_EJECT (R249). -/
def execPacketEject (plane : Plane) (node : Endpoint) (cls : Cls) (damage : Option (Packet × Nat)) (s : State) :
    Host.Outcome State Fault Refusal := finish (ejectProg plane node cls damage) s

/-- A packet is the next that its endpoint consumes: the oldest of its plane and class there (R232, R233, R237), and one that
the endpoint can take (R314, R402). A RETURN waits for nothing (R246). -/
def State.isNext (s : State) (p : Packet) : Bool :=
  (s.delivered.find? fun q => decide (q.dst = p.dst ∧ q.cls = p.cls ∧ q.plane = p.plane ∧ (q.typ = 0x3E ↔ p.typ = 0x3E))) == some p
    && !s.endpointHolds p.dst p

/-- A device address lies in the windows of a logical tile that is absent (R37). -/
def State.absentAt (s : State) (a : Nat) : Bool :=
  match placeOf a with
  | .scratch t _ _ => (s.sSite t).isNone
  | .store m _ => (s.siteOf (mTileLogical m)).isNone
  | _ => false

/-- Why a tile returns a packet whose address is not its own: 1 when the tile that it was for is absent by now, else 3 (R37,
Table 09-7). -/
def State.missReason (s : State) (p : Packet) : Nat := if s.absentAt (bits p.operand 47 0) then 1 else 3

/-- An endpoint applies the next packet that it has taken and checked, of type `typ`; nothing happens for another packet. -/
def applyPacket (typ : Nat) (p : Packet) (f : Prog) : Prog := .look fun s =>
  whenP (p.typ == typ && s.isNext p) (all [
    withState fun t => .delivered (t.delivered.erase p), f])

end Sys2Proof.Machine
end

