-- ==== Sys2Proof/Machine/Microcode.lean ====
section
/-! DEFINITION. The microcode broadcast: the management plane's own PLAN_WRITE multicasts on plane B (R20, R428). -/

namespace Sys2Proof.Machine

open Sys2Proof

/-- A firmware copy. -/
def State.copy (s : State) (k : Nat) : Firmware := s.firmware.getD k { good := false }

/-- The 16 packets of an image. -/
def microcodePackets : Nat := 16

/-- Byte `i` of the microcode of a site's tile type, in the firmware copy that the controller booted (R424, R428). -/
def State.microcodeByte (s : State) (n i : Nat) : Byte :=
  Config.tileMicrocode (s.copy (s.reg 0x2030 0x03)).image (siteType n) i

/-- Packet `k` of the image that a seed site multicasts to the site `far` of its course (R428). -/
def State.microcodePacket (s : State) (seed far k : Nat) : Packet :=
  { dst := 0xFFF, src := seed, ctx := 0, cls := 2, typ := 0x25, len := 1024, operand := 3 + place (16 * k) 2,
    includeSource := true, farEnd := far, plane := 1, management := true,
    payload := (List.range 1024).map fun i => s.microcodeByte seed (1024 * k + i) }

/-- The runs of serving sites in a stretch of a course, from west to east: a link-dead site divides them (R428). -/
def State.runsOf (s : State) (sites : List Nat) : List (List Nat) :=
  (sites.foldr (fun n runs => match runs with
    | [] => []
    | r :: rs => if s.deadSite n then [] :: r :: rs else if s.lineTarget n then (n :: r) :: rs else r :: rs) [[]]).filter
    fun r => !r.isEmpty

/-- The seed site of each run of a stretch injects the packets `ks` of the image for the run (R428). -/
def seedRuns (sites ks : List Nat) : Prog := .look fun s =>
  eachP (s.runsOf sites) fun run => withP run.head? fun seed => withP run.getLast? fun far =>
    withState fun t => .issue (t.issue ++ ks.map fun k => { packet := s.microcodePacket seed far k })

/-- The sites of a course from pier `lo` to pier `hi`. -/
def coursePart (row lo hi : Nat) : List Nat := ((List.range 68).filter fun i => decide (lo ≤ i ∧ i ≤ hi)).map fun i => row * 68 + i

/-- A site awaits the whole image (R428). -/
def awaitImage (n : Nat) : Prog := withState fun s =>
  .microcode n { s.microcodeAt n with left := microcodePackets, parts := [], bad := false, failed := false }

/-- Sites that serve only since the broadcast are sent the image, each by itself. -/
def seedSites (ns : List Nat) : Prog := eachP ns fun n => .seq (awaitImage n) (seedRuns [n] (List.range microcodePackets))

/-- The controller sends every course its type's microcode: each serving site awaits the whole image (R428). -/
def broadcastMicrocode : Prog := .look fun s => all [
  .eff (.dropMicrocode 0 everyKey),
  eachP ((List.range 3264).filter s.lineTarget) awaitImage,
  eachP (List.range 48) fun row => seedRuns (coursePart row 0 67) (List.range microcodePackets)]

/-- The packet of the image that a stopped multicast carried goes to the part of its run beyond the site that stopped it, seeded
in the same way (R428). (DESIGN CHOICE: notes/assumptions/109.md.) -/
def seedBeyond (p : Packet) : Prog :=
  let header := ofBytes (p.payload.take 16)
  whenP (p.management && bits header 95 90 == 0x25 && p.payload.getD 16 0 == 4 && decide (p.src < 3264))
    (seedRuns (coursePart (siteRow p.src) (sitePier p.src + 1) (sitePier (bits header 75 64))) [bits header 13 2 / 16])

/-- The image that a site has received, line by line. -/
def Microcode.image (x : Microcode) : List Byte :=
  (List.range microcodePackets).flatMap fun k => ((x.parts.find? fun e => decide (e.1 = 16 * k)).map fun e => e.2).getD []

/-- The CRC-32 of the image that the controller sends to a site's type. -/
def State.microcodeCrc (s : State) (n : Nat) : Nat :=
  crc32 ((List.range (1024 * microcodePackets)).map (s.microcodeByte n))

/-- A site's image after one packet, which brings a line of slot 3; with the last, the CRC-32 is checked and the image goes into
the microcode store (R428). -/
def State.microcodeAfter (s : State) (p : Packet) : Microcode :=
  let x := s.microcodeAt p.dst
  let y : Microcode := { x with left := x.left - 1, parts := (p.operand / 4, p.payload) :: x.parts, bad := x.bad || p.poison }
  if y.left ≠ 0 then y
  else if y.bad || crc32 y.image != s.microcodeCrc p.dst then { failed := true, store := x.store }
  else { store := y.image }

/-- The tile monitor takes one packet of its image; with the last of an image whose CRC-32 checks, its four plan slots become
empty (R428). -/
def takeMicrocode (p : Packet) : Prog := .look fun s =>
  let y := s.microcodeAfter p
  whenP (decide (0 < (s.microcodeAt p.dst).left) && decide (p.operand % 4 = 3)) (all [
    .eff (.microcode p.dst y),
    whenP (y.left == 0 && !y.failed) (eachP [0, 1, 2, 3] fun slot => withP (s.tileOf p.dst) fun l => all [
      .eff (.plans (l * 4 + slot) none), setSlotState p.dst slot 0])])

end Sys2Proof.Machine
end

