-- ==== Sys2Proof/Machine/Flags.lean ====
section
/-! DEFINITION. Flag operations: resolution at the issuer, the tile monitor's cells and waiters, wakes, rebinds and
wait-idle (chapter 10, R276 to R287). -/

namespace Sys2Proof.Machine

open Sys2Proof

/-! ## Resolution at the issuer (R277) -/

/-- What the issuer's copy of the map makes of a handle. -/
inductive Resolution where
  | unmapped
  | stale
  | cell (site : Nat)
  deriving DecidableEq, Repr

/-- Resolves a handle of a context (R277). -/
def State.resolve (s : State) (c h : Nat) : Resolution :=
  let e := s.entryAt (c * 4096 + handleIndex h)
  if !fmValid e then .unmapped
  else match s.siteOf (fmTile e) with
  | none => .unmapped
  | some n => if fmGen e = handleGen h then .cell n else .stale

/-- Counts a drop of a flag operation of a context (R277, R278). -/
def countStale (c : Nat) : Prog := all [count64 (0x2700 + c) 0x0B 1, count64 0x2800 0x04 1]

/-- The issuer `src` drops an operation (R277). -/
def dropAtIssuer (c src h code : Nat) : Prog :=
  let u := endpointUnit src
  all [countStale c, reportOnce code c src u.1 u.2 c h]

/-- A flag packet from an endpoint. -/
def flagPacket (typ c src dst operand : Nat) : Packet :=
  { dst := dst, src := src, ctx := c, cls := 0, typ := typ, len := 0, operand := operand }

/-- Sends a flag packet: straight to the monitor of its own tile, else through Mortar (R277).
(DEDUCED: notes/assumptions/48.md.) -/
def sendFlag (p : Packet) (origin : Origin) : Prog :=
  if p.src = p.dst then withState fun s => .delivered (s.delivered ++ [{ p with reported := true }])
  else withState fun s => .issue (s.issue ++ [{ packet := p, origin := origin }])

/-- The code of the event with which an issuer drops an operation; none when it sends it. -/
def Resolution.dropCode (r : Resolution) : Option Nat :=
  match r with
  | .unmapped => some 0x800D
  | .stale => some 0x800B
  | .cell _ => none

/-- FENCE_ORDER waits for the flag operations and ring posts of descriptors, and for no other (R265). -/
def followedBy (o : Origin) : Bool :=
  match o with
  | .descriptor _ _ => true
  | _ => false

/-- Issues a flag operation of a context from an endpoint: dropped there, or sent to its cell. -/
def issueFlag (typ c src h mask : Nat) (origin : Origin) : Prog := .look fun s =>
  match s.resolve c h with
  | .unmapped => dropAtIssuer c src h 0x800D
  | .stale => dropAtIssuer c src h 0x800B
  | .cell n => sendFlag { flagPacket typ c src n (h + place mask 32) with followed := followedBy origin && decide (typ ≤ 2) } origin

/-! ## The tile monitor (R278 to R281) -/

/-- The cell of a logical tile that is bound to a context, an index and a generation. -/
def State.findCell (s : State) (l c h : Nat) : Option Nat :=
  (List.range 32).find? fun k =>
    let x := s.cellAt (l * 32 + k)
    x.bound && decide (x.ctx = c ∧ x.index = handleIndex h ∧ x.gen = handleGen h)

/-- The cells that a wait names: its own and the masked ones (R280). -/
def waitCells (own mask : Nat) : List Nat := (List.range 32).filter fun k => decide (k = own) || mask.testBit k

/-- Every named cell is bound to the wait's context and generation (R280). -/
def State.waitBound (s : State) (l c h own mask : Nat) : Bool :=
  (waitCells own mask).all fun k =>
    let x := s.cellAt (l * 32 + k)
    x.bound && decide (x.ctx = c ∧ x.gen = handleGen h)

/-- The condition of a wait holds (R280). -/
def State.waitHolds (s : State) (l own mask : Nat) : Bool :=
  (waitCells own mask).all fun k => (s.cellAt (l * 32 + k)).value

/-- Sends a FLAG_WAKE from a site; bit 17 marks busy, bit 18 stale. -/
def wake (site dst c h mark : Nat) : Prog := sendFlag (flagPacket 0x04 c site dst (h + mark)) .none

/-- An operation that no cell is bound to is dropped (R278). -/
def dropAtCell (p : Packet) (site : Nat) : Prog :=
  let h := bits p.operand 15 0
  all [
    count32 (0x3000 + site) 0x91 1, countStale p.ctx,
    reportOnce 0x800C p.ctx site 0 site p.ctx (pairArg h site)]

/-- Tests the waiters of a tile after a cell has changed, oldest first: those whose condition holds are woken and
removed (R280). -/
def testWaiters (site l : Nat) (ws : List Waiter) : Prog :=
  match ws with
  | [] => .skip
  | w :: ws => .seq (.look fun s =>
      match s.findCell l w.ctx w.handle with
      | some own => whenP (s.waitHolds l own w.mask) (all [
          withState fun t => .waiters l ((t.waitersAt l).erase w),
          wake site w.ep w.ctx w.handle 0])
      | none => .skip) (testWaiters site l ws)

/-- The monitor of a tile applies a SET or a CLEAR (R278, R279). -/
def applySet (p : Packet) (v : Bool) : Prog := .look fun s =>
  let h := bits p.operand 15 0
  all [
    packetDone p,
    withP (s.tileOf p.dst) fun l =>
      match s.findCell l p.ctx h with
      | none => dropAtCell p p.dst
      | some k => all [
          modCell (l * 32 + k) fun x => { x with value := v, lastEp := p.src, lastCtx := p.ctx },
          count64 (0x3000 + p.dst) 0x90 1,
          progress p.ctx,
          .look fun t => testWaiters p.dst l (t.waitersAt l)]]

/-- FLAG_SET (R279). -/
def execFlagSet (p : Packet) (s : State) : Host.Outcome State Fault Refusal :=
  finish (applyPacket 0x01 p (applySet p true)) s

/-- FLAG_CLEAR (R279); a rebind is the command REBIND. -/
def execFlagClear (p : Packet) (s : State) : Host.Outcome State Fault Refusal :=
  finish (if bit p.operand 16 then .skip else applyPacket 0x02 p (applySet p false)) s

/-- One rebind of an entry write has been applied; the write of its path completes with the last one (R283). -/
def entryRebound (c i : Nat) : Prog := .look fun s =>
  withP (s.entryWaits.find? fun w => decide (w.2.1 = c ∧ w.2.2.1 = i)) fun w =>
    if w.2.2.2 ≤ 1 then .seq (withState fun t => .entryWaits (t.entryWaits.erase w)) (answerMapped w.1 c)
    else withState fun t => .entryWaits ((w.1, c, i, w.2.2.2 - 1) :: t.entryWaits.erase w)

/-- The monitor applies a rebind: the cell that its index held here becomes unbound when the entry no longer names it,
and the entry's cell here is bound with value 0 (R283). -/
def applyRebind (p : Packet) : Prog := .look fun s =>
  let i := bits p.operand 11 0
  let e := s.entryAt (p.ctx * 4096 + i)
  all [
    packetDone p,
    withP (s.tileOf p.dst) fun l => all [
      eachP ((List.range 32).filter fun k =>
          let x := s.cellAt (l * 32 + k)
          x.bound && decide (x.ctx = p.ctx ∧ x.index = i) && !(fmValid e && decide (fmKey e = l * 32 + k))) fun k =>
        .eff (.cells (l * 32 + k) (unboundCell p.src p.ctx)),
      whenP (fmValid e && decide (fmTile e = l)) (.eff (.cells (fmKey e)
        { value := false, bound := true, ctx := p.ctx, gen := fmGen e, index := i, lastEp := p.src, lastCtx := p.ctx })),
      count64 (0x3000 + p.dst) 0x90 1,
      progress p.ctx,
      entryRebound p.ctx i]]

/-- REBIND (R283). -/
def execRebind (p : Packet) (s : State) : Host.Outcome State Fault Refusal :=
  finish (if bit p.operand 16 then applyPacket 0x02 p (applyRebind p) else .skip) s

/-- The monitor takes a wait: stale, woken at once, registered, or answered busy (R278, R280, R281). -/
def applyWait (p : Packet) : Prog := .look fun s =>
  let h := bits p.operand 15 0
  let mask := bits p.operand 63 32
  all [
    packetDone p,
    withP (s.tileOf p.dst) fun l =>
      match s.findCell l p.ctx h with
      | none => all [dropAtCell p p.dst, wake p.dst p.src p.ctx h (2 ^ 18)]
      | some k =>
        if !s.waitBound l p.ctx h k mask then all [dropAtCell p p.dst, wake p.dst p.src p.ctx h (2 ^ 18)]
        else all [
          count64 (0x3000 + p.dst) 0x90 1, progress p.ctx,
          if s.waitHolds l k mask then wake p.dst p.src p.ctx h 0
          else if (s.waitersAt l).length < 8 then
            withState fun t => .waiters l (t.waitersAt l ++ [⟨p.src, p.ctx, h, mask⟩])
          else all [
            count32 (0x3000 + p.dst) 0x94 1,
            reportOnce 0x8010 p.ctx p.dst 0 p.dst p.ctx p.dst,
            wake p.dst p.src p.ctx h (2 ^ 17)]]]

/-- FLAG_WAIT (R280). -/
def execFlagWait (p : Packet) (s : State) : Host.Outcome State Fault Refusal :=
  finish (applyPacket 0x03 p (applyWait p)) s

/-! ## Wakes (R266, R271) -/

/-- The gate slot of a ring's wait is written as a synchronised write: the handle in word 0 (R271). It waits behind what the ring
engine has under way, and a gate slot that is not empty blocks it (R162). -/
def writeGate (r slot h : Nat) (poison : Bool) (e : Ecc) : Prog := .look fun s => all [
  modRing r fun x => { x with gate := none, busy := none },
  modS (ringTile r) fun x => { x with gates := x.gates ++ [⟨r, slot, h, poison⟩] },
  siteCount64 (s.sSiteNo (ringTile r)) 0x58 e.waitBeats,
  nextGate (ringTile r) e]

/-- The ring of a site's S-tile that waits on a handle for a context. -/
def State.gateRing (s : State) (site c h : Nat) : Option (Nat × Nat) :=
  match s.tileOf site with
  | none => none
  | some l => (s.tileRings (sIndex l)).findSome? fun e => match e.2.gate with
    | some g => if g.2 = h ∧ rdCtx e.2.desc = c ∧ tileType l = 1 then some (e.1, g.1) else none
    | none => none

/-- The active WAIT_FLAG descriptor of a context with a handle that has not ended. -/
def State.waitDesc (s : State) (c h : Nat) : Option ActiveDesc :=
  (s.ctx c).active.find? fun d => decide (bits (d.words.headD 0) 63 58 = 0x07 ∧ d.started ∧ d.status = none
    ∧ bits (d.words.getD 1 0) 15 0 = h)

/-- A FLAG_WAKE reaches its waiter (R266, R271). (DEDUCED: notes/assumptions/48.md.) -/
def applyWake (p : Packet) (e : Ecc) : Prog := .look fun s =>
  let h := bits p.operand 15 0
  if 0xD80 ≤ p.dst then
    withP (s.waitDesc p.ctx h) fun d =>
      if bit p.operand 18 then endDescriptor p.ctx d.num 0x800C
      else if bit p.operand 17 then modCtx p.ctx fun x => { x with
        active := x.active.map fun e => if e.num = d.num then { e with retry := true } else e }
      else endDescriptor p.ctx d.num 0
  else withP (s.gateRing p.dst p.ctx h) fun g =>
    if bit p.operand 18 then writeGate g.1 g.2 h true e
    else if bit p.operand 17 then modRing g.1 fun x => { x with busy := x.busy.map fun b => (b.1, 1) }
    else writeGate g.1 g.2 h false e

/-- FLAG_WAKE (R266). -/
def execFlagWake (p : Packet) (ecc : Ecc) (s : State) : Host.Outcome State Fault Refusal :=
  finish (applyPacket 0x04 p (applyWake p ecc)) s

/-- A waiter that was answered busy sends its wait again (R266, R281). -/
def waitRetryProg (c h : Nat) (ecc : Ecc) : Prog := .look fun s => all [
  eachP ((s.ctx c).active.filter fun d => d.retry && decide (bits (d.words.getD 1 0) 15 0 = h)) fun d => all [
    modCtx c fun x => { x with active := x.active.map fun e => if e.num = d.num then { e with retry := false } else e },
    .look fun t => match (t.resolve c h).dropCode with
      | some code => all [dropAtIssuer c (queueEndpoint c) h code, endDescriptor c d.num code]
      | none => issueFlag 0x03 c (queueEndpoint c) h (bits (d.words.getD 1 0) 63 32) (.descriptor c d.num)],
  eachP (s.ringsOn.filter fun e => decide (rdCtx e.2.desc = c) && match e.2.gate, e.2.busy with
      | some g, some b => decide (g.2 = h ∧ b.2 = 1)
      | _, _ => false) fun e => all [
    modRing e.1 fun x => { x with busy := x.busy.map fun b => (b.1, 0) },
    .look fun t => withP (t.sSite (ringTile e.1)) fun n => match (t.resolve c h).dropCode, e.2.gate with
      | some code, some g => all [dropAtIssuer c n h code, writeGate e.1 g.1 h true ecc]
      | _, _ => issueFlag 0x03 c n h ((e.2.busy.getD (0, 0)).1) (.ring e.1)]]

/-- WAIT_RETRY (R281). -/
def execWaitRetry (c : Ctx) (handle : Nat) (ecc : Ecc) (s : State) : Host.Outcome State Fault Refusal :=
  finish (waitRetryProg c handle ecc) s

/-! ## Returns (R246) -/

/-- A field of the header that a RETURN carries (Table 09-3, R245). -/
def returnedField (p : Packet) (hi lo : Nat) : Nat := bits (ofBytes (p.payload.take 16)) hi lo

/-- A site serves no tile, and a tile of its course in its region is absent: what was on its way to it may have been for that tile
(R37). (DEDUCED: notes/assumptions/11.md.) -/
def State.courseLacks (s : State) (n : Nat) : Bool :=
  decide (n < 3264) && (s.tileOf n).isNone
    && (List.range 16).any fun c => (s.siteOf (siteRow n * 64 + sitePier n / 17 * 16 + c)).isNone

/-- The logical tile that the packet in a RETURN was for is absent (R37). -/
def State.returnedAbsent (s : State) (p : Packet) : Bool :=
  let typ := returnedField p 95 90
  let op := returnedField p 63 0
  if typ = 0x01 ∨ typ = 0x02 ∨ typ = 0x03 then
    let e := s.entryAt (p.ctx * 4096 + handleIndex (bits op 15 0))
    fmValid e && (s.siteOf (fmTile e)).isNone
  else if typ = 0x10 ∨ typ = 0x11 ∨ typ = 0x24 then decide (bits op 13 0 < 12288) && (s.sSite (ringTile (bits op 13 0))).isNone
  else if typ = 0x12 ∨ typ = 0x20 ∨ typ = 0x21 ∨ typ = 0x22 then s.absentAt (bits op 47 0)
  else if typ = 0x25 then s.courseLacks (returnedField p 127 116)
  else false

/-- The operation of a returned packet completes poisoned: a WAIT of a signal ring writes its gate slot poisoned, a read brings
poisoned data (R246). The entry write of a rebind waits for it no longer (DESIGN CHOICE, notes/assumptions/102.md). -/
def completePoisoned (p : Packet) (e : Ecc) : Prog := .look fun s =>
  let typ := returnedField p 95 90
  let op := returnedField p 63 0
  if typ = 0x03 then withP (s.gateRing p.dst p.ctx (bits op 15 0)) fun g => writeGate g.1 g.2 (bits op 15 0) true e
  else if typ = 0x02 ∧ bit op 16 then entryRebound p.ctx (bits op 11 0)
  else if typ = 0x12 then .eff (.emit (.readData p.dst (List.replicate (bits op 58 48) 0) true))
  else .skip

/-- A RETURN reaches the engine that issued the original packet: the operation ends poisoned and its context dies
(R246, R383), but where the tile that it was for is absent (R37). The part of a microcode broadcast
beyond a site that stopped it is seeded (R428). (DEDUCED: notes/assumptions/11.md.) -/
def returnedProg (p : Packet) (e : Ecc) : Prog := applyPacket 0x3E p (.look fun s =>
  let u := endpointUnit p.dst
  all [completePoisoned p e, seedBeyond p,
    whenP (!p.management && !(p.payload.getD 16 0 == 1 && s.returnedAbsent p)) (poisonDeath p.ctx u.1 u.2 p.dst)])

/-- RETURN (R246). -/
def execReturnPacket (p : Packet) (ecc : Ecc) (s : State) : Host.Outcome State Fault Refusal := finish (returnedProg p ecc) s

/-! ## Flag map entries (R276, R283, R284) -/

/-- A cell of the device has a waiter. -/
def State.cellWaited (s : State) (k : Nat) : Bool :=
  (s.waitersAt (k / 32)).any fun w => match s.findCell (k / 32) w.ctx w.handle with
    | some own => (waitCells own w.mask).contains (k % 32)
    | none => false

/-- Another valid entry of any context names a cell. -/
def State.cellNamed (s : State) (key self : Nat) : Bool :=
  s.fmap.any fun e => decide (e.1 ≠ self) && fmValid e.2 && decide (fmKey e.2 = key)

/-- An entry write is refused in the present state (R284). -/
def State.entryRefused (s : State) (c i w : Nat) : Bool :=
  let old := s.entryAt (c * 4096 + i)
  (fmValid w && (decide (3072 ≤ fmTile w) || !(s.partMask c).testBit (tileRegion (fmTile w))
      || (s.siteOf (fmTile w)).isNone || s.cellNamed (fmKey w) (c * 4096 + i) || s.cellWaited (fmKey w)))
    || (fmValid old && s.cellWaited (fmKey old))

/-- The rebind packets of an entry write: to the old cell when the write moves or invalidates the entry, to the new one
when it is valid (R283). -/
def State.rebindSites (s : State) (old w : Nat) : List Nat :=
  (if fmValid old && !(fmValid w && decide (fmKey w = fmKey old)) then (s.siteOf (fmTile old)).toList else [])
    ++ (if fmValid w then (s.siteOf (fmTile w)).toList else [])

/-- A rebind of an index of a context is sent to a site (R283). -/
def sendRebind (c i gen n : Nat) : Prog :=
  sendFlag (flagPacket 0x02 c (queueEndpoint c) n (place gen 12 + i + 2 ^ 16)) .none

/-- Applies an entry write: its rebinds are sent, and the write that path `p` made waits for them. An entry equal to the present
one is no write (R276, R283). -/
def writeEntry (p : Path) (c i w : Nat) : Prog := .look fun s =>
  let k := c * 4096 + i
  let old := s.entryAt k
  let sites := if w = old then [] else s.rebindSites old w
  whenP (decide (w ≠ old)) (all [
    .eff (.fmap k w),
    eachP sites fun n => sendRebind c i (fmGen w) n,
    whenP (!sites.isEmpty) (withState fun t => .entryWaits (t.entryWaits ++ [(p, c, i, sites.length)]))])

/-! ## Freeing a context (R254, R447) -/

/-- The valid entries of a context's flag map, with their indices. -/
def State.ctxEntries (s : State) (c : Nat) : List (Nat × Nat) :=
  (s.fmap.filter fun e => decide (e.1 / 4096 = c) && fmValid e.2).map fun e => (e.1 % 4096, e.2)

/-- What a close frees: the plan slots, every map entry, and the cells that they bind, to which rebinds are sent (R254, R283). -/
def freeResources (c : Nat) : Prog := .look fun s => all [
  eachP (s.sectionSites c) stopTile,
  emptySlots c,
  .eff (.dropFmap (c * 4096) (c * 4096 + 4096)),
  eachP (s.ctxEntries c) fun e => withP (s.siteOf (fmTile e.2)) fun n => sendRebind c e.1 (fmGen e.2) n,
  .eff (.snaps c none),
  withState fun t => .onceUsed (t.onceUsed.filter fun e => decide (e.2.1 ≠ c))]

/-- Frees a context after a context reset: its packets, rings, waiters, slots, cells and map, and its objects at their
defaults (R447, Table 17-2). -/
def freeContext (c : Nat) : Prog := all [
  discardPackets c,
  endEntryWaits c,
  withState fun t => .hostWindow (t.hostWindow.filter fun a => !ofContext c a.origin),
  withState fun t => .hostData (t.hostData.filter fun a => !ofContext c a.origin),
  .look fun s => eachP (s.ctxRings c) disableRing,
  dropWaiters c,
  freeResources c,
  withState fun t => .dumps (t.dumps.map fun d => if d.ctx = c then { d with watchdog := false } else d),
  .eff (.ctxs c {}),
  clearRegs (0x2700 + c) 0x01 0x3F]

/-- The write of object 0x2840 + c:03 with value `w`. -/
def entryCommand (p : Path) (c w : Nat) : Command where
  valueOk s := decide (w = s.entryAt (c * 4096 + s.selectorAt (pathNo p * 2 ^ 32 + rk (0x2840 + c) 0x02))) || !fmReserved w
  stateOk s :=
    let i := s.selectorAt (pathNo p * 2 ^ 32 + rk (0x2840 + c) 0x02)
    decide (w = s.entryAt (c * 4096 + i)) || !s.entryRefused c i w
  refused _ := .look fun s =>
    reportOnce 0x800A c (queueEndpoint c) 2 (queueDie c) c (s.selectorAt (pathNo p * 2 ^ 32 + rk (0x2840 + c) 0x02))
  effect := .look fun s => .seq (writeEntry p c (s.selectorAt (pathNo p * 2 ^ 32 + rk (0x2840 + c) 0x02)) w) (answerMapped p c)
  setting := true
  answersLater := true

/-- FLAG_MAP_ENTRY_WRITE (R283). -/
def execFlagMapEntryWrite (p : Path) (c : Ctx) (v : Nat) (s : State) : Host.Outcome State Fault Refusal :=
  finish (commandWrite p (0x2840 + c) 0x03 (entryCommand p c v)) s

/-- The entry that 8 bytes of a domain image spell at index `i`. -/
def imageEntry (bs : List Byte) (i : Nat) : Nat := ofBytes ((bs.drop (8 * i)).take 8)

/-- Writes the entries of a map domain from index `i` on, up to the first that is rejected (R276); the abort too answers once the
rebinds of the entries before it have been applied (R283). -/
def writeMap (p : Path) (c : Nat) (bs : List Byte) (is : List Nat) : Prog :=
  match is with
  | [] => answerMapped p c
  | i :: is => .look fun s =>
    let w := imageEntry bs i
    if w = s.entryAt (c * 4096 + i) then writeMap p c bs is
    else if fmReserved w || s.entryRefused c i w then all [
      reportOnce 0x800A c (queueEndpoint c) 2 (queueDie c) c i,
      recordAbort p (0x2840 + c) 0x01 (if fmReserved w then abortValue else abortState),
      withState fun t => .entryWaits (t.entryWaits ++ [(p, c, 4096 + (if fmReserved w then abortValue else abortState), 0)]),
      answerMapped p c]
    else .seq (writeEntry p c i w) (writeMap p c bs is)

/-- The write of the domain 0x2840 + c:01. -/
def mapCommand (p : Path) (c : Nat) (bs : List Byte) : Command where
  effect := writeMap p c bs (List.range 4096)
  setting := true
  answersLater := true

/-- FLAG_MAP_DOMAIN_WRITE (R276). -/
def execFlagMapDomainWrite (p : Path) (c : Ctx) (bytes : List Byte) (s : State) : Host.Outcome State Fault Refusal :=
  finish (domainWrite p (0x2840 + c) 0x01 (bytes.length == 32768) (mapCommand p c bytes)) s

/-- FLAG_MAP_ERROR (R286): an uncorrectable error in a copy of a context's map. (DEDUCED: notes/assumptions/49.md.) -/
def flagMapErrorProg (c : Nat) (copy : MapCopy) : Prog := .look fun s =>
  match copy with
  | .region r => all [report 0x800E 6 0 r.val c, partitionReset r.val 3]
  | .queueEngine =>
    let r := ((List.range 8).find? fun k => (s.partMask c).testBit k).getD 0
    all [report 0x800E 2 (queueDie c) r c, partitionReset r 3]

/-- FLAG_MAP_ERROR (R286). -/
def execFlagMapError (c : Ctx) (copy : MapCopy) (s : State) : Host.Outcome State Fault Refusal :=
  finish (flagMapErrorProg c copy) s

/-! ## Wait-idle (R287, R362) -/

/-- Address generator `k` of the S-tile that site `n` serves is blocked on a tag, or has nothing left to do. -/
def State.agRests (s : State) (n t k : Nat) : Bool :=
  let g := s.ag t k
  ((s.stile t).blocked.any fun b => decide (b.who = .ag (Fin.ofNat 4 k))) || (g.cur.isNone && match s.unitProgram n, s.planOf n with
    | none, some p => ((p.streams.getD k []).drop g.recIx).all fun ws => srUnits ws == 0
    | _, _ => (s.streamRecord n k g.recIx).isNone)

/-- The memory-operation engine of an S-tile has no record of a section left; its accesses never block (R168). -/
def State.memopRests (s : State) (n t : Nat) : Bool :=
  match s.planOf n with
  | some p => (s.unitProgram n).isSome || (p.recs.drop (s.stile t).memIx).all fun ws => (memRecOf ws).len == 0
  | none => true

/-- The wait-idle case of a site holds: its tile is done and waits for a release, or every engine that has work left is
blocked and one waits on the gate slot of an outstanding WAIT. -/
def State.idleCase (s : State) (site : Nat) : Bool :=
  match s.active site with
  | none => false
  | some r => r.done || (match s.tileOf site with
    | some l => decide (tileType l = 1) && (
        let x := s.stile (sIndex l)
        let gates := (s.tileRings (sIndex l)).filterMap fun e => e.2.gate.map fun g => g.1
        ((List.range 4).all fun k => s.agRests site (sIndex l) k) && s.memopRests site (sIndex l)
          && x.blocked.any fun b => gates.contains b.slot && match b.who with | .ag _ => true | _ => false)
    | none => false)

/-- A site enters wait-idle once its case has held for the threshold; it makes no offer while its offer is held, or its
field's power actions are (R362, R363). -/
def idleEnterProg (site beats : Nat) : Prog := .look fun s =>
  whenP (s.reg 0x2800 0x02 == 1 && decide (s.reg 0x2800 0x01 ≤ beats) && s.idleAt site == 0 && s.idleCase site) (all [
    .eff (.idle site (if s.offerHeld site || s.powerHeld (siteField site) then 2 else 1)),
    count32 (0x3000 + site) 0x92 1])

/-- WAIT_IDLE_ENTER (R287). -/
def execWaitIdleEnter (site : Site) (beats : Nat) (s : State) : Host.Outcome State Fault Refusal :=
  finish (idleEnterProg site beats) s

/-- A site leaves wait-idle when its wait has ended: its beats count, its offer is withdrawn, and its next offer is held
(R287, R362). The beats until it runs again come with the commands that they delay, among their wait beats (DEDUCED,
notes/assumptions/134.md). -/
def idleExitProg (site beats : Nat) : Prog := .look fun s =>
  whenP (s.idleAt site != 0 && !s.idleCase site) (all [
    .eff (.idle site 0),
    count64 (0x3000 + site) 0x93 beats,
    whenP (s.reg 0x2210 0x03 != 0) (.eff (.offerHold site true))])

/-- WAIT_IDLE_EXIT (R287). -/
def execWaitIdleExit (site : Site) (beats : Nat) (s : State) : Host.Outcome State Fault Refusal :=
  finish (idleExitProg site beats) s

end Sys2Proof.Machine
end

