-- ==== Sys2Proof/Machine/Rings.lean ====
section
/-! DEFINITION. Rings: descriptors, posting, signal rings and channels (chapter 10, R267 to R275). -/

namespace Sys2Proof.Machine

open Sys2Proof

/-! ## The channel graph (R274) -/

/-- The tiles reachable from a list of tiles along a list of edges, in at most `fuel` rounds. -/
def reachable (edges : List (Nat × Nat)) (fuel : Nat) (seen : List Nat) : List Nat :=
  match fuel with
  | 0 => seen
  | n + 1 =>
    let next := ((edges.filter fun e => seen.contains e.1 && !seen.contains e.2).map fun e => e.2).eraseDups
    if next.isEmpty then seen else reachable edges n (seen ++ next)

/-- The edge of an enabled channel's send ring. -/
def State.channelEdge (s : State) (r : Nat) (d : Nat) : Option (Nat × Nat) :=
  if rdEnabled d && decide (rdKind d = 1) && rdEnabled (s.ring (rdPartner d)).desc then
    some (sTileLogical (ringTile r), sTileLogical (ringTile (rdPartner d)))
  else none

/-- The channels of a context: send ring and edge. -/
def State.channels (s : State) (c : Nat) : List (Nat × (Nat × Nat)) :=
  s.ringsOn.filterMap fun e =>
    if rdCtx e.2.desc = c then (s.channelEdge e.1 e.2.desc).map fun x => (e.1, x) else none

/-- The send ring of a channel that lies on a cycle of a graph; none when no channel does (R274). -/
def channelCycle (channels : List (Nat × (Nat × Nat))) (edges : List (Nat × Nat)) : Option Nat :=
  let es := channels.map (fun e => e.2) ++ edges
  (channels.find? fun e => (reachable es (es.length + 1) [e.2.2]).contains e.2.1).map fun e => e.1

/-! ## Ring descriptors (R268) -/

/-- A context has a slot armed or running. -/
def State.armedOrRunning (s : State) (c : Nat) : Bool :=
  s.plans.any fun e => match e.2 with
    | some p => decide (p.ctx = c) && (match s.siteOf (e.1 / 4) with
        | some n => let st := s.slotState n (e.1 % 4); decide (st = 3 ∨ st = 4)
        | none => false)
    | none => false

/-- A ring's memory overlaps a range of words of the same S-tile. -/
def ringOverlaps (d d' : Nat) : Bool := decide (rdBase d < rdBase d' + 2 ^ rdExp d' ∧ rdBase d' < rdBase d + 2 ^ rdExp d)

/-- A slot lies inside a ring. -/
def slotInRing (d slot : Nat) : Bool := decide (rdSlot d ≤ slot ∧ slot < rdSlot d + rdSlots d)

/-- A channel ring. -/
def isChannel (d : Nat) : Bool := decide (rdKind d = 1 ∨ rdKind d = 2)

/-- The ring is empty (R269). -/
def State.ringEmpty (s : State) (r : Nat) : Bool :=
  let x := s.ring r
  if rdKind x.desc = 0 ∨ rdKind x.desc = 2 then decide (x.head = x.tail)
  else let t := s.slotTag (ringTile r) (ringSlot x.desc x.head); !(t == 1 || t == 3)

/-- A message is in passage in the ring: a slot of it moves, the ring engine writes it, or the gate write of a signal ring's
WAIT is outstanding. -/
def State.ringInPassage (s : State) (r : Nat) : Bool :=
  let x := s.stile (ringTile r)
  (x.passages.any fun p => slotInRing (s.ring r).desc p.slot)
    || (match x.message with | some m => decide (m.ring = r) | none => false)
    || (s.ring r).gate.isSome || (decide (rdKind (s.ring r).desc = 3) && !s.ringEngineFree (ringTile r))

/-- The send ring that would lie on a cycle of channel edges alone if ring `r` were enabled with `w` (R274). -/
def State.enableCycle (s : State) (r w : Nat) : Option Nat :=
  let mine := if rdKind w = 1 then (r, (sTileLogical (ringTile r), sTileLogical (ringTile (rdPartner w))))
    else (rdPartner w, (sTileLogical (ringTile (rdPartner w)), sTileLogical (ringTile r)))
  if isChannel w && rdEnabled (s.ring (rdPartner w)).desc then
    channelCycle (mine :: (s.channels (rdCtx w)).filter fun e => decide (e.1 ≠ mine.1)) []
  else none

/-- The reason of event 0x8006 for which a write of `w` to ring `r` is rejected, 0 when it is accepted (R268). -/
def State.ringReason (s : State) (r w : Nat) : Nat :=
  let t := ringTile r
  let x := s.ring r
  let others := (s.tileRings t).filter fun e => decide (e.1 ≠ r)
  let q := (s.ring (rdPartner w)).desc
  if rdEnabled x.desc then
    if !rdEnabled w && isChannel x.desc && s.armedOrRunning (rdCtx x.desc) then 7
    else if w = x.desc - 2 ^ 63 && s.ringEmpty r && !s.ringInPassage r then 0 else 8
  else if !rdEnabled w then 0
  else if rdExp w < 4 ∨ 16 < rdExp w ∨ rdBase w % 2 ^ rdExp w ≠ 0 then 1
  else if others.any fun e => ringOverlaps w e.2.desc then 2
  else if slotInRing w (rdStatus w) || others.any fun e => slotInRing e.2.desc (rdStatus w) then 3
  else if !s.ctxRuns (rdCtx w) || !(s.partMask (rdCtx w)).testBit (tileRegion (sTileLogical t)) || (s.sSite t).isNone then 4
  else if isChannel w && (decide (12288 ≤ rdPartner w) || (rdEnabled q
      && !(decide (rdKind q = 3 - rdKind w ∧ rdCtx q = rdCtx w ∧ rdPartner q = r)))) then 5
  else if (s.enableCycle r w).isSome then 6
  else if isChannel w && s.armedOrRunning (rdCtx w) then 7
  else 0

/-- The credits that a channel's send ring starts with (R272). -/
def firstCredits (recvDesc : Nat) : Nat := (rdSize recvDesc - 64) / 64

/-- Applies an accepted descriptor write: enabling empties the ring and writes its status word; disabling ends it. -/
def writeRing (r w : Nat) : Prog := .look fun s =>
  if rdEnabled (s.ring r).desc then modRing r fun x => { x with desc := w, credits := 0 }
  else if !rdEnabled w then modRing r fun x => { x with desc := w }
  else all [
    modRing r fun x => { x.off with desc := w },
    emptyRingSlots r w,
    writeStatus r {},
    .look fun t => whenP (isChannel w && rdEnabled (t.ring (rdPartner w)).desc)
      (if rdKind w = 1 then modRing r fun x => { x with credits := firstCredits (t.ring (rdPartner w)).desc }
       else modRing (rdPartner w) fun x => { x with credits := firstCredits w })]

/-- The ring that a path's selector names. -/
def State.selectedRing (s : State) (p : Path) : Nat := s.selectorAt (pathNo p * 2 ^ 32 + rk 0x2900 0x01)

/-- The write of object 0x2900:02 with value `v`. Reserved bit 0 is ignored (R9). -/
def ringCommand (p : Path) (v : Nat) : Command where
  valueOk s :=
    let w := v - v % 2
    let r := s.selectedRing p
    let why := s.ringReason r w
    !(decide (why = 1) || (decide (why = 3) && slotInRing w (rdStatus w)))
  stateOk s := decide (s.ringReason (s.selectedRing p) (v - v % 2) = 0)
  refused _ := .look fun s =>
    let r := s.selectedRing p
    let why := s.ringReason r (v - v % 2)
    all [
      whenP (decide (why ≠ 0)) (reportOnce 0x8006 (rdCtx v) (s.sSiteNo (ringTile r)) 6 0 r why),
      whenP (decide (why = 6)) (reportOnce 0x8008 (rdCtx v) (s.sSiteNo (ringTile r)) 0 (s.sSiteNo (ringTile r))
        (rdCtx v) ((s.enableCycle r (v - v % 2)).getD r))]
  effect := .look fun s => writeRing (s.selectedRing p) (v - v % 2)

/-- RING_DESCRIPTOR_WRITE (R268). -/
def execRingDescriptorWrite (p : Path) (v : Nat) (s : State) : Host.Outcome State Fault Refusal :=
  finish (commandWrite p 0x2900 0x02 (ringCommand p v)) s

/-! ## Placing a message (R172, R173, R270) -/

/-- The header word of a message (Table 06-9). -/
def messageHeader (src c typ l : Nat) : Nat := place src 52 + place c 46 + place (typ % 256) 32 + l % 2 ^ 24

/-- The slot numbers, in the S-tile, of `n` slots of a ring from offset `o`. -/
def ringRun (desc o n : Nat) : List Nat := (List.range n).map fun i => ringSlot desc (o + 64 * i)

/-- The ring engine of S-tile `t` begins the message of a packet at the tail of ring `r`: the header word and the payload go
into the slots from the tail on, each as a synchronised write that waits until its slot is empty (R172, R173). -/
def placeMessage (r : Nat) (p : Packet) (e : Ecc) : Prog := .look fun s =>
  let x := s.ring r
  let t := ringTile r
  let run := ringRun x.desc x.tail (messageSlots p.len)
  all [
    siteCount64 p.dst 0x58 e.waitBeats, tagErrors t p.dst run e,
    modS t fun y => { y with message := some ⟨r, p, ringSlot x.desc x.tail⟩ },
    writeSlots t p.dst (.ringEngine { aliased := false, off := 64 * ringSlot x.desc x.tail, len := 64, ctx := Fin.ofNat 64 p.ctx })
      true p.poison (toBytes 8 (messageHeader p.src p.ctx (bits p.operand 23 16) p.len) ++ p.payload.take p.len) run e]

/-- A ring's rejected messages count. -/
def ringRejects (r : Nat) : Prog := modRing r fun x => { x with rejected := satAdd 32 x.rejected 1 }

/-- The ring engine of a packet's tile takes a message for a ring of kind `kind` (R270). A message stays with the endpoint while
the ring engine has an access under way. (DESIGN CHOICE: notes/assumptions/47.md.) One for a tile that is absent by now goes back
(R37). -/
def takeMessage (typ kind : Nat) (p : Packet) (e : Ecc) : Prog := .look fun s =>
  whenP (p.typ == typ && s.isNext p) (
    let r := bits p.operand 13 0
    let x := s.ring r
    let here := match s.tileOf p.dst with
      | some l => decide (tileType l = 1 ∧ r < 12288 ∧ ringTile r = sIndex l)
      | none => false
    let partner := match s.sSite (ringTile (rdPartner x.desc)) with
      | some n => decide (n = p.src)
      | none => false
    let gone := withState fun t => .delivered (t.delivered.erase p)
    if decide (r < 12288) && (s.sSite (ringTile r)).isNone then all [gone, returnPacketTo p 1 p.dst]
    else if !here || !rdEnabled x.desc || decide (rdCtx x.desc ≠ p.ctx) || decide (rdKind x.desc ≠ kind)
        || (kind == 2 && !partner) then
      all [gone, whenP here (ringRejects r), reportOnce 0x8011 p.ctx p.dst 0 p.dst p.ctx r, returnPacketTo p 3 p.dst]
    else if rdSize x.desc < p.len + 72 then
      all [gone, ringRejects r, reportOnce 0x8007 p.ctx p.dst 0 p.dst p.ctx r, returnPacketTo p 3 p.dst]
    else whenP (s.ringEngineFree (ringTile r)) (.seq gone (placeMessage r p e)))

/-- RING_POST (R270). -/
def execRingPost (p : Packet) (ecc : Ecc) (s : State) : Host.Outcome State Fault Refusal :=
  finish (takeMessage 0x24 0 p ecc) s

/-- CHANNEL_MESSAGE (R270). -/
def execChannelMessage (p : Packet) (ecc : Ecc) (s : State) : Host.Outcome State Fault Refusal :=
  finish (takeMessage 0x10 2 p ecc) s

/-- The send ring takes returned credits (R273), unless its tile is absent by now (R37). -/
def takeCredits (p : Packet) : Prog := .look fun s =>
  let r := bits p.operand 13 0
  if decide (r < 12288) && (s.sSite (ringTile r)).isNone then returnPacketTo p 1 p.dst
  else all [
    packetDone p,
    whenP (rdEnabled (s.ring r).desc && decide (rdKind (s.ring r).desc = 1 ∧ rdCtx (s.ring r).desc = p.ctx))
      (modRing r fun x => { x with credits := min 65535 (x.credits + bits p.operand 31 16) })]

/-- CREDIT_RETURN (R273). -/
def execCreditReturn (p : Packet) (s : State) : Host.Outcome State Fault Refusal :=
  finish (applyPacket 0x11 p (takeCredits p)) s

/-! ## Taking a message from the head (R271, R272) -/

/-- A slot is full or poisoned, and not in passage: a message slot that the ring engine can take. -/
def State.slotHeld (s : State) (t k : Nat) : Bool := s.syncReady t k .peek

/-- The header word of the message at the head of a signal or send ring; none while its slot is not full. -/
def State.headHeader (s : State) (r : Nat) : Option Nat :=
  let x := s.ring r
  let k := ringSlot x.desc x.head
  if rdEnabled x.desc && decide (rdKind x.desc = 1 ∨ rdKind x.desc = 3) && s.slotHeld (ringTile r) k then
    some (s.word (ringTile r) (8 * k))
  else none

/-- The length field of a header. -/
def headerLength (w : Nat) : Nat := bits w 23 0

/-- The type field of a header. -/
def headerType (w : Nat) : Nat := bits w 39 32

/-- The slots of the message of length `l` at the head. -/
def State.headRun (s : State) (r l : Nat) : List Nat := ringRun (s.ring r).desc (s.ring r).head (messageSlots l)

/-- Every slot of the message at the head is full. -/
def State.headComplete (s : State) (r l : Nat) : Bool := (s.headRun r l).all fun k => s.slotHeld (ringTile r) k

/-- A slot of the message at the head is poisoned. -/
def State.headPoisoned (s : State) (r l : Nat) : Bool := (s.headRun r l).any fun k => s.slotTag (ringTile r) k == 2

/-- The bytes of the message at the head, without its header word. -/
def State.headPayload (s : State) (r l : Nat) : List Byte :=
  (((s.headRun r l).flatMap fun k => s.wordBytes (ringTile r) (slotWords k)).drop 8).take l

/-- The ring engine reads the `k` slots at the head of a ring: its beats, and what the codes found there (R152, R163, R164). -/
def readHead (r n k : Nat) (e : Ecc) : Prog := .look fun s =>
  let run := ringRun (s.ring r).desc (s.ring r).head k
  let ws := run.flatMap slotWords
  all [
    countBeats n ws, siteCount64 n 0x58 e.waitBeats, tagErrors (ringTile r) n run e, readErrors (ringTile r) n ws e]

/-- The ring engine consumes `k` slots at the head of a ring that site `n` holds and moves head and tail past them (R161, R269). -/
def consumeHead (r n k : Nat) (counts : Bool) (e : Ecc) : Prog := .look fun s =>
  let x := s.ring r
  all [
    eachP (ringRun x.desc x.head k) fun i => takeSlot (ringTile r) n (rdCtx x.desc) i e,
    modRing r fun y =>
      let h := (y.head + 64 * k) % rdSize y.desc
      if counts then { y with head := h, tail := h, placed := (y.placed + 1) % 2 ^ 24, messages := satAdd 64 y.messages 1 }
      else { y with head := h, tail := h, rejected := satAdd 32 y.rejected 1 },
    writeStatus r e]

/-- The length that a signal message type requires; none for another type (R271). -/
def signalLength (typ : Nat) : Option Nat :=
  if typ = 0x01 ∨ typ = 0x02 then some 2 else if typ = 0x03 then some 8 else none

/-- The ring engine acts on the message at the head of a signal ring when its type is `typ`; a malformed header is
consumed alone, a poisoned message is consumed and kills the context (R271, R383). -/
def signalProg (r typ : Nat) (e : Ecc) (act : Nat → List Byte → Prog) : Prog := .look fun s =>
  withP (s.sSite (ringTile r)) fun n => withP (s.headHeader r) fun w =>
    let x := s.ring r
    let c := rdCtx x.desc
    let l := headerLength w
    whenP (decide (rdKind x.desc = 3) && x.gate.isNone && s.ringEngineFree (ringTile r) && s.ctxRuns c)
      (if signalLength (headerType w) ≠ some l then all [
          readHead r n 1 e,
          .look fun u => whenP (u.headPoisoned r 0) (poisonDeath c 0 n n),
          consumeHead r n 1 false e,
          reportOnce 0x8009 c n 0 n c r]
       else whenP (decide (headerType w = typ) && s.headComplete r l)
        (.seq (readHead r n (messageSlots l) e) (.look fun u => all [
          consumeHead r n (messageSlots l) true e,
          if u.headPoisoned r l then poisonDeath c 0 n n else act n (u.headPayload r l)])))

/-- SIGNAL_RING_SET (R271). -/
def execSignalRingSet (r : RingNo) (ecc : Ecc) (s : State) : Host.Outcome State Fault Refusal :=
  finish (signalProg r 0x01 ecc fun n bs => .look fun t =>
    issueFlag 0x01 (rdCtx (t.ring r).desc) n (ofBytes (bs.take 2)) 0 (.ring r)) s

/-- SIGNAL_RING_CLEAR (R271). -/
def execSignalRingClear (r : RingNo) (ecc : Ecc) (s : State) : Host.Outcome State Fault Refusal :=
  finish (signalProg r 0x02 ecc fun n bs => .look fun t =>
    issueFlag 0x02 (rdCtx (t.ring r).desc) n (ofBytes (bs.take 2)) 0 (.ring r)) s

/-- A WAIT is issued and its gate slot named; one that its issuer drops writes the gate slot poisoned (R266, R271). -/
def signalWait (r n : Nat) (bs : List Byte) (e : Ecc) : Prog := .look fun s =>
  let c := rdCtx (s.ring r).desc
  let h := ofBytes (bs.take 2)
  let gate := ofBytes ((bs.drop 2).take 2)
  let mask := ofBytes (bs.drop 4)
  match (s.resolve c h).dropCode with
  | some code => all [dropAtIssuer c n h code, writeGate r gate h true { e with waitBeats := 0 }]
  | none => all [
      modRing r fun x => { x with gate := some (gate, h), busy := some (mask, 0) },
      issueFlag 0x03 c n h mask (.ring r)]

/-- SIGNAL_RING_WAIT (R271). -/
def execSignalRingWait (r : RingNo) (ecc : Ecc) (s : State) : Host.Outcome State Fault Refusal :=
  finish (signalProg r 0x03 ecc fun n bs => signalWait r n bs ecc) s

/-- A message is discarded at the head of a send ring. -/
def rejectHead (r n slots code : Nat) (e : Ecc) : Prog := .look fun s =>
  let c := rdCtx (s.ring r).desc
  all [readHead r n slots e, consumeHead r n slots false e, reportOnce code c n 0 n c r]

/-- The ring engine ships the message at the head of a send ring, which has waited for credits so many beats more, as one
CHANNEL_MESSAGE (R272). -/
def shipProg (r waitBeats : Nat) (e : Ecc) : Prog := .look fun s =>
  withP (s.sSite (ringTile r)) fun n => withP (s.headHeader r) fun w =>
    let x := s.ring r
    let c := rdCtx x.desc
    let l := headerLength w
    let q := (s.ring (rdPartner x.desc)).desc
    whenP (decide (rdKind x.desc = 1) && s.ringEngineFree (ringTile r) && s.ctxRuns c)
      (if l = 0 then .seq (readHead r n 1 e) (consumeHead r n 1 true e)
       else if rdSize x.desc < l + 72 then rejectHead r n 1 0x8007 e
       else whenP (s.headComplete r l)
        (match s.sSite (ringTile (rdPartner x.desc)) with
         | none => rejectHead r n (messageSlots l) 0x8011 e
         | some dst =>
          if 1024 < l || (rdEnabled q && decide (rdSize q < l + 72)) then rejectHead r n (messageSlots l) 0x8007 e
          else .seq (modRing r fun y => { y with senderStall := satAdd 64 y.senderStall waitBeats })
           (whenP (decide (messageSlots l ≤ x.credits)) (all [
            readHead r n (messageSlots l) e,
            .look fun u => ringRequest r {
              dst := dst, src := n, ctx := c, cls := 1, typ := 0x10, len := l, poison := u.headPoisoned r l
              operand := rdPartner x.desc + place (headerType w) 16, payload := u.headPayload r l },
            modRing r fun y => { y with credits := y.credits - messageSlots l },
            consumeHead r n (messageSlots l) true e]))))

/-- CHANNEL_SHIP (R272). -/
def execChannelShip (r : RingNo) (waitBeats : Nat) (ecc : Ecc) (s : State) : Host.Outcome State Fault Refusal :=
  finish (shipProg r waitBeats ecc) s

end Sys2Proof.Machine
end

