-- ==== Sys2Proof/Machine/Bond.lean ====
section
/-! DEFINITION. Bond: hops, routes, queues, spill and steering elements (chapter 08, R190 to R215). Bond links join the
logical neighbours of the grid, east and west through the stage of each fenced site in bypass between them (R38). -/

namespace Sys2Proof.Machine

open Sys2Proof

/-! ## The logical grid -/

/-- A link-dead site lies between two sites of one course (R39). -/
def State.deadBetween (s : State) (a b : Nat) : Bool :=
  decide (siteRow a = siteRow b) && (List.range (max a b - min a b)).any fun i => s.deadSite (min a b + i)

/-- The tile that takes what a bypass stage has brought from side `d`: the nearest serving site on the other side. -/
def State.bypassFor (s : State) (b d : Nat) : Option Nat :=
  ((List.range 17).map fun i => if d = 1 then b - 1 - i else b + 1 + i).find? fun n =>
    siteRow n == siteRow b && (s.tileOf n).isSome

/-- No bypass stage beside a site holds a transfer on its way to it or from it. -/
def State.bypassEmpty (s : State) (n : Nat) : Bool :=
  [0, 1, 2, 3].all fun d => (s.bypassPath n d).all fun b =>
    ((s.bondOf b).stages.getD d none).isNone && ((s.bondOf b).stages.getD (opposite d) none).isNone

/-! ## Routes (R193 to R196) -/

/-- The number and entry of the route of a plan with a given source. -/
def routeFrom (p : TilePlan) (kind num out : Nat) : Option (Nat × Route) :=
  ((p.routes.zip (List.range p.routes.length)).find? fun e =>
    decide (e.1.srcKind = kind ∧ e.1.srcNum = num ∧ e.1.srcOut = out)).map fun e => (e.2, e.1)

/-- The next entry of the schedule of outbound link `d`; none when the link has no schedule (R203). -/
def State.scheduleEntry (s : State) (n d : Nat) (p : TilePlan) : Option SchedEntry :=
  let es := p.sched.filter fun e => decide (e.link = d)
  es[(s.bondOf n).schedIx.getD d 0]?

/-- A transfer of channel `c` may enter the stage of outbound link `d` now. -/
def State.scheduleTurn (s : State) (n d c : Nat) (p : TilePlan) : Bool :=
  match s.scheduleEntry n d p with
  | some e => decide (e.chan = c)
  | none => true

/-- The schedule of a link moves on by one transfer. -/
def advanceSchedule (n d : Nat) (p : TilePlan) : Prog := .look fun s =>
  withP (s.scheduleEntry n d p) fun e =>
    let es := p.sched.filter fun x => decide (x.link = d)
    modBond n fun b =>
      let sent := b.schedSent.getD d 0 + 1
      if sent < e.run then { b with schedSent := b.schedSent.set d sent }
      else { b with schedSent := b.schedSent.set d 0
                    schedIx := b.schedIx.set d ((b.schedIx.getD d 0 + 1) % es.length) }

/-- An engine record of a plan that has not completed names engine input `k` (R193). A U2 unit takes every input.
(DEDUCED: notes/assumptions/34.md.) -/
def State.inputWanted (s : State) (n k : Nat) (p : TilePlan) : Bool :=
  match p.kind with
  | 0 => (p.recs.drop (s.mtile n).recIx).any fun ws => !mrNone ws &&
      (decide (mrASrc ws = k ∨ mrBSrc ws = k) || (mrInit ws == 2 && mrCSrc ws == k))
  | 1 => (List.range 4).any fun g =>
      let a := (match s.tileOf n with | some l => s.ag (sIndex l) g | none => {})
      ((p.streams.getD g []).drop a.recIx).any fun ws => decide (srUnits ws ≠ 0)
        && (srMode ws == 1 || srMode ws == 4) && decide (srSide ws = k ∨ srSide ws = 4)
  | _ => (p.recs.drop (s.ftile n).recIx).any fun ws => frLen ws != 0 && frSrc ws == k

/-- Whether the destination of a route can take a transfer now. -/
def State.routeOpen (s : State) (n : Nat) (p : TilePlan) (u2 : Bool) (r : Route) : Bool :=
  let b := s.bondOf n
  if r.dstKind < 4 then
    (b.stages.getD r.dstKind none).isNone && !b.stopped.getD r.dstKind false && s.scheduleTurn n r.dstKind r.dstNum p
  else
    let e := b.elems.getD r.dstNum {}
    match r.dstKind with
    | 4 => u2 || s.inputWanted n r.dstNum p
    | 5 => decide ((e.ins.getD r.dstIn []).length < 4)
    | _ => decide (e.ctl.length < 4)

/-- Replaces the state of a steering element. -/
def modElem (n e : Nat) (f : ElemState → ElemState) : Prog :=
  modBond n fun b => { b with elems := b.elems.set e (f (b.elems.getD e {})) }

/-- A transfer enters the destination of a route. -/
def enterRoute (n : Nat) (p : TilePlan) (r : Route) (t : Transfer) : Prog :=
  if r.dstKind < 4 then all [
    modBond n fun b => { b with stages := b.stages.set r.dstKind (some { t with chan := r.dstNum }) },
    advanceSchedule n r.dstKind p]
  else match r.dstKind with
    | 4 => modBond n fun b => { b with engineIn := b.engineIn.set r.dstNum (b.engineIn.getD r.dstNum [] ++ [t]) }
    | 5 => modElem n r.dstNum fun e => { e with ins := e.ins.set r.dstIn (e.ins.getD r.dstIn [] ++ [t]) }
    | _ => modElem n r.dstNum fun e => { e with ctl := e.ctl ++ [t] }

/-! ## Spill (R208 to R210) -/

/-- The spill capacity of a ring of `size` bytes. -/
def spillCapacity (size : Nat) : Nat := (size - 64) / 128

/-- The transfers of a route that lie in its spill ring or on their way to it. -/
def State.spilledOf (s : State) (n ri : Nat) : Nat := (s.bondOf n).spilled.getD ri 0

/-- The queue of a route. -/
def State.queueOf (s : State) (n ri : Nat) : List Transfer := (s.bondOf n).queues.getD ri []

/-- The RING_POST of a spilled transfer: 64 data bytes, the token lane and 6 zero bytes. -/
def spillPacket (n dst c ring : Nat) (t : Transfer) : Packet :=
  { dst := dst, src := n, ctx := c, cls := 2, typ := 0x24, len := 72, poison := t.poison, operand := ring
    payload := t.bytes ++ toBytes 2 t.lane ++ toBytes 6 0 }

/-- A transfer is posted to the spill ring of its route. -/
def spill (n c ri : Nat) (r : Route) (t : Transfer) : Prog := .look fun s =>
  withP (s.sSite (ringTile r.ring)) fun dst => all [
    withState fun u => .issue (u.issue ++ [{ packet := spillPacket n dst c r.ring t }]),
    modBond n fun b => { b with spilled := b.spilled.set ri (b.spilled.getD ri 0 + 1) },
    count64 (0x3000 + n) 0x76 1]

/-- The place that a transfer takes when it arrives at a route: 0 none, 1 the destination, 2 the queue, 3 the spill
ring. -/
def State.routePlace (s : State) (n : Nat) (p : TilePlan) (u2 : Bool) (ri : Nat) (r : Route) : Nat :=
  let inRing := s.spilledOf n ri
  let full := decide (r.entries ≤ (s.queueOf n ri).length)
  let canSpill := r.spill && decide (inRing < spillCapacity (rdSize (s.ring r.ring).desc))
  if 0 < inRing then (if canSpill then 3 else 0)
  else if r.entries = 0 then (if s.routeOpen n p u2 r then 1 else if canSpill then 3 else 0)
  else if !full then 2
  else if canSpill then 3 else 0

/-- The route waits on its full spill ring (R210). -/
def State.spillFull (s : State) (n : Nat) (p : TilePlan) (u2 : Bool) (ri : Nat) (r : Route) : Bool :=
  r.spill && s.routePlace n p u2 ri r == 0

/-- A transfer takes its place at a route. -/
def arrive (n c : Nat) (p : TilePlan) (ri : Nat) (r : Route) (at_ : Nat) (t : Transfer) : Prog :=
  match at_ with
  | 1 => enterRoute n p r t
  | 2 => modBond n fun b => { b with queues := b.queues.set ri (b.queues.getD ri [] ++ [t]) }
  | 3 => spill n c ri r t
  | _ => .skip

/-! ## BOND_TRANSFER_HOP (R190, R192, R197) -/

/-- A site with a section that is not done, and not halted (R105): its context, its plan, whether it is a U2 unit. -/
def State.takesBond (s : State) (n : Nat) : Option (Nat × TilePlan × Bool) :=
  match s.active n, s.tileOf n with
  | some r, some l => if r.done || (s.mtile n).halted then none
    else (s.planAt (l * 4 + r.slot)).map fun x => (r.ctx, x.plan, x.u2.isSome)
  | _, _ => none

/-- A link in an event: direction and channel (DESIGN CHOICE, notes/assumptions/4.md). -/
def linkItem (d c : Nat) : Nat := pairArg d c

/-- What the link code makes of a transfer that passes: corrected, or poisoned. -/
def hopErrors (n d : Nat) (err : LinkError) (t : Transfer) (p : Transfer → Prog) : Prog :=
  match err with
  | .corrected => .seq (count32 (0x3000 + n) 0x77 1) (p t)
  | .data => all [count32 (0x3000 + n) 0x78 1, report 0x600D 0 n n d, p { t with poison := true }]
  | _ => p t

/-- The stage of a site's outbound link keeps its transfer and stops (R192). -/
def stopLink (n d : Nat) : Prog := all [
  modBond n fun b => { b with stopped := b.stopped.set d true },
  count32 (0x3000 + n) 0x78 1, report 0x600E 0 n n d, siteFault n 4 600]

/-- A transfer leaves the outbound stage of direction `e` of a site. -/
def leaveStage (m e held : Nat) : Prog := all [
  modBond m fun b => { b with stages := b.stages.set e none },
  count64 (0x3000 + m) 0x74 1, siteCount64 m 0x73 held]

/-- The transfer that waits in the outbound stage `e` of site `m`, unless that direction has stopped: `k` takes it, with what its
leaving does and what a lost token lane does (R192). -/
def fromStage (m e held : Nat) (k : Transfer → Prog → Prog → Prog) : Prog := .look fun s =>
  whenP (!(s.bondOf m).stopped.getD e false)
    (withP ((s.bondOf m).stages.getD e none) fun t => k t (leaveStage m e held) (stopLink m e))

/-- The transfer that waits at X-tile `x` for the site `n` beyond its link; a lost token lane there stops the link and is a fault of
the site (R192, Table 14-1). -/
def fromXTile (x n : Nat) (k : Transfer → Prog → Prog → Prog) : Prog := .look fun s =>
  whenP (!(s.xtile x).orphan && !(s.xtile x).stopped)
    (withP (s.xtile x).outq.head? fun t => k t (modX x fun y => { y with outq := y.outq.drop 1 })
      (all [
        modX x fun y => { y with stopped := true },
        count32 (0x3000 + n) 0x78 1, report 0x600E 0 n n (xPort x), siteFault n 4 600]))

/-- A transfer enters the stage `e` of a site in bypass by link `d`: one extra hop, its beat counted (R38; DEDUCED:
notes/assumptions/15.md). -/
def throughBypass (b d e : Nat) (err : LinkError) (waited : Nat) (t : Transfer) (gone token : Prog) : Prog :=
  if err = .token then token
  else all [
    gone, count64 (0x3000 + b) 0x75 1, count64 (0x3000 + b) 0x72 (waited + 1),
    hopErrors b d err t fun u => modBond b fun x => { x with stages := x.stages.set e (some u) }]

/-- The X-tile whose Bond traffic passes a site in bypass, with the site that serves its tile: `d` is the side from which a transfer
comes, the X-tile's or the other (R295). -/
def State.xThrough (s : State) (b d : Nat) : Option (Nat × Nat) :=
  (List.range 128).findSome? fun x => match s.siteOf (xLogical x) with
    | some n => if decide (xPort x = d ∨ xPort x = opposite d) && (s.xPath x n).contains b then some (x, n) else none
    | none => none

/-- A transfer from side `d` enters the stage of a site in bypass on the way between two sites, or between a site and its X-tile. -/
def bypassHop (b d : Nat) (err : LinkError) (waited held : Nat) : Prog := .look fun s =>
  let enter := throughBypass b d (opposite d) err waited
  whenP (s.isBypass b && ((s.bondOf b).stages.getD (opposite d) none).isNone && !(s.bondOf b).stopped.getD (opposite d) false)
    (match s.xThrough b d with
     | some (x, n) => whenP (!s.deadBetween n (xSite x)) (
        if xPort x = d then match ((s.xPath x n).takeWhile fun y => decide (y ≠ b)).getLast? with
          | some m => fromStage m (opposite d) held enter
          | none => fromXTile x b enter
        else fromStage (((s.xPath x n).reverse.takeWhile fun y => decide (y ≠ b)).getLastD n) (opposite d) held enter)
     | none => whenP (decide (d = 1 ∨ d = 3))
      (withP (s.bypassFor b d) fun n => withP (s.linkPath n d) fun (path, m) =>
        let m := ((path.dropWhile fun x => decide (x ≠ b)).drop 1).headD m
        whenP (!s.deadBetween n m) (fromStage m (opposite d) held enter)))

/-- A transfer from a neighbour's stage, from a bypass stage before it or from an X-tile reaches a site by inbound link
`d`. -/
def inboundHop (n d : Nat) (err : LinkError) (waited held : Nat) : Prog := .look fun s =>
  withP (s.tileOf n) fun l => withP (s.takesBond n) fun (c, p, u2) =>
    let take := fun (t : Transfer) (gone : Prog) (token : Prog) =>
      if err = .token then token
      else match routeFrom p d t.chan 0 with
        | none => all [
            gone, count64 (0x3000 + n) 0x75 1,
            hopErrors n d err t fun _ => all [count32 (0x3000 + n) 0x79 1, report 0x6001 0 n n (linkItem d t.chan)]]
        | some (ri, r) =>
          let at_ := s.routePlace n p u2 ri r
          if at_ = 0 then whenP r.spill (reportOnce 0x600F c n 0 n c r.ring)
          else all [
            gone, count64 (0x3000 + n) 0x75 1, siteCount64 n 0x72 waited,
            hopErrors n d err t fun u => arrive n c p ri r at_ u]
    match logicalNeighbour l d with
    | some _ => withP (s.linkPath n d) fun (path, m) =>
        let m := path.headD m
        whenP (!s.deadBetween n m) (fromStage m (opposite d) held take)
    | none => withP (xOfTile l d) fun x => whenP (!s.deadBetween n (xSite x))
        (match (s.xPath x n).getLast? with
         | some b => fromStage b (opposite d) held take
         | none => fromXTile x n take)

/-- A transfer leaves an inner place of a tile, along its route. The place that it enters had waited for it, and that
which it leaves had held it, so many beats (R205). -/
def innerHop (n kind num out : Nat) (t : Transfer) (waited held : Nat) (gone : Prog) : Prog := .look fun s =>
  withP (s.takesBond n) fun (c, p, u2) => withP (routeFrom p kind num out) fun (ri, r) =>
    let at_ := s.routePlace n p u2 ri r
    if at_ = 0 then whenP r.spill (reportOnce 0x600F c n 0 n c r.ring)
    else all [
      gone, siteCount64 n 0x72 waited, siteCount64 n 0x73 held, arrive n c p ri r at_ { t with chan := 0 }]

/-- The head of a route's queue moves to the route's destination. -/
def queueHop (n ri waited : Nat) : Prog := .look fun s =>
  withP (s.takesBond n) fun (_, p, u2) => withP p.routes[ri]? fun r =>
    match s.queueOf n ri with
    | [] => .skip
    | t :: ts => whenP (s.routeOpen n p u2 r) (all [
        modBond n fun b => { b with queues := b.queues.set ri ts },
        siteCount64 n 0x72 waited, enterRoute n p r t])

/-- The transfer in the stage that faces an X-tile enters it: the stage of the site that serves its tile, or of the attachment site
while that is in bypass (R295). -/
def xHop (x : Nat) (err : LinkError) (held : Nat) : Prog := .look fun s =>
  withP (s.siteOf (xLogical x)) fun n =>
    let m := (s.xPath x n).headD n
    whenP (!(s.xtile x).orphan) (fromStage m (xPort x) held fun t gone token =>
      if err = .token then token
      else all [gone, hopErrors m (xPort x) err t fun u => modX x fun y => { y with inq := y.inq ++ [u] }])

/-- Removes a steering output; a join's next transfer follows in its place (R198). -/
def takeOut (e : ElemState) (o : Nat) : ElemState :=
  match o, e.emit with
  | 0, t :: ts => { e with outs := e.outs.set 0 (some t), emit := ts }
  | _, _ => { e with outs := e.outs.set o none }

/-- A Bond hop. -/
def bondHopProg (h : HopFrom) (err : LinkError) (waited held : Nat) : Prog :=
  match h with
  | .inbound n d => inboundHop n d err waited held
  | .bypass n d => bypassHop n d err waited held
  | .engineOut n k => .look fun s => match (s.bondOf n).engineOut.getD k [] with
    | [] => .skip
    | t :: _ => innerHop n 4 k 0 t waited 0 (modBond n fun b =>
        { b with engineOut := b.engineOut.set k ((b.engineOut.getD k []).drop 1) })
  | .steering n e o => .look fun s => withP (((s.bondOf n).elems.getD e {}).outs.getD o none) fun t =>
      innerHop n 5 e o t waited held (modElem n e fun x => takeOut x o)
  | .queue n ri => queueHop n ri waited
  | .intoX x => xHop x err held

/-- BOND_TRANSFER_HOP (R190). -/
def execBondTransferHop (h : HopFrom) (err : LinkError) (waited held : Nat) (s : State) : Host.Outcome State Fault Refusal :=
  finish (bondHopProg h err waited held) s

/-! ## SPILL_REFILL (R209) -/

/-- The oldest spilled transfer of a route returns from its ring to the queue through the ring engine; a route without queue entries
passes it on to its destination, so that none overtakes it (R204), which has waited for it so many beats (R205, R209). -/
def refillProg (n ri waited : Nat) (e : Ecc) : Prog := .look fun s =>
  withP (s.takesBond n) fun (c, p, u2) => withP p.routes[ri]? fun r =>
    let x := s.ring r.ring
    let t := ringTile r.ring
    let run := ringRun x.desc x.head 2
    let room := if r.entries = 0 then s.routeOpen n p u2 r else decide ((s.queueOf n ri).length < r.entries)
    whenP (r.spill && decide (0 < s.spilledOf n ri) && room
        && rdEnabled x.desc && decide (rdCtx x.desc = c ∧ rdKind x.desc = 0) && s.ringEngineFree t
        && run.all fun k => s.slotHeld t k) (.seq
      (readHead r.ring (s.sSiteNo t) 2 e)
      (.look fun u =>
        let bs := (run.flatMap fun k => u.wordBytes t (slotWords k)).drop 8
        let back := transferOf (ofBytes (bs.take 64)) (ofBytes ((bs.drop 64).take 2))
        let bad := run.any fun k => u.slotTag t k == 2
        all [
          eachP run fun k => takeSlot t (s.sSiteNo t) c k e,
          modBond n fun b => { b with spilled := b.spilled.set ri (b.spilled.getD ri 0 - 1) },
          whenP (r.entries == 0) (siteCount64 n 0x72 waited),
          arrive n c p ri r (if r.entries = 0 then 1 else 2) { back with poison := back.poison || bad }]))

/-- SPILL_REFILL (R209). -/
def execSpillRefill (site : Site) (route waited : Nat) (ecc : Ecc) (s : State) : Host.Outcome State Fault Refusal :=
  finish (refillProg site route waited ecc) s

/-! ## Steering elements (Table 08-3, R198 to R202) -/

/-- Places a transfer on output `o`. -/
def ElemState.put (e : ElemState) (o : Nat) (t : Transfer) : ElemState := { e with outs := e.outs.set o (some t) }

/-- Output `o` has a free place. -/
def ElemState.free (e : ElemState) (o : Nat) : Bool := (e.outs.getD o none).isNone

/-- The head of data input `i`. -/
def ElemState.head (e : ElemState) (i : Nat) : Option Transfer := (e.ins.getD i []).head?

/-- Takes `k` transfers from data input `i`. -/
def ElemState.take (e : ElemState) (i k : Nat) : ElemState := { e with ins := e.ins.set i ((e.ins.getD i []).drop k) }

/-- One more governed transfer has moved under the head token of a group of `g`; the token goes with the last (R199). -/
def ElemState.governs (e : ElemState) (g : Nat) : ElemState :=
  if e.governed + 1 < g then { e with governed := e.governed + 1 } else { e with governed := 0, ctl := e.ctl.drop 1 }

/-- What firing an element does to it, whether its token was poisoned, and whether it was discarded under R202; none when
it cannot fire. -/
structure Fired where
  elem : ElemState
  poisoned : Bool := false
  discarded : Bool := false
  deriving DecidableEq, Repr

/-- A fork. -/
def fireFork (w : Elem) (e : ElemState) : Option Fired :=
  match e.head 0 with
  | none => none
  | some t =>
    if (List.range w.ways).all fun o => e.free o then
      some { elem := (List.range w.ways).foldl (fun x o => x.put o t) (e.take 0 1) }
    else none

/-- A join. -/
def fireJoin (w : Elem) (e : ElemState) : Option Fired :=
  let is := List.range w.ways
  if (is.all fun i => decide (w.takes.getD i 1 ≤ (e.ins.getD i []).length)) && e.free 0 && e.emit.isEmpty then
    let taken := fun i => (e.ins.getD i []).take (w.takes.getD i 1)
    let bad := is.any fun i => (taken i).any fun t => t.poison
    let out := (is.filter fun i => w.carriers.testBit i).flatMap fun i => (taken i).map fun t =>
      { t with poison := t.poison || bad }
    let e' := is.foldl (fun x i => x.take i (w.takes.getD i 1)) e
    match out with
    | [] => some { elem := e' }
    | t :: ts => some { elem := { e'.put 0 t with emit := ts } }
  else none

/-- A switch. -/
def fireSwitch (w : Elem) (e : ElemState) : Option Fired :=
  match e.ctl.head?, e.head 0 with
  | some k, some t =>
    let o := if k.poison then 0 else k.value
    if w.ways ≤ o then some { elem := (e.take 0 1).governs w.group, discarded := true }
    else if e.free o then
      some { elem := ((e.take 0 1).put o { t with poison := t.poison || k.poison }).governs w.group, poisoned := k.poison }
    else none
  | _, _ => none

/-- A merge. -/
def fireMerge (w : Elem) (e : ElemState) : Option Fired :=
  match e.ctl.head? with
  | none => none
  | some k =>
    let i := if k.poison then 0 else k.value
    if w.ways ≤ i then some { elem := { e with ctl := e.ctl.drop 1, governed := 0 }, discarded := true }
    else match e.head i with
      | none => none
      | some t =>
        if e.free 0 then
          some { elem := ((e.take i 1).put 0 { t with poison := t.poison || k.poison }).governs w.group,
                 poisoned := k.poison }
        else none

/-- A filter. -/
def fireFilter (w : Elem) (e : ElemState) : Option Fired :=
  match e.ctl.head?, e.head 0 with
  | some k, some t =>
    if k.poison || k.value % 2 == 1 then
      if e.free 0 then
        some { elem := ((e.take 0 1).put 0 { t with poison := t.poison || k.poison }).governs w.group, poisoned := k.poison }
      else none
    else some { elem := (e.take 0 1).governs w.group }
  | _, _ => none

/-- Fires element `e` of a site when its word has a kind and its condition holds; a poisoned control token takes effect as R201
gives and is consumed by the context, which dies (R383). -/
def fireProg (n e kind : Nat) (f : Elem → ElemState → Option Fired) : Prog := .look fun s =>
  withP (s.takesBond n) fun (c, p, _) => withP p.elems[e]? fun w =>
    whenP (w.kind == kind) (withP (f w ((s.bondOf n).elems.getD e {})) fun r => all [
      modElem n e fun _ => r.elem,
      whenP r.poisoned (.seq (reportOnce 0x600B c n 0 n c (pairArg n e)) (poisonDeath c 0 n n)),
      whenP r.discarded (all [count32 (0x3000 + n) 0x79 1, reportOnce 0x600A c n 0 n c (pairArg n e)])])

/-- FORK_FIRE (R198). -/
def execForkFire (site : Site) (e : Fin 16) (s : State) : Host.Outcome State Fault Refusal :=
  finish (fireProg site e 1 fireFork) s

/-- JOIN_FIRE (R198). -/
def execJoinFire (site : Site) (e : Fin 16) (s : State) : Host.Outcome State Fault Refusal :=
  finish (fireProg site e 2 fireJoin) s

/-- SWITCH_FIRE (R199). -/
def execSwitchFire (site : Site) (e : Fin 16) (s : State) : Host.Outcome State Fault Refusal :=
  finish (fireProg site e 3 fireSwitch) s

/-- MERGE_FIRE (R199). -/
def execMergeFire (site : Site) (e : Fin 16) (s : State) : Host.Outcome State Fault Refusal :=
  finish (fireProg site e 4 fireMerge) s

/-- FILTER_FIRE (R199). -/
def execFilterFire (site : Site) (e : Fin 16) (s : State) : Host.Outcome State Fault Refusal :=
  finish (fireProg site e 5 fireFilter) s

end Sys2Proof.Machine
end

