-- ==== Sys2Proof/Machine/Calibration.lean ====
section
/-! DEFINITION. The image of a calibration set: its header, its sections and what they hold (R370, R431, Table 16-5). The manual
says what the header holds and gives no places for it, so the places and the sections' lengths are constants of Config
(DESIGN CHOICE, notes/assumptions/85.md). -/

namespace Sys2Proof.Machine

open Sys2Proof

/-- The fields of the header: the format version, the serial, the origin, the time of writing, and from 4 on one CRC-32 for each
section. -/
def calWidth (k : Nat) : Nat := match k with
  | 0 => 2 | 1 => 8 | 2 => 1 | 3 => 8 | _ => 4

/-- Field `k` of an image's header. -/
def calField (bs : List Byte) (k : Nat) : Nat := ofBytes ((bs.drop (Config.calPlace k)).take (calWidth k))

/-- A list with bytes replaced from a place on. -/
def putBytes (bs : List Byte) (at_ : Nat) (v : List Byte) : List Byte := bs.take at_ ++ v ++ bs.drop (at_ + v.length)

/-- A header with field `k` replaced. -/
def putCalField (bs : List Byte) (k v : Nat) : List Byte := putBytes bs (Config.calPlace k) (toBytes (calWidth k) v)

/-- Section `k` of an image. -/
def calSection (bs : List Byte) (k : Nat) : List Byte :=
  (bs.drop (64 + ((List.range k).map Config.calSectionLength).sum)).take (Config.calSectionLength k)

/-- The image of a set with the four sections `xs`. -/
def calImage (serial origin time : Nat) (xs : List (List Byte)) : List Byte :=
  let sections := (List.range 4).map fun k => padTo (Config.calSectionLength k) (xs.getD k [])
  let fields := [1, serial, origin, time] ++ sections.map crc32
  ((List.range 8).foldl (fun h k => putCalField h k (fields.getD k 0)) (List.replicate 64 0)).take 64 ++ sections.flatten

/-- The image of a set in which the device replaces section `k` by `x` (R435): the other sections and their CRCs stay. -/
def calReplaced (bs : List Byte) (serial origin time k : Nat) (x : List Byte) : List Byte :=
  let sections := (List.range 4).map fun j => padTo (Config.calSectionLength j) (if j = k then x else calSection bs j)
  let head := [(0, 1), (1, serial), (2, origin), (3, time), (4 + k, crc32 (sections.getD k []))].foldl
    (fun h f => putCalField h f.1 f.2) (padTo 64 bs)
  head.take 64 ++ sections.flatten

/-- The sections of an image whose CRC checks, as bits. -/
def calChecks (bs : List Byte) : Nat :=
  (List.range 4).foldl (fun m k => if crc32 (calSection bs k) = calField bs (4 + k) then setBit m k else m) 0

/-- A set is valid: sections 0 and 1 are. -/
def CalSet.usable (c : CalSet) : Bool := c.valid.testBit 0 && c.valid.testBit 1

/-- Section `k` of a stored set. -/
def CalSet.section_ (c : CalSet) (k : Nat) : List Byte := calSection c.image k

/-- The set that an image holds: its header's serial, time, and sections whose CRC checks. -/
def State.setOf (s : State) (bs : List Byte) : Option CalSet :=
  if calField bs 0 = 1 then
    some { image := bs, serial := calField bs 1, written := calField bs 3, origin := 3,
           valid := if calField bs 1 = s.fuseSerial then calChecks bs else 0,
           training := Config.calibrationStacks (calSection bs 2),
           offsets := (List.range 24).map (Config.calibrationOffset (calSection bs 1)) }
  else none

/-- The objects that show the set in force. -/
def showCal : Prog := .look fun s => all [
  setReg 0x2100 0x02 (if s.cal.usable then 0 else 1),
  setReg 0x2100 0x03 s.cal.valid,
  setReg 0x2100 0x06 s.cal.written,
  setReg 0x2100 0x07 s.cal.origin]

/-- The ageing offsets that section 1 records, and the ageing indexes of the last re-plan by it (R370, R371). -/
def showAgeing : Prog := .look fun s => eachP (List.range 24) fun i => all [
  setReg (0x4000 + i) 0x04 (if s.cal.valid.testBit 1 then min 255 (s.cal.offsets.getD i 0) else 0),
  setReg (0x4000 + i) 0x0E (if s.cal.valid.testBit 1 then min 255 (s.cal.indexes.getD i 0) else 0)]

/-- A list of 24 numbers with the one of island `i` replaced. -/
def setIsland (xs : List Nat) (i v : Nat) : List Nat := (List.range 24).map fun j => if j = i then v else xs.getD j 0

end Sys2Proof.Machine
end

