-- ==== Sys2Proof/Machine/Hbm.lean ====
section
/-! DEFINITION. The commands of the memory edges: Bond memory requests, line outcomes, patrol, temperature, memory
tests and orphaned X-tiles (chapter 11). -/

namespace Sys2Proof.Machine

open Sys2Proof

/-! ## Bond memory requests (R297 to R300, Table 11-3) -/

/-- The operation of a request word: 0 read, 1 write, 2 write with acknowledge. -/
def brOp (t : Transfer) : Nat := bits t.data 63 62
/-- The lines field. -/
def brLines (t : Transfer) : Nat := bits t.data 61 51
/-- The address field. -/
def brAddr (t : Transfer) : Nat := bits t.data 47 0

/-- The range of a request breaks a condition of R299 for X-tile `x`. -/
def State.brRangeBad (s : State) (x : Nat) (t : Transfer) : Bool :=
  let a := brAddr t
  let n := 64 * brLines t
  decide (a % 64 ≠ 0 ∨ a / 65536 ≠ (a + n - 1) / 65536 ∨ 0x020000000000 < a + n)
    || touchesDump a n || decide ((interleave a).1 / 8 ≠ x / 32) || !s.hbmServes a n

/-- A request fails (R299); a request of 0 lines meets the format checks alone (R15). -/
def State.brFails (s : State) (x : Nat) (t : Transfer) : Bool :=
  t.poison || decide (brOp t = 3 ∨ bits t.data 50 48 ≠ 0) || (decide (brLines t ≠ 0) && s.brRangeBad x t)

/-- The first `n` transfers of channel `c`. -/
def channelFirst (c n : Nat) (ts : List Transfer) : List Transfer := (ts.filter fun t => decide (t.chan = c)).take n

/-- A list without the first `n` transfers of channel `c`. -/
def channelRest (c n : Nat) (ts : List Transfer) : List Transfer :=
  match ts with
  | [] => []
  | t :: ts => if t.chan = c then (match n with
      | 0 => t :: ts
      | k + 1 => channelRest c k ts) else t :: channelRest c n ts

/-- The context whose section runs at the attachment site of an X-tile, 0xFF when none does. -/
def State.xContext (s : State) (x : Nat) : Nat :=
  match s.siteOf (xLogical x) with
  | some n => (match s.active n with | some r => r.ctx | none => 0xFF)
  | none => 0xFF

/-- A request fails: reported, and once more when it touches the dump area (R292, R299). -/
def brFailure (x : Nat) (t : Transfer) : Prog := .look fun s => all [
  reportOnce 0x4804 (s.xContext x) (0xD00 + x) 1 x (s.xContext x) (pairArg x t.chan),
  whenP (touchesDump (brAddr t) (64 * brLines t) && !t.poison)
    (dumpRefused 1 x (s.xContext x) ((s.siteOf (xLogical x)).getD 0xFFF))]

/-- Answers leave by the outbound stage in request order (R298). -/
def brAnswer (x : Nat) (ts : List Transfer) : Prog := modX x fun y => { y with outq := y.outq ++ ts }

/-- What the line code found on the lines of a read, numbered from its first line. -/
def brErrors (c a n : Nat) (e : Ecc) : Prog := eachP (List.range n) fun i =>
  if e.bad.contains i then lineFound c (a / 64 + i) .uncorrectable
  else whenP (e.fixed.contains i) (lineFound c (a / 64 + i) .corrected)

/-- Serves `n` lines of a read, from its line `from_` on, on which the line code finds `e`. A failed request is reported with its first
part. -/
def brRead (x : Nat) (t : Transfer) (from_ n : Nat) (e : Ecc) : Prog := .look fun s =>
  let a := brAddr t + 64 * from_
  if s.brFails x t then all [
    whenP (decide (from_ = 0)) (brFailure x t),
    whenP (brOp t == 0) (brAnswer x (List.replicate n { chan := t.chan, poison := true }))]
  else all [
    brErrors (s.xContext x) a n e,
    .look fun u => brAnswer x ((List.range n).map fun i =>
      { data := u.load (a + 64 * i) 64, chan := t.chan, poison := u.lineBad (a / 64 + i) })]

/-- The lines of read data that an X-tile holds in flight (R300). -/
def XCore.inFlight (y : XCore) : Nat := (y.outq.filter fun t => !t.control).length

/-- Serves the read `t` at the head of the inbound link once its lines fit in flight, a longer one than 256 lines by parts of 256
(DESIGN CHOICE, notes/assumptions/16.md); the beats for which it waited count at the attachment site (R300). -/
def brReadNext (x : Nat) (t : Transfer) (ts : List Transfer) (e : Ecc) (waited : Nat) : Prog := .look fun s =>
  let y := s.xtile x
  let part := min 256 (brLines t - y.served)
  whenP (decide (y.inFlight + part ≤ 256)) (all [
    siteCount64 (xSite x) 0x73 waited,
    brRead x t y.served part e,
    modX x fun z => if brLines t ≤ y.served + part then { z with inq := ts, served := 0 } else { z with served := y.served + part }])

/-- Serves a write with its data. -/
def brWrite (x : Nat) (t : Transfer) (ds : List Transfer) : Prog := .look fun s =>
  let bad := s.brFails x t
  all [
    if bad then brFailure x t
    else eachP (List.range ds.length) fun i => withP ds[i]? fun d => hbmPut (brAddr t + 64 * i) d.bytes d.poison,
    whenP (brOp t == 2) (brAnswer x [{ chan := t.chan, control := true, poison := bad }])]

/-- The X-tile serves the request at the head of its inbound link when its operation is `op`. A transfer that is no
request is discarded with a read (DESIGN CHOICE, notes/assumptions/16.md). -/
def bondMemoryProg (x op : Nat) (e : Ecc) (waited : Nat) : Prog := .look fun s =>
  match (s.xtile x).inq with
  | [] => .skip
  | t :: ts =>
    let drop := fun (rest : List Transfer) => modX x fun y => { y with inq := rest }
    let n := brLines t
    whenP (!(s.xtile x).orphan && s.lintelOpen x) (
      if t.control || t.isMeta then
        whenP (op == 0) (all [drop ts, reportOnce 0x4804 (s.xContext x) (0xD00 + x) 1 x (s.xContext x) (pairArg x t.chan)])
      else if brOp t = 0 ∨ brOp t = 3 then
        whenP (op == 0) (brReadNext x t ts e waited)
      else whenP (brOp t == op && decide (n ≤ (channelFirst t.chan n ts).length))
        (all [drop (channelRest t.chan n ts), brWrite x t (channelFirst t.chan n ts)]))

/-- BOND_MEMORY_READ (R298). -/
def execBondMemoryRead (x : XTile) (ecc : Ecc) (waited : Nat) (s : State) : Host.Outcome State Fault Refusal :=
  finish (bondMemoryProg x 0 ecc waited) s

/-- BOND_MEMORY_WRITE (R297). -/
def execBondMemoryWrite (x : XTile) (s : State) : Host.Outcome State Fault Refusal := finish (bondMemoryProg x 1 {} 0) s

/-- BOND_MEMORY_WRITE_ACK (R298). -/
def execBondMemoryWriteAck (x : XTile) (s : State) : Host.Outcome State Fault Refusal := finish (bondMemoryProg x 2 {} 0) s

/-! ## Lines (R301 to R303) -/

/-- A line that an access of a context reads is checked. -/
def lineReadyProg (c : Nat) (l : HbmLine) (err : LineError) : Prog :=
  lineFound c (deinterleave l.stack l.channel l.offset / 64) err

/-- HBM_LINE_READY (R301). -/
def execHbmLineReady (c : Ctx) (line : HbmLine) (err : LineError) (s : State) : Host.Outcome State Fault Refusal :=
  finish (lineReadyProg c line err) s

/-- The patrol of a channel reads its next line (R303). An uncorrectable line is reported once in a section of the context that runs
at the X-tile's attachment site, and always when none runs there (DESIGN CHOICE, notes/assumptions/53.md). -/
def hbmPatrolProg (st ch : Nat) (err : LineError) : Prog := .look fun s =>
  let pos := (s.stackOf st).patrol.getD ch 0
  let off := 64 * pos
  let l := deinterleave st ch off / 64
  whenP (decide (s.reg 0x2D00 0x03 ≠ 0) && s.reg (0x4100 + st) 0x01 == 1) (all [
    modStack st fun x => { x with patrol := x.patrol.set ch ((pos + 1) % 2 ^ 25) },
    whenP (decide (pos + 1 = 2 ^ 25 ∧ ch = 0)) (count32 (0x4100 + st) 0x07 1),
    whenP (!s.lineBad l) (match err with
      | .none => .skip
      | .corrected => lineCorrected st
      | .uncorrectable =>
        let x := st * 4 + ch / 8
        .seq (lineLost st l) (if s.xContext x < 64 then reportOnce 0x4803 (s.xContext x) (0xD00 + x) 1 x (pairArg st ch) off
          else report 0x4803 1 x (pairArg st ch) off))])

/-- HBM_PATROL (R303). -/
def execHbmPatrol (st : Stack) (ch : Fin 32) (err : LineError) (s : State) : Host.Outcome State Fault Refusal :=
  finish (hbmPatrolProg st ch err) s

/-! ## Temperature (R307, R368) -/

/-- The throttle level of a stack at level `old` that reports `c` °C: 0 none, 1 half, 2 quarter. -/
def throttleLevel (old : Nat) (c : Int) : Nat :=
  let up := if 100 < c then 2 else if 95 < c then 1 else 0
  let down := if c ≤ 90 then 0 else if c ≤ 95 then 1 else 2
  if old ≤ up then up else min old down

/-- A stack reports its temperature. -/
def stackTemperatureProg (st : Nat) (c : Int) : Prog := .look fun s =>
  let x := s.stackOf st
  let level := throttleLevel x.level c
  let t := unsigned 16 c
  whenP s.mainOn (all [
    setReg (0x4100 + st) 0x04 t,
    modStack st fun y => { y with
      doubled := if 85 < c then true else if c < 80 then false else y.doubled
      level := level },
    whenP (decide (85 < c) && !x.doubled) (report 0x480B 5 st st t),
    whenP (decide (95 < c)) (report 0x480C 5 st st t),
    whenP (decide (level ≠ x.level)) (report 0x2006 6 0 st level)])

/-- STACK_TEMPERATURE (R307). -/
def execStackTemperature (st : Stack) (celsius : Int) (s : State) : Host.Outcome State Fault Refusal :=
  finish (stackTemperatureProg st celsius) s

/-! ## Memory tests (R308, R309) -/

/-- The retired granules whose home is X-tile `x`. -/
def State.retiredOf (s : State) (x : Nat) : Nat := (s.retired.filter fun e => decide (homeX e.1 = x)).length

/-- One finding of a test in mode `mode`: the row is repaired, the granule retires, or the list has no room.
(DEDUCED: notes/assumptions/54.md.) -/
def testFinding (mode : Nat) (f : TestFinding) : Prog := .look fun s =>
  let g := f.address / 256 * 256
  let p := interleave g
  whenP (s.reg (0x4100 + p.1) 0x01 == 1)
    (if mode = 2 ∧ s.reg 0x2D00 0x06 = 1 ∧ f.spareRow then all [
        count16 (0x4100 + p.1) 0x09 1, report 0x480A 5 p.1 (pairArg p.1 p.2.1) f.row]
     else if s.retired.any fun e => decide (e.1 = g) then .skip
     else if s.retired.length < 4096 ∧ s.retiredOf (homeX g) < 32 then all [
        .eff (.retired (s.retired ++ [(g, f.cause)])), report 0x4809 5 p.1 g 0]
     else report 0x4809 5 p.1 g 1)

/-- What a test leaves: its findings, and zeros with a valid code in every line of the online stacks that is not in a
retired granule. Mode 1 is quick, 2 full. (DEDUCED: notes/assumptions/54.md.) -/
def memoryTested (mode : Nat) (fs : List TestFinding) : Prog := all [
  whenP (mode == 2) (.eff (.retired [])),
  eachP fs (testFinding mode),
  .look fun s =>
    let clears := fun a => decide (a < 0x020000000000) && s.reg (0x4100 + (interleave a).1) 0x01 == 1 && !s.retiredLine (a / 64)
    all [
      eachP ((s.mem.filter fun e => clears e.1).map fun e => e.1) fun a => .eff (.store a 0),
      eachP ((s.poisonLines.filter fun e => clears (64 * e.1)).map fun e => e.1) fun l => .eff (.poisonLines l false),
      .eff (.dumps (s.dumps.map fun d => { d with bytes := d.bytes.map fun _ => 0 }))],
  .eff (.memTest none)]

/-- The write of object 0x2D00:07 with value `v`. -/
def memoryTestCommand (v : Nat) : Command where
  stateOk s := decide (v ≠ 1 ∧ v ≠ 2) || (s.allFree && s.memTest.isNone)
  effect := whenP (v == 1 || v == 2) (.eff (.memTest (some v)))

/-- MEMORY_TEST_QUICK (R308). -/
def execMemoryTestQuick (p : Path) (s : State) : Host.Outcome State Fault Refusal :=
  finish (commandWrite p 0x2D00 0x07 (memoryTestCommand 1)) s

/-- MEMORY_TEST_FULL (R308). -/
def execMemoryTestFull (p : Path) (s : State) : Host.Outcome State Fault Refusal :=
  finish (commandWrite p 0x2D00 0x07 (memoryTestCommand 2)) s

/-- MEMORY_TEST_END (R309). -/
def execMemoryTestEnd (findings : List TestFinding) (s : State) : Host.Outcome State Fault Refusal :=
  finish (.look fun t => withP t.memTest fun m => memoryTested m findings) s

/-! ## Orphaned X-tiles (R295) -/

/-- An X-tile becomes orphaned: what crosses it is lost and its substitute is named. With no substitute left, the event's
argument is a free value. (DEDUCED: notes/assumptions/52.md.) -/
def orphanX (x : Nat) : Prog := .look fun s =>
  whenP (!(s.xtile x).orphan) (all [
    .eff (.xtiles x { orphan := true }),
    .look fun t => match t.substitute x with
      | some y => report 0x4806 6 0 x y
      | none => all [.eff .draw, report 0x4806 6 0 x (Config.freeNat t.free)]])

/-- X_TILE_ORPHANED (R295). -/
def execXTileOrphaned (x : XTile) (s : State) : Host.Outcome State Fault Refusal := finish (orphanX x) s

end Sys2Proof.Machine
end

