-- ==== Sys2Proof/Machine/Endpoints.lean ====
section
/-! DEFINITION. What an endpoint does with the memory packets that it has taken: tiles, memory X-tiles, and the corner
X-tiles with their queue-pair windows and the host window (R231, R250, R296, R328, R333). -/

namespace Sys2Proof.Machine

open Sys2Proof

/-! ## Common parts -/

/-- The address of a memory packet (Table 09-5). -/
def packetAddr (p : Packet) : Nat := bits p.operand 47 0

/-- The read length of a READ_REQUEST. -/
def packetLen (p : Packet) : Nat := bits p.operand 58 48

/-- The answer to a READ_REQUEST. -/
def readAnswer (p : Packet) (bs : List Byte) (poison : Bool) : Packet :=
  { dst := p.src, src := p.dst, ctx := p.ctx, cls := 2, typ := 0x23, len := bs.length, poison := poison
    operand := packetAddr p + place (bits p.operand 63 59) 59, payload := bs, management := p.management }

/-- A READ_REQUEST is answered (R296). -/
def respond (p : Packet) (bs : List Byte) (poison : Bool) : Prog := all [
  packetDone p,
  withState fun s => .issue (s.issue ++ [{ packet := readAnswer p bs poison }])]

/-- The scratchpad access that a packet asks for. -/
def packetAccess (p : Packet) (aliased : Bool) (off len : Nat) : Access :=
  { aliased := aliased, off := off, len := len, bytes := p.payload.take p.len, poison := p.poison
    ctx := Fin.ofNat 64 p.ctx }

/-- The words of S-tile `t` that a packet reaches; otherwise the access fails with an address error and the packet is
returned with reason 3 (R148, R149, R406). -/
def withWords (t : Nat) (p : Packet) (aliased : Bool) (off len : Nat) (f : List Nat → Prog) : Prog := .look fun s =>
  match s.decode t aliased off len with
  | some ws => match ws.findSome? fun w => s.savedWord t w with
    | some i => all [scratchAddressError t (packetAccess p aliased off len),
        report 0x9005 0 p.dst i p.ctx, returnPacketTo p 3 p.dst]
    | none => f ws
  | none => all [scratchAddressError t (packetAccess p aliased off len), returnPacketTo p 3 p.dst]

/-- A packet for an operand store lies inside the store of M-tile `m`. -/
def inStore (m m' off len : Nat) : Bool := decide (m = m' ∧ off + len ≤ 0x80000)

/-- Why X-tile `x` cannot serve a range: it returns such a packet with reason 3 (R296, R305). -/
def State.xRefuses (s : State) (x a n : Nat) : Bool :=
  decide (0x020000000000 < a + n ∨ a / 1024 ≠ (a + n - 1) / 1024) || touchesDump a n
    || decide ((interleave a).1 / 8 ≠ x / 32) || !s.hbmServes a n || (s.xtile x).orphan

/-- Memory X-tile `x` serves the range of a packet with `f`, or returns the packet. -/
def xServe (x : Nat) (p : Packet) (n : Nat) (f : Prog) : Prog := .look fun s =>
  if s.xRefuses x (packetAddr p) n then all [
    whenP (touchesDump (packetAddr p) n) (dumpRefused 1 x p.ctx p.src),
    returnPacketTo p 3 p.dst]
  else f

/-! ## Queue-pair windows (Table 12-6, R333) -/

/-- The offset of a range in a window is listed in Table 12-6, for a write among those that may be written: a slot's, or that of a
count, whose word takes 8 bytes (R333). -/
def windowListed (write : Bool) (off len : Nat) : Bool :=
  let top := if write then 0x2010 else 0x2020
  decide (off + len ≤ 0x2000 ∨ (0x2000 ≤ off ∧ off % 8 = 0 ∧ off + len ≤ top))

/-- A post, a record or a request of queue pair `n` is rejected: counted and reported (R332, R333, R335). -/
def pairRejected (n : Nat) : Prog := .look fun s => all [
  count32 (0x4200 + n / 256) 0x08 1, report 0xA00C 2 (n / 256) (s.pair n).owner (n % 256)]

/-- A producer count is written: accepted when it runs at most 64 ahead of the consumer count (R333). -/
def producerWrite (n : Nat) (recv : Bool) (v : Nat) : Prog := .look fun s =>
  let p := s.pair n
  let cons := if recv then p.recvCons else p.sendCons
  if (v % 2 ^ 32 + 2 ^ 32 - cons) % 2 ^ 32 ≤ 64 then
    modPair n fun q => if recv then { q with recvProd := v % 2 ^ 32 } else { q with sendProd := v % 2 ^ 32 }
  else pairRejected n

/-- Word `off` of a window as it reads. -/
def State.windowWord (s : State) (n off : Nat) : Nat :=
  let p := s.pair n
  if off = 0x2000 then p.sendProd else if off = 0x2008 then p.recvProd
  else if off = 0x2010 then p.sendCons else if off = 0x2018 then p.recvCons
  else s.load (pairAddr n off) 8

/-- The bytes of a range of a window, and whether one of its words is poisoned. -/
def State.windowRead (s : State) (n off len : Nat) : List Byte × Bool :=
  ((List.range len).map fun i =>
      (toBytes 8 (s.windowWord n ((off + i) / 8 * 8))).getD ((off + i) % 8) 0,
    (List.range len).any fun i => s.wordPoisoned (pairAddr n (off + i) / 8))

/-- Writes a listed range of a window: slots are stored, producer counts take effect; a poisoned producer count cannot be
trusted and counts as one that is not accepted (DESIGN CHOICE, notes/assumptions/17.md). -/
def windowWrite (n off : Nat) (bs : List Byte) (poison : Bool) : Prog :=
  if off < 0x2000 then all [
    storeBytes (pairAddr n off) bs,
    eachP (List.range (bs.length / 8)) fun i => .eff (.poisonWords (pairAddr n off / 8 + i) poison)]
  else eachP (List.range (bs.length / 8)) fun i =>
    if poison then pairRejected n
    else producerWrite n (decide (off + 8 * i = 0x2008)) (ofBytes (((bs.drop (8 * i)).take 8)) % 2 ^ 32)

/-- SEND_PRODUCER_WRITE (R333). -/
def execSendProducerWrite (q : Die) (i : PairNo) (v : Nat) (s : State) : Host.Outcome State Fault Refusal :=
  finish (whenP (s.dieUp q) (producerWrite (256 * q + i) false v)) s

/-- RECEIVE_PRODUCER_WRITE (R333). -/
def execReceiveProducerWrite (q : Die) (i : PairNo) (v : Nat) (s : State) : Host.Outcome State Fault Refusal :=
  finish (whenP (s.dieUp q) (producerWrite (256 * q + i) true v)) s

/-! ## The host window (R328) -/

/-- A host port carries requests: its link is up, its die is attached and the lintel to it is open (R312, R314). -/
def State.portUp (s : State) (h : Nat) : Bool := s.reg 0x2E10 (0x06 + h) != 0 && s.pathOpen (hostPath h)

/-- The active host port carries requests. -/
def State.hostUp (s : State) : Bool := s.portUp (s.reg 0x2E10 0x01)

/-- The host bus address of an offset of the host window. -/
def State.hostBus (s : State) (off : Nat) : Nat := s.reg 0x2E10 0x05 + off

/-- Sends a posted write to the host, with the mark of poisoned data. -/
def hostWrite (off : Nat) (bs : List Byte) (poison : Bool) : Prog := .look fun s => all [
  .eff (.emit (.hostRequest s.nextHostId true (s.hostBus off) bs.length bs poison)),
  .eff (.nextHostId (s.nextHostId + 1))]

/-- Asks the host for a read and keeps who asked. -/
def hostRead (off len : Nat) (origin : Origin) (p : Option Packet) : Prog := .look fun s => all [
  .eff (.emit (.hostRequest s.nextHostId false (s.hostBus off) len [] false)),
  .eff (.hostWindow (s.hostWindow ++ [⟨s.nextHostId, s.reg 0x2E10 0x01, 0x060080000000 + off, len, origin, p⟩])),
  .eff (.nextHostId (s.nextHostId + 1))]

/-! ## Writes -/

/-- What an access of a packet to words of a scratchpad meets at the port: its beats, its waits and the tags' codes (R152, R153,
R164). -/
def portAccess (t n : Nat) (ws : List Nat) (e : Ecc) : Prog := all [
  countBeats n ws, siteCount64 n 0x58 e.waitBeats, tagErrors t n (slotsOf ws) e]

/-- A tile stores the payload of a WRITE or WRITE_ORDERED (R149, R37). -/
def tileWrite (p : Packet) (e : Ecc) : Prog := .look fun s =>
  match s.tileOf p.dst with
  | none => returnPacketTo p 1 p.dst
  | some l => match placeOf (packetAddr p), tileType l with
    | .scratch t off al, 1 =>
      if t = sIndex l then withWords t p al off p.len fun ws => all [
        packetDone p, portAccess t p.dst ws e, plainWriteWords t ws (p.payload.take p.len) p.poison]
      else returnPacketTo p (s.missReason p) p.dst
    | .store m off, 0 =>
      if inStore m (mIndex l) off p.len then match s.writeLocked p.dst off p.len with
        | some line => all [rejectStoreWrite p.dst line false, returnPacketTo p 2 p.dst]
        | none => all [
            packetDone p, whenP e.conflict (count32 (0x3000 + p.dst) 0x3A 1),
            storeWrite m off (p.payload.take p.len) p.poison]
      else returnPacketTo p (s.missReason p) p.dst
    | _, _ => returnPacketTo p (s.missReason p) p.dst

/-! ## OPERAND_STORE_WRITE (R93, R94) -/

/-- Bytes reach an operand store; `back` is what becomes of a write to a locked line besides the rejection. -/
def storeBytesProg (site m : Nat) (w : StoreWrite) (bs : List Byte) (poison : Bool) (back : Prog) : Prog := .look fun s =>
  match s.writeLocked site w.offset bs.length with
  | some line => .seq (rejectStoreWrite site line w.bond.isSome) back
  | none => all [
      whenP w.conflict (count32 (0x3000 + site) 0x3A 1),
      storeWrite m w.offset bs poison]

/-- The WRITE that a Mortar write of an operand store stands for (Table 09-5). -/
def storePacket (site m : Nat) (w : StoreWrite) : Packet := {
  dst := site, src := w.source, ctx := w.ctx, cls := 2, typ := 0x20, len := w.bytes.length, poison := w.poison
  operand := storeAddr m w.offset, payload := w.bytes }

/-- A write reaches an operand store. A Mortar write to a locked line goes back to its source with reason 2 (R94, R245). A Bond
write is the oldest transfer of its engine input, which it consumes whether it is stored or rejected; a halted tile takes none
(R105); the manual does not say how a route names the line (DESIGN CHOICE, notes/assumptions/108.md). -/
def storeWriteProg (site : Nat) (w : StoreWrite) : Prog := .look fun s =>
  withP (s.tileOf site) fun l => whenP (tileType l == 0 && !(s.mtile site).halted)
    (match w.bond with
     | none => storeBytesProg site (mIndex l) w w.bytes w.poison (returnPacketTo (storePacket site (mIndex l) w) 2 site)
     | some k => withP (s.engineIn site k).head? fun t =>
        .seq (takeIn site k 1) (storeBytesProg site (mIndex l) w t.bytes t.poison .skip))

/-- OPERAND_STORE_WRITE (R93). -/
def execOperandStoreWrite (site : Site) (w : StoreWrite) (s : State) : Host.Outcome State Fault Refusal :=
  finish (storeWriteProg site w) s

/-- A corner X-tile passes a write to its die. -/
def cornerWrite (p : Packet) : Prog := .look fun s =>
  match placeOf (packetAddr p) with
  | .pairWindow n off =>
    if n / 256 = p.dst - 0xD80 ∧ (s.pair n).owner = p.ctx ∧ windowListed true off p.len then
      all [packetDone p, windowWrite n off (p.payload.take p.len) p.poison]
    else returnPacketTo p 3 p.dst
  | .host off =>
    if off + p.len ≤ 0x80000000 ∧ s.hostUp then all [packetDone p, hostWrite off (p.payload.take p.len) p.poison]
    else returnPacketTo p 3 p.dst
  | _ => returnPacketTo p 3 p.dst

/-- An endpoint applies a write. -/
def writeAt (p : Packet) (e : Ecc) : Prog :=
  if p.dst < 3264 then tileWrite p e
  else if p.dst < 0xD80 then xServe (p.dst - 0xD00) p p.len (all [
    packetDone p, hbmPut (packetAddr p) (p.payload.take p.len) p.poison])
  else cornerWrite p

/-- The slots that a memory packet reaches in the S-tile `t` of its endpoint. -/
def State.packetSlots (s : State) (t : Nat) (p : Packet) : List Nat :=
  match placeOf (packetAddr p) with
  | .scratch t' off al =>
    if t' = t then slotsOf ((s.decode t al off (if p.typ = 0x12 then packetLen p else p.len)).getD []) else []
  | _ => []

/-- The ingress of an S-tile takes a packet now (R162); a halted tile stalls Mortar (R105). -/
def State.ingressReady (s : State) (p : Packet) : Bool :=
  !(decide (p.dst < 3264) && (s.mtile p.dst).halted) && match s.tileOf p.dst with
    | some l => tileType l != 1 || s.takes (sIndex l) (.ingress { aliased := false, off := 0, len := 0 }) (s.packetSlots (sIndex l) p)
    | none => true

/-- Applies a memory packet whose endpoint can take it now; it waits otherwise. -/
def memoryPacket (typ : Nat) (p : Packet) (f : Prog) : Prog := .look fun s =>
  whenP (s.endpointOpen p.dst && s.ingressReady p) (applyPacket typ p f)

/-- WRITE (R296). -/
def execWrite (p : Packet) (ecc : Ecc) (s : State) : Host.Outcome State Fault Refusal :=
  finish (memoryPacket 0x20 p (writeAt p ecc)) s

/-- WRITE_ORDERED (R235). -/
def execWriteOrdered (p : Packet) (ecc : Ecc) (s : State) : Host.Outcome State Fault Refusal :=
  finish (memoryPacket 0x21 p (writeAt p ecc)) s

/-! ## SYNC_WRITE (Table 06-4) -/

/-- An S-tile takes a SYNC_WRITE: its slots are written in order, each as a synchronised write (R162). One whose address is not
on a slot boundary fails with an address error (DESIGN CHOICE, notes/assumptions/132.md). -/
def syncWriteAt (p : Packet) (e : Ecc) : Prog := .look fun s =>
  match s.tileOf p.dst with
  | none => returnPacketTo p (if p.dst < 3264 then 1 else 3) p.dst
  | some l => match placeOf (packetAddr p), tileType l with
    | .scratch t off al, 1 =>
      if t = sIndex l then
        (if off % 64 = 0 then withWords t p al off p.len fun ws => all [
            packetDone p, siteCount64 p.dst 0x58 e.waitBeats, tagErrors t p.dst (slotsOf ws) e,
            writeSlots t p.dst (.ingress (packetAccess p al off p.len)) false p.poison (p.payload.take p.len) (slotsOf ws) e]
         else all [scratchAddressError t (packetAccess p al off p.len), returnPacketTo p 3 p.dst])
      else returnPacketTo p (s.missReason p) p.dst
    | _, _ => returnPacketTo p (s.missReason p) p.dst

/-- SYNC_WRITE (R231). -/
def execSyncWrite (p : Packet) (ecc : Ecc) (s : State) : Host.Outcome State Fault Refusal :=
  finish (memoryPacket 0x22 p (syncWriteAt p ecc)) s

/-! ## Reads -/

/-- The words of the operand-store range of a read that the codes found corrected or bad. -/
def inRange (e : Ecc) (off len : Nat) : Ecc :=
  let mine := fun (w : Nat) => decide (off / 8 ≤ w ∧ 8 * w < off + len)
  { e with fixed := e.fixed.filter mine, bad := e.bad.filter mine }

/-- A tile answers a READ_REQUEST. -/
def tileRead (p : Packet) (e : Ecc) : Prog := .look fun s =>
  let len := packetLen p
  match s.tileOf p.dst with
  | none => returnPacketTo p 1 p.dst
  | some l => match placeOf (packetAddr p), tileType l with
    | .scratch t off al, 1 =>
      if t = sIndex l then withWords t p al off len fun ws => all [
        portAccess t p.dst ws e, readErrors t p.dst ws e,
        .look fun u => respond p (u.wordBytes t ws) (u.slotsPoisoned t ws)]
      else returnPacketTo p (s.missReason p) p.dst
    | .store m off, 0 =>
      if inStore m (mIndex l) off len then
        .seq (storeErrors p.dst (inRange e off len))
          (respond p (s.bytesAt (storeAddr m off) len) (s.storeRead m (inRange e off len).bad off len).2)
      else returnPacketTo p (s.missReason p) p.dst
    | _, _ => returnPacketTo p (s.missReason p) p.dst

/-- A corner X-tile passes a read to its die; one of the host window waits for the host's completion. -/
def cornerRead (p : Packet) : Prog := .look fun s =>
  let len := packetLen p
  match placeOf (packetAddr p) with
  | .pairWindow n off =>
    if n / 256 = p.dst - 0xD80 ∧ (s.pair n).owner = p.ctx ∧ windowListed false off len then
      respond p (s.windowRead n off len).1 (s.windowRead n off len).2
    else returnPacketTo p 3 p.dst
  | .host off =>
    if off + len ≤ 0x80000000 ∧ s.hostUp then hostRead off len .none (some p) else returnPacketTo p 3 p.dst
  | _ => returnPacketTo p 3 p.dst

/-- An endpoint serves a READ_REQUEST; a length of 0 or above 1,024 is returned with reason 3 (R231). -/
def readAt (p : Packet) (e : Ecc) : Prog :=
  if packetLen p = 0 ∨ 1024 < packetLen p then returnPacketTo p 3 p.dst
  else if p.dst < 3264 then tileRead p e
  else if p.dst < 0xD80 then xServe (p.dst - 0xD00) p (packetLen p) (.look fun s =>
    respond p (s.bytesAt (packetAddr p) (packetLen p)) (s.rangeBad (packetAddr p) (packetLen p)))
  else cornerRead p

/-- READ_REQUEST (R296). -/
def execReadRequest (p : Packet) (ecc : Ecc) (s : State) : Host.Outcome State Fault Refusal :=
  finish (memoryPacket 0x12 p (readAt p ecc)) s

/-- A READ_RESPONSE delivers its data to the engine that asked, poisoned when the packet is (R250); a memory X-tile asks
for nothing and returns it (R296). -/
def responseAt (p : Packet) : Prog :=
  if 0xD00 ≤ p.dst ∧ p.dst < 0xD80 then returnPacketTo p 3 p.dst
  else all [packetDone p, .eff (.emit (.readData p.dst (p.payload.take p.len) p.poison))]

/-- READ_RESPONSE (R250). -/
def execReadResponse (p : Packet) (s : State) : Host.Outcome State Fault Refusal :=
  finish (memoryPacket 0x23 p (responseAt p)) s

/-! ## HOST_WINDOW_COMPLETION (R328) -/

/-- Ends a read of the host window: an engine has its data, a host read completes with its data, or comes back returned with
`reason` and gives poisoned data, and a packet is answered or returned (R328). -/
def endHostRead (a : HostAccess) (ok : Bool) (bs : List Byte) (reason : Nat) : Prog := .look fun s => all [
  withState fun s => .hostWindow (s.hostWindow.filter fun b => decide (b.id ≠ a.id)),
  match a.packet, a.origin with
  | some p, _ => if ok then respond p (padTo a.len bs) false else returnPacketTo p reason p.dst
  | none, .host h => if ok then .eff (.emit (.hostRead h 0 (padTo a.len bs) false))
      else .seq (requestReturned 0xFF reason s.hostCorner s.hostCorner) (.eff (.emit (.hostRead h 0 [] true)))
  | none, _ => withState fun s => .hostData (s.hostData ++ [⟨a.origin, a.addr, padTo a.len bs, ok⟩])]

/-- The host completes a read. -/
def hostCompletion (id : Nat) (ok : Bool) (bs : List Byte) : Prog := .look fun s =>
  withP (s.hostWindow.find? fun a => decide (a.id = id)) fun a => endHostRead a ok bs 3

/-- HOST_WINDOW_COMPLETION (R328). -/
def execHostWindowCompletion (n : Nat) (ok : Bool) (bytes : List Byte) (s : State) : Host.Outcome State Fault Refusal :=
  finish (hostCompletion n ok bytes) s

end Sys2Proof.Machine
end

