-- ==== Sys2Proof/Machine/Contexts.lean ====
section
/-! DEFINITION. Contexts and their queue engines: open, close, doorbells, and the fetch, start and completion of
descriptors (chapter 10, R252 to R260). -/

namespace Sys2Proof.Machine

open Sys2Proof

/-! ## Open and close (R252 to R254) -/

/-- The first address above the HBM range (Table 01-7). -/
def hbmEnd : Nat := 0x020000000000

/-- A table of 2^q entries of `n` bytes at a base is 4 KiB aligned and lies in the HBM range whole (R253). -/
def tableInHbm (base q n : Nat) : Bool := decide (base % 4096 = 0 ∧ base + 2 ^ q * n ≤ hbmEnd)

/-- An open of a context is accepted (R29, R253, R429). -/
def State.mayOpen (s : State) (c : Nat) : Bool :=
  let x := 0x2700 + c
  let q := s.reg x 0x05
  s.ctxState c == 0 && s.ready && s.reset_.isNone && s.reg 0x2010 0x02 != 0 && s.partMask c != 0 && decide (4 ≤ q ∧ q ≤ 16)
    && tableInHbm (s.reg x 0x04) q 64 && tableInHbm (s.reg x 0x07) q 16

/-- A refused context command: an event about the context that no site issued (R252, R289, R484). -/
def commandRefused (c v : Nat) : Prog := reportOnce 0x8003 c 0xFFF 7 c c v

/-- The write of command 1 to a context. -/
def openCommand (c : Nat) : Command where
  stateOk s := s.mayOpen c
  refused _ := commandRefused c 1
  effect := all [
    setReg (0x2700 + c) 0x06 0, setReg (0x2700 + c) 0x08 0, setReg (0x2700 + c) 0x09 0,
    .eff (.ctxs c {}),
    setReg (0x2700 + c) 0x36 0,
    .look fun s => setReg (0x2700 + c) 0x37 (s.watchSite (s.partMask c)),
    setReg (0x2700 + c) 0x01 1]

/-- CONTEXT_OPEN (R253). -/
def execContextOpen (p : Path) (c : Ctx) (s : State) : Host.Outcome State Fault Refusal :=
  finish (commandWrite p (0x2700 + c) 0x02 (openCommand c)) s

/-- A flag cell bound to a context has a waiter. -/
def State.ctxWaited (s : State) (c : Nat) : Bool :=
  s.cells.any fun e => e.2.bound && decide (e.2.ctx = c) && s.cellWaited e.1

/-- A close of a context is accepted (R254). -/
def State.mayClose (s : State) (c : Nat) : Bool :=
  s.ctxState c == 1 && s.reg (0x2700 + c) 0x08 == s.reg (0x2700 + c) 0x09 && (s.ctx c).active.isEmpty
    && (s.ctxRings c).isEmpty && !s.ctxWaited c

/-- The write of command 2 to a context, which completes once its rebinds have been applied (R254, R283).
(DEDUCED: notes/assumptions/102.md.) -/
def closeCommand (p : Path) (c : Nat) : Command where
  stateOk s := s.mayClose c
  refused _ := commandRefused c 2
  effect := .look fun s => all [
    withState fun t => .entryWaits (t.entryWaits ++ ((s.ctxEntries c).filter fun e => (s.siteOf (fmTile e.2)).isSome).map fun e =>
      (p, c, e.1, 1)),
    freeResources c,
    .eff (.ctxs c {}),
    setReg (0x2700 + c) 0x01 0, setReg (0x2700 + c) 0x31 0xFF, setReg (0x2700 + c) 0x32 0xFF,
    setReg (0x2700 + c) 0x37 0xFFFF,
    answerMapped p c]
  answersLater := true

/-- CONTEXT_CLOSE (R254). -/
def execContextClose (p : Path) (c : Ctx) (s : State) : Host.Outcome State Fault Refusal :=
  finish (commandWrite p (0x2700 + c) 0x02 (closeCommand p c)) s

/-- The write of any other value to a context's command object (R252). -/
def badContextCommand (c v : Nat) : Command where
  valueOk _ := false
  refused _ := commandRefused c v

/-! ## Doorbells (R256) -/

/-- A doorbell write reaches the queue engine of a context. -/
def ringDoorbell (c v : Nat) : Prog := .look fun s =>
  let x := 0x2700 + c
  let ahead := (v % 2 ^ 32 + 2 ^ 32 - s.reg x 0x06) % 2 ^ 32
  if s.ctxRuns c && decide (ahead ≤ 2 ^ s.reg x 0x05) then setReg x 0x09 (v % 2 ^ 32)
  else report 0x8002 2 (queueDie c) c v

/-! ## Descriptors (R257 to R260, Tables 10-2 and 10-3) -/

/-- The queue engine of a context works: its die is attached and the lintel to it lets items through (R312, R314). -/
def State.engineUp (s : State) (c : Nat) : Bool := s.dieUp (queueDie c) && s.lintelOpen (128 + queueDie c)

/-- A pulse of a control signal is raised at a lintel that it cannot cross now (R316). -/
def Toggle.raise (g : Toggle) : Toggle := if g.out then { g with again := true } else { g with out := true }

/-- A doorbell write whose indication cannot cross the lintel to its queue engine: the count last written waits (R316). -/
def holdDoorbell (c v : Nat) : Prog := .seq (modCtx c fun x => { x with doorbell := some v })
  (modLintel (128 + queueDie c) fun l => { l with bell := l.bell.raise })

/-- The doorbell-present indication crosses the lintel to a die, which acknowledges it: each queue engine takes the count that
waits (R316). -/
def takeDoorbells (q : Nat) : Prog := .look fun s =>
  .seq (modLintel (128 + q) fun l => { l with bell := {} })
    (eachP ((List.range 64).filter fun c => decide (queueDie c = q)) fun c => withP (s.ctx c).doorbell fun v =>
      .seq (modCtx c fun x => { x with doorbell := none }) (ringDoorbell c v))

/-- Word `i` of a descriptor. -/
def dWord (d : ActiveDesc) (i : Nat) : Nat := d.words.getD i 0

/-- The opcode of a descriptor. -/
def dOp (d : ActiveDesc) : Nat := bits (dWord d 0) 63 58

/-- The bits of words 1 to 7 that an opcode uses (Table 10-3); none for a reserved opcode. -/
def operandBits (op : Nat) : Option (List Nat) :=
  let a := 2 ^ 48 - 1
  let w := 2 ^ 64 - 1
  match op with
  | 0x01 => some [a, 3, 0, 0, 0, 0, 0]
  | 0x02 => some [3, 0, 0, 0, 0, 0, 0]
  | 0x03 => some [a, a, 2 ^ 40 - 1, 3, 0, 0, 0]
  | 0x04 => some [0, a, 2 ^ 40 - 1, 3, w, 0, 0]
  | 0x05 | 0x06 => some [0xFFFF, 0, 0, 0, 0, 0, 0]
  | 0x07 => some [0xFFFFFFFF0000FFFF, 0, 0, 0, 0, 0, 0]
  | 0x08 => some [0xFF3FFF, a, 0x7FF, 0, 0, 0, 0]
  | 0x09 => some [a, a, w, 0, 0xFFFFFFFF00000000, w, w]
  | 0x0A => some [a, a, w, a, w, w, w]
  | 0x0B => some [0, 0, 0, 0, 0, 0, 0]
  | 0x0C => some [w, 0, 0, 0, 0, 0, 0]
  | _ => none

/-- A descriptor has a reserved opcode or a non-zero reserved field (R259). -/
def dMalformed (d : ActiveDesc) : Bool :=
  bits (dWord d 0) 55 32 != 0 || match operandBits (dOp d) with
    | none => true
    | some ms => (numberedFrom 1 ms).any fun e => dWord d e.2 &&& (2 ^ 64 - 1 - e.1) != 0
where
  /-- The elements of a list with their numbers from `i` on. -/
  numberedFrom (i : Nat) (ms : List Nat) : List (Nat × Nat) := (List.range ms.length).map fun k => (ms.getD k 0, i + k)

/-- A descriptor starts only when every earlier one has completed (R257). -/
def dBarrier (d : ActiveDesc) : Bool := bit (dWord d 0) 57 || dOp d == 0x07 || dOp d == 0x0B

/-- The active descriptors fetched before a descriptor. -/
def State.earlier (s : State) (c : Nat) (d : ActiveDesc) : List ActiveDesc :=
  (s.ctx c).active.takeWhile fun e => decide (e.num ≠ d.num)

/-- The fence in progress has stopped a context's section (R392). -/
def State.fenceHolds (s : State) (c : Nat) : Bool := match s.fence with
  | some f => f.stopped.any fun e => e.1 == c
  | none => false

/-- A descriptor may start now (R257). A context that a fence has stopped arms no section until its replay.
(DEDUCED: notes/assumptions/13.md.) -/
def State.mayStart (s : State) (c : Nat) (d : ActiveDesc) : Bool :=
  let before := s.earlier c d
  before.all (fun e => e.started || e.status.isSome) && (!dBarrier d || before.isEmpty)
    && !before.any (fun e => dOp e == 0x07 || dOp e == 0x0B)
    && (dOp d != 0x02 || (!before.any (fun e => dOp e == 0x01) && s.reg (0x2700 + c) 0x32 == 0xFF && !s.fenceHolds c))

/-- Replaces an active descriptor by a function of it. -/
def modDesc (c n : Nat) (f : ActiveDesc → ActiveDesc) : Prog := modCtx c fun x => { x with
  active := x.active.map fun d => if d.num = n then f d else d }

/-- A descriptor fails with an event whose arguments are the context and the descriptor number. -/
def failDesc (c n code : Nat) : Prog := all [
  reportOnce code c (queueEndpoint c) 2 (queueDie c) c n, endDescriptor c n code]

/-- Fails the malformed descriptors that may start now, in number order (R259). (DEDUCED: notes/assumptions/13.md.) -/
def settle (c fuel : Nat) : Prog :=
  match fuel with
  | 0 => .skip
  | k + 1 => .look fun s =>
    match (s.ctx c).active.find? fun d => !d.started && d.status.isNone with
    | none => .skip
    | some d => whenP (s.ctxRuns c && dMalformed d && s.mayStart c d) (all [failDesc c d.num 0x8001, settle c k])

/-- The device address of descriptor `p` of a context. -/
def State.descAddr (s : State) (c p : Nat) : Nat := s.reg (0x2700 + c) 0x04 + p % 2 ^ s.reg (0x2700 + c) 0x05 * 64

/-- The queue engine fetches the next posted descriptor, once the lintel to its line lets it through (R314). A line that the stack cannot give comes
back returned, and it or a poisoned line arrives poisoned, and the context dies (R246, R260, R292, R305, R383). -/
def fetchProg (c : Nat) (bad : Bool) : Prog := .look fun s =>
  let x := 0x2700 + c
  let p := s.reg x 0x06
  let a := s.descAddr c p
  whenP (s.ctxRuns c && s.engineUp c && !s.hbmWaits a 64 && decide (p ≠ s.reg x 0x09) && decide ((s.ctx c).active.length < 8)) (
    let lost := bad || !s.hbmServes a 64 || touchesDump a 64 || s.rangeBad a 64
    let d : ActiveDesc := { num := p, words := recordOf (s.bytesAt a 64), status := if lost then some 0x8005 else none }
    all [
      setReg x 0x06 ((p + 1) % 2 ^ 32),
      modCtx c fun y => { y with active := y.active ++ [d] },
      engineDump c a 64,
      whenP (!s.hbmServes a 64 || touchesDump a 64) (lineReturned c a),
      if lost then all [report 0x8005 2 (queueDie c) c p, poisonDeath c 2 (queueDie c) (queueEndpoint c)] else settle c 8])
where
  /-- The eight words of a descriptor. -/
  recordOf (bs : List Byte) : List Nat := (List.range 8).map fun i => ofBytes ((bs.drop (8 * i)).take 8)

/-- DESCRIPTOR_FETCH (R257). -/
def execDescriptorFetch (c : Ctx) (bad : Bool) (s : State) : Host.Outcome State Fault Refusal :=
  finish (fetchProg c bad) s

/-- Runs a command on descriptor `p` of a context, whose opcode is `op`, unless an access that it makes must wait (R314, R402): the
sender gives the command again. -/
def unlessWaits (c p op : Nat) (waits : ActiveDesc → State → Bool) (f : Prog) : Prog := .look fun s =>
  whenP (!((s.ctx c).active.any fun d => decide (d.num = p ∧ dOp d = op) && waits d s)) f

/-- Starts descriptor `p` of a context, whose opcode is `op`, when it may start: its start time is noted, and it does
`f`. -/
def startDesc (c p op : Nat) (f : ActiveDesc → Prog) : Prog := .look fun s =>
  whenP (s.ctxRuns c && s.engineUp c) (
    withP ((s.ctx c).active.find? fun d => decide (d.num = p ∧ dOp d = op) && !d.started && d.status.isNone) fun d =>
      whenP (s.mayStart c d) (all [
        modDesc c p fun e => { e with started := true, startTime := s.now },
        if dMalformed d then failDesc c p 0x8001 else f d,
        settle c 8]))

/-- The record of an ended descriptor is written, or its write fails and the context dies of the return (R246, R258). -/
def completeProg (c p : Nat) (lost : Bool) : Prog := .look fun s =>
  whenP (s.ctxRuns c && s.engineUp c && !s.hbmWaits (s.recordAddr c p) 16) (
    withP ((s.ctx c).active.find? fun d => decide (d.num = p) && d.status.isSome) fun d =>
      if lost || !s.recordWritable c p then all [
        modCtx c fun x => { x with active := x.active.filter fun e => decide (e.num ≠ p) },
        engineDump c (s.recordAddr c p) 16,
        whenP (!s.recordWritable c p) (lineReturned c (s.recordAddr c p)),
        poisonDeath c 2 (queueDie c) (queueEndpoint c)]
      else all [writeRecord c d (d.status.getD 0), settle c 8])

/-- DESCRIPTOR_COMPLETE (R258). -/
def execDescriptorComplete (c : Ctx) (p : Nat) (lost : Bool) (s : State) : Host.Outcome State Fault Refusal :=
  finish (completeProg c p lost) s

/-! ## Descriptors that only signal (R264 to R266) -/

/-- NOTE (R264). -/
def execNote (c : Ctx) (p : Nat) (s : State) : Host.Outcome State Fault Refusal :=
  finish (startDesc c p 0x0C fun _ => endDescriptor c p 0) s

/-- A SET_FLAG or CLEAR_FLAG descriptor: dropped at the issuer and complete, or sent (R265, R277). -/
def flagDesc (c p typ : Nat) (d : ActiveDesc) : Prog := .look fun s =>
  let h := bits (dWord d 1) 15 0
  all [
    issueFlag typ c (queueEndpoint c) h 0 (.descriptor c p),
    if (s.resolve c h).dropCode.isSome then endDescriptor c p 0
    else modCtx c fun x => { x with flagOps := x.flagOps ++ [h] }]

/-- SET_FLAG (R265). -/
def execSetFlag (c : Ctx) (p : Nat) (s : State) : Host.Outcome State Fault Refusal :=
  finish (startDesc c p 0x05 (flagDesc c p 0x01)) s

/-- CLEAR_FLAG (R265). -/
def execClearFlag (c : Ctx) (p : Nat) (s : State) : Host.Outcome State Fault Refusal :=
  finish (startDesc c p 0x06 (flagDesc c p 0x02)) s

/-- A WAIT_FLAG descriptor sends its wait, or fails at issue (R266). -/
def waitDescProg (c p : Nat) (d : ActiveDesc) : Prog := .look fun s =>
  let h := bits (dWord d 1) 15 0
  match (s.resolve c h).dropCode with
  | some code => all [dropAtIssuer c (queueEndpoint c) h code, endDescriptor c p code]
  | none => issueFlag 0x03 c (queueEndpoint c) h (bits (dWord d 1) 63 32) (.descriptor c p)

/-- WAIT_FLAG (R266). -/
def execWaitFlag (c : Ctx) (p : Nat) (s : State) : Host.Outcome State Fault Refusal :=
  finish (startDesc c p 0x07 (waitDescProg c p)) s

/-- FENCE_ORDER has started: it completes once the flag operations and ring posts of the earlier descriptors are done
(R265). -/
def fenceOrderProg (c p : Nat) : Prog := .look fun s =>
  withP ((s.ctx c).active.find? fun d => decide (d.num = p ∧ dOp d = 0x0B) && d.started && d.status.isNone) fun _ =>
    whenP (s.ctxRuns c && (s.ctx c).flagOps.isEmpty && (s.ctx c).ringPosts.isEmpty) (endDescriptor c p 0)

/-- FENCE_ORDER (R265): it starts, and at a later occurrence of the command looks again. -/
def execFenceOrder (c : Ctx) (p : Nat) (s : State) : Host.Outcome State Fault Refusal :=
  finish (all [startDesc c p 0x0B fun _ => .skip, fenceOrderProg c p]) s

end Sys2Proof.Machine
end

