-- ==== Sys2Proof/Machine/PlanImage.lean ====
section
/-! DEFINITION. The bytes of a plan image and of a tile plan (R216, R217, Tables 08-2 to 08-9). A tile plan is parsed
once its sizes have been checked; the checks themselves are in Machine/PlanChecks.lean. -/

namespace Sys2Proof.Machine

open Sys2Proof

/-- Word `i` of a byte string. -/
def byteWord (bs : List Byte) (i : Nat) : Nat := ofBytes ((bs.drop (8 * i)).take 8)

/-- `n` bytes of a byte string from offset `o`. -/
def cut (bs : List Byte) (o n : Nat) : List Byte := (bs.drop o).take n

/-- The words of a record of `n` words at byte offset `o`. -/
def recordAt (bs : List Byte) (o n : Nat) : List Nat := (List.range n).map fun i => byteWord (bs.drop o) i

/-- A length padded to whole 64-byte lines. -/
def pad64 (n : Nat) : Nat := ceilDiv n 64 * 64

/-- The CRC-32 of a byte string whose CRC field at offset `at_` is taken as zero (R216, R217). -/
def crcWithout (bs : List Byte) (at_ : Nat) : Nat := crc32 (bs.take at_ ++ [0, 0, 0, 0] ++ bs.drop (at_ + 4))

/-! ## The image (Tables 08-7 and 08-8) -/

/-- The format version of an image. -/
def imVersion (bs : List Byte) : Nat := bits (byteWord bs 0) 63 48
/-- The section number of an image. -/
def imSection (bs : List Byte) : Nat := bits (byteWord bs 0) 47 32
/-- The number of tile plans of an image. -/
def imCount (bs : List Byte) : Nat := bits (byteWord bs 0) 31 20
/-- The length that an image's header names. -/
def imLength (bs : List Byte) : Nat := byteWord bs 1

/-- A directory entry: logical tile, offset and length in lines. -/
structure DirEntry where
  tile : Nat
  off : Nat
  len : Nat
  deriving DecidableEq, Repr

/-- The directory of an image. -/
def imDirectory (bs : List Byte) : List DirEntry :=
  (List.range (imCount bs)).map fun k =>
    let w := byteWord bs (8 + k)
    ⟨bits w 63 52, bits w 51 28, bits w 27 19⟩

/-- The bytes of the header and the padded directory. -/
def imHead (bs : List Byte) : Nat := 64 + pad64 (8 * imCount bs)

/-- The logical tiles of a directory strictly rise. -/
def rising (es : List DirEntry) : Bool := (es.zip (es.drop 1)).all fun p => decide (p.1.tile < p.2.tile)

/-- The header and the directory of a native image pass the checks of R216 and Table 08-11. -/
def headerOk (bs : List Byte) : Bool :=
  let n := imLength bs
  n % 64 == 0 && decide (n ≤ 2 ^ 30 ∧ imHead bs ≤ n) && crcWithout (bs.take (imHead bs)) 56 == bits (byteWord bs 7) 31 0
    && rising (imDirectory bs)
    && (imDirectory bs).all fun e =>
      decide (e.tile < 3072 ∧ 1 ≤ e.len ∧ e.len ≤ 256 ∧ 64 * (e.off + e.len) ≤ n)

/-- The bytes of the tile plan that a directory entry names. -/
def planBytes (bs : List Byte) (e : DirEntry) : List Byte := cut bs (64 * e.off) (64 * e.len)

/-! ## The tile plan (Table 08-9) -/

/-- The counts of a tile plan's header. -/
structure PlanSizes where
  routes : Nat
  sched : Nat
  elems : Nat
  tokens : Nat
  consts : Nat
  recs : Nat
  streams : List Nat
  deriving DecidableEq, Repr

/-- The counts that a tile plan names. -/
def planSizes (bs : List Byte) : PlanSizes :=
  let w := byteWord bs 1
  let v := byteWord bs 2
  ⟨bits w 63 55, bits w 54 48, bits w 47 43, bits w 42 38, bits w 37 35, bits w 34 26,
    [bits v 63 56, bits v 55 48, bits v 47 40, bits v 39 32]⟩

/-- The tile type that a tile plan names. -/
def planKind (bs : List Byte) : Nat := bits (byteWord bs 0) 51 50

/-- The bytes of one engine record of a type. -/
def recordBytes (kind : Nat) : Nat := if kind = 0 then 64 else 32

/-- The offsets of the parts of a tile plan, and its end. -/
structure PlanParts where
  routes : Nat
  sched : Nat
  elems : Nat
  tokens : Nat
  consts : Nat
  recs : Nat
  stop : Nat
  deriving DecidableEq, Repr

/-- Where the parts of a tile plan lie (R217). -/
def planParts (bs : List Byte) : PlanParts :=
  let z := planSizes bs
  let a := 64 + pad64 (16 * z.routes)
  let b := a + pad64 (4 * z.sched)
  let c := b + pad64 (4 * z.elems)
  let d := c + 128 * z.tokens
  let e := d + 1024 * z.consts
  ⟨64, a, b, c, d, e, e + pad64 (recordBytes (planKind bs) * (z.recs + z.streams.sum))⟩

/-- No reserved field of a route entry is set (Table 08-2). -/
def routeReserved (w0 w1 : Nat) : Bool :=
  bits w0 14 0 == 0 && bits w1 43 0 == 0 && (bits w0 63 60 == 5 || bits w0 53 52 == 0)
    && (bits w0 51 48 == 5 || bits w0 41 40 == 0)

/-- No reserved field of a token-table entry is set (R191, R212, Table 08-1). -/
def tokenReserved (bs : List Byte) : Bool :=
  let lane := ofBytes (cut bs 64 2)
  (bs.drop 66).all (fun b => b == 0) && bits lane 6 4 == 0
    && (if bit lane 8 then !bit lane 7 && (bs.take 64).all fun b => b == 0 else bits lane 3 0 == 0)

/-- No reserved field of the lists of a tile plan is set (Tables 08-2 and 08-6, R212). -/
def listsReserved (bs : List Byte) : Bool :=
  let z := planSizes bs
  let p := planParts bs
  (List.range z.routes).all (fun i => routeReserved (byteWord (bs.drop p.routes) (2 * i)) (byteWord (bs.drop p.routes) (2 * i + 1)))
    && (List.range z.sched).all (fun i => bits (ofBytes (cut bs (p.sched + 4 * i) 4)) 10 0 == 0)
    && (List.range z.tokens).all fun i => tokenReserved (cut bs (p.tokens + 128 * i) 128)

/-- The header of a tile plan passes the checks of Table 08-11 against its directory entry. -/
def planHeaderOk (bs : List Byte) (e : DirEntry) : Bool :=
  let w0 := byteWord bs 0
  let w3 := byteWord bs 3
  let z := planSizes bs
  let k := planKind bs
  bits w0 63 52 == e.tile && k == tileType e.tile && bits w3 63 48 == e.len
    && crcWithout bs 24 == bits w3 31 0
    && decide (z.routes ≤ 256 ∧ z.sched ≤ 64 ∧ z.elems ≤ 16 ∧ z.tokens ≤ 16 ∧ z.recs ≤ 256)
    && decide (z.consts ≤ (if k = 2 then 4 else 0))
    && (k == 1 || (bits w0 31 16 == 0 && z.streams.sum == 0))
    && bits w0 49 32 == 0 && bits w0 15 0 == 0 && bits (byteWord bs 1) 25 0 == 0 && bits (byteWord bs 2) 31 0 == 0
    && bits w3 47 32 == 0 && [4, 5, 6, 7].all (fun i => byteWord bs i == 0)
    && decide ((planParts bs).stop ≤ bs.length) && listsReserved bs

/-- A route entry from its two words (Table 08-2). The output of a source and the input of a destination count only for
steering elements. -/
def routeOf (w0 w1 : Nat) : Route :=
  let sk := bits w0 63 60
  let dk := bits w0 51 48
  { srcKind := sk, srcNum := bits w0 59 54, srcOut := if sk = 5 then bits w0 53 52 else 0
    dstKind := dk, dstNum := bits w0 47 42, dstIn := if dk = 5 then bits w0 41 40 else 0
    entries := bits w0 39 33, tokens := bits w0 32 30, ring := bits w0 29 16, spill := bit w0 15
    slack := bits w1 63 48, first := bits w1 47 44 }

/-- A schedule entry from its word (Table 08-6). -/
def schedOf (w : Nat) : SchedEntry := ⟨bits w 31 30, bits w 29 24, bits w 23 12 + 1, bit w 11⟩

/-- A steering element from its word (Table 08-4). -/
def elemOf (w : Nat) : Elem :=
  { kind := bits w 31 29, ways := bits w 28 27 + 1, carriers := bits w 26 23
    takes := (List.range 4).map fun i => bits w (2 * i + 16) (2 * i + 15) + 1
    group := bits w 14 9 + 1 }

/-- A token-table entry (R212). -/
def tokenOf (bs : List Byte) : Transfer := { transferOf (ofBytes (bs.take 64)) (ofBytes (cut bs 64 2)) with chan := 0 }

/-- The element words of a tile plan as they stand. -/
def elemWords (bs : List Byte) : List Nat :=
  (List.range (planSizes bs).elems).map fun i => ofBytes (cut bs ((planParts bs).elems + 4 * i) 4)

/-- The tile plan that bytes spell, when its header passes. -/
def parsePlan (bs : List Byte) : TilePlan :=
  let z := planSizes bs
  let p := planParts bs
  let n := recordBytes (planKind bs)
  let recAt := fun i => recordAt bs (p.recs + n * i) (n / 8)
  { logical := bits (byteWord bs 0) 63 52, kind := planKind bs, own := bits (byteWord bs 0) 31 16
    routes := (List.range z.routes).map fun i => routeOf (byteWord (bs.drop p.routes) (2 * i)) (byteWord (bs.drop p.routes) (2 * i + 1))
    sched := (List.range z.sched).map fun i => schedOf (ofBytes (cut bs (p.sched + 4 * i) 4))
    elems := (elemWords bs).map elemOf
    tokens := (List.range z.tokens).map fun i => tokenOf (cut bs (p.tokens + 128 * i) 128)
    consts := (List.range z.consts).map fun i => (List.range 256).map fun j => ofBytes (cut bs (p.consts + 1024 * i + 4 * j) 4)
    streams := (List.range 4).map fun g =>
      (List.range (z.streams.getD g 0)).map fun i => recAt ((z.streams.take g).sum + i)
    recs := (List.range z.recs).map fun i => recAt (z.streams.sum + i) }

end Sys2Proof.Machine
end

