-- ==== Sys2Proof/Machine/PlanChecks.lean ====
section
/-! DEFINITION. What the plan loader checks in a native image (R224, Table 08-11), row by row of the table, each row over
the tile plans in ascending logical tile. A check answers the event code and its argument 2 of the first failure. -/

namespace Sys2Proof.Machine

open Sys2Proof

/-- A failed check: the event code and its argument 2. -/
abbrev Failed := Option (Nat × Nat)

/-- The elements of a list with their numbers. -/
def numbered {α : Type} (xs : List α) : List (α × Nat) := xs.zip (List.range xs.length)

/-- The first failure over a list. -/
def firstFailed {α : Type} (xs : List α) (f : α → Failed) : Failed := xs.findSome? f

/-- The site of a logical tile for an event. -/
def State.siteNo (s : State) (l : Nat) : Nat := (s.siteOf l).getD 0xFFFF

/-! ## Routes (0x6003) -/

/-- The destination of a route is a steering input. -/
def steeringDst (r : Route) : Bool := decide (r.dstKind = 5 ∨ r.dstKind = 6)

/-- A route's kinds and numbers are in range (Table 08-2). -/
def routeInRange (r : Route) : Bool :=
  decide (r.srcKind ≤ 5 ∧ r.dstKind ≤ 6 ∧ (r.srcKind = 4 → r.srcNum ≤ 3) ∧ (r.srcKind = 5 → r.srcNum ≤ 15)
    ∧ (r.dstKind = 4 → r.dstNum ≤ 3) ∧ (5 ≤ r.dstKind → r.dstNum ≤ 15) ∧ r.entries ≤ 64 ∧ r.tokens ≤ 4)

/-- Two routes have one source. -/
def sameSource (a b : Route) : Bool := decide (a.srcKind = b.srcKind ∧ a.srcNum = b.srcNum ∧ a.srcOut = b.srcOut)

/-- Two routes have one destination. -/
def sameDest (a b : Route) : Bool := decide (a.dstKind = b.dstKind ∧ a.dstNum = b.dstNum ∧ a.dstIn = b.dstIn)

/-- The partner of channel `ch` of link `d` of tile `l` exists: a route of the neighbouring tile plan, inside the
partition, or an X-tile that is not orphaned (R195). `out` says that the link direction leaves the tile. -/
def State.partnered (s : State) (c : Nat) (ps : List TilePlan) (l d ch : Nat) (out : Bool) : Bool :=
  match logicalNeighbour l d with
  | some l' => (s.partMask c).testBit (tileRegion l') && ps.any fun p => p.logical == l' && p.routes.any fun r =>
      if out then decide (r.srcKind = opposite d ∧ r.srcNum = ch) else decide (r.dstKind = opposite d ∧ r.dstNum = ch)
  | none => match xOfTile l d with
    | some x => !(s.xtile x).orphan
    | none => false

/-- Route `i` of a plan breaks R194 to R196 or R212. -/
def State.routeBad (s : State) (c : Nat) (ps : List TilePlan) (p : TilePlan) (r : Route) (i : Nat) : Bool :=
  let before := p.routes.take i
  !routeInRange r || before.any (sameSource r) || before.any (sameDest r)
    || (decide (r.srcKind < 4) && !s.partnered c ps p.logical r.srcKind r.srcNum false)
    || (decide (r.dstKind < 4) && !s.partnered c ps p.logical r.dstKind r.dstNum true)
    || decide (256 < ((p.routes.take (i + 1)).map fun x => x.entries).sum)
    || decide (r.entries + (if steeringDst r then 4 else 0) < r.tokens)
    || decide (r.tokens ≠ 0 ∧ p.tokens.length < r.first + r.tokens)

/-- The records of a plan that do something. -/
def liveRecs (p : TilePlan) : List (List Nat) :=
  p.recs.filter fun ws => match p.kind with | 0 => !mrNone ws | 1 => false | _ => frLen ws != 0

/-- The streams of a plan that do something. -/
def liveStreams (p : TilePlan) : List (List Nat) := p.streams.flatten.filter fun ws => srUnits ws != 0

/-- A stream uses engine port `k`. -/
def streamUses (ws : List Nat) (k : Nat) : Bool := decide (srSide ws = k ∨ srSide ws = 4)

/-- A stream writes the scratchpad: it takes transfers from an engine input. -/
def streamWrites (ws : List Nat) : Bool := decide (srMode ws = 1 ∨ srMode ws = 4)

/-- The records of a plan use engine input `k` (R193). -/
def inputUsed (p : TilePlan) (k : Nat) : Bool :=
  match p.kind with
  | 0 => (liveRecs p).any fun ws => decide (mrASrc ws = k ∨ mrBSrc ws = k) || (mrInit ws == 2 && mrCSrc ws == k)
  | 1 => (liveStreams p).any fun ws => streamWrites ws && streamUses ws k
  | _ => (liveRecs p).any fun ws => frSrc ws == k

/-- The records of a plan use engine output `k` (R193). -/
def outputUsed (p : TilePlan) (k : Nat) : Bool :=
  match p.kind with
  | 0 => (liveRecs p).any fun ws => mrOut ws != 2 && !mrScout ws && mrDst ws == k
  | 1 => (liveStreams p).any fun ws => !streamWrites ws && streamUses ws k
  | _ => (liveRecs p).any fun ws => frOut ws == k

/-- The number of the route list's first failure in a plan: a route, or the count of routes when a used engine port has
none. -/
def State.routesFailed (s : State) (c : Nat) (ps : List TilePlan) (p : TilePlan) : Option Nat :=
  match (numbered p.routes).find? fun e => s.routeBad c ps p e.1 e.2
      || (e.1.srcKind == 4 && !outputUsed p e.1.srcNum) || (e.1.dstKind == 4 && !inputUsed p e.1.dstNum) with
  | some e => some e.2
  | none =>
    if (List.range 4).all fun k =>
        (!outputUsed p k || p.routes.any fun r => decide (r.srcKind = 4 ∧ r.srcNum = k))
          && (!inputUsed p k || p.routes.any fun r => decide (r.dstKind = 4 ∧ r.dstNum = k)) then none
    else some p.routes.length

/-! ## Elements and schedules (0x6004) -/

/-- The data inputs, outputs and control input of an element (Table 08-3). -/
def elemShape (e : Elem) : Nat × Nat × Bool :=
  match e.kind with
  | 1 => (1, e.ways, false)
  | 2 => (e.ways, 1, false)
  | 3 => (1, e.ways, true)
  | 4 => (e.ways, 1, true)
  | 5 => (1, 1, true)
  | _ => (0, 0, false)

/-- An element word is reserved or out of range (Table 08-4). -/
def elemWordBad (w : Nat) : Bool :=
  let e := elemOf w
  decide (6 ≤ e.kind) || decide (bits w 8 0 ≠ 0) || (decide (1 ≤ e.kind ∧ e.kind ≤ 4) && e.ways == 1)
    || (e.kind == 5 && e.ways != 1) || (e.kind == 2 && e.carriers % 2 ^ e.ways == 0)

/-- Element `i` of a plan has exactly the routes of its inputs and outputs. -/
def elemRouted (p : TilePlan) (i : Nat) : Bool :=
  let z := elemShape (p.elems.getD i ⟨0, 1, 0, [], 1⟩)
  (List.range 4).all fun k =>
    (p.routes.any fun r => decide (r.dstKind = 5 ∧ r.dstNum = i ∧ r.dstIn = k)) == decide (k < z.1)
      && (p.routes.any fun r => decide (r.srcKind = 5 ∧ r.srcNum = i ∧ r.srcOut = k)) == decide (k < z.2.1)
      && (p.routes.any fun r => decide (r.dstKind = 6 ∧ r.dstNum = i)) == z.2.2

/-- The channels of a plan on outbound link `d`. -/
def linkChannels (p : TilePlan) (d : Nat) : List Nat := (p.routes.filter fun r => r.dstKind == d).map fun r => r.dstNum

/-- Schedule entry `i` of a plan is bad: an unrouted channel, or a group that is not consecutive and closed by one last
entry (R203). -/
def schedBad (p : TilePlan) (e : SchedEntry) (i : Nat) : Bool :=
  let next := p.sched[i + 1]?
  !(linkChannels p e.link).contains e.chan
    || ((p.sched.take i).any (fun f => f.link == e.link) && (match (p.sched.take i).getLast? with
        | some f => decide (f.link ≠ e.link)
        | none => false))
    || e.last != (match next with | some f => decide (f.link ≠ e.link) | none => true)

/-- A link direction with two or more routes has a schedule that names each of its channels (R203). -/
def linkScheduled (p : TilePlan) (d : Nat) : Bool :=
  let cs := linkChannels p d
  decide (cs.length < 2) || cs.all fun ch => p.sched.any fun e => decide (e.link = d ∧ e.chan = ch)

/-- The number of the first failing element or entry of a plan. -/
def steeringFailed (words : List Nat) (p : TilePlan) : Option Nat :=
  match (List.range 16).find? fun i => elemWordBad (words.getD i 0) || !elemRouted p i with
  | some i => some i
  | none => match (numbered p.sched).find? fun e => schedBad p e.1 e.2 with
    | some e => some e.2
    | none => if (List.range 4).all (linkScheduled p) then none else some p.sched.length

/-! ## Slack and cycles (0x6005, 0x6006) -/

/-- The capacity of a route (R207). -/
def State.routeCapacity (s : State) (r : Route) : Nat :=
  r.entries + (if steeringDst r then 4 else 0) + (if r.spill then spillCapacity (rdSize (s.ring r.ring).desc) else 0)

/-- The routes of an image: logical tile, number, route. -/
def imageRoutes (ps : List TilePlan) : List (Nat × Nat × Route) :=
  ps.flatMap fun p => (numbered p.routes).map fun e => (p.logical, e.2, e.1)

/-- One route leads to another: over a link, through an engine, or through an element (R211). -/
def leadsTo (a b : Nat × Nat × Route) : Bool :=
  let r := a.2.2
  let t := b.2.2
  if r.dstKind < 4 then
    decide (logicalNeighbour a.1 r.dstKind = some b.1 ∧ t.srcKind = opposite r.dstKind ∧ t.srcNum = r.dstNum)
  else a.1 == b.1 && (if r.dstKind = 4 then t.srcKind == 4 else t.srcKind == 5 && t.srcNum == r.dstNum)

/-- The vertex of a route. -/
def routeVertex (a : Nat × Nat × Route) : Nat := a.1 * 256 + a.2.1

/-- The first route of a cycle of routes without initial tokens (R211). -/
def tokenlessCycle (ps : List TilePlan) : Option (Nat × Nat × Route) :=
  let vs := (imageRoutes ps).filter fun a => a.2.2.tokens == 0
  let edges := vs.flatMap fun a => (vs.filter (leadsTo a)).map fun b => (routeVertex a, routeVertex b)
  vs.find? fun a =>
    let next := (edges.filter fun e => e.1 == routeVertex a).map fun e => e.2
    (reachable edges (vs.length + 1) next).contains (routeVertex a)

/-! ## Spill rings (0x6007) -/

/-- The spill ring of a route is not one that the route may use (R210). -/
def State.spillBad (s : State) (c : Nat) (ps : List TilePlan) (a : Nat × Nat × Route) : Bool :=
  let r := a.2.2.ring
  let d := (s.ring r).desc
  decide (12288 ≤ r) || !rdEnabled d || decide (rdCtx d ≠ c) || decide (rdKind d ≠ 0)
    || !(s.partMask c).testBit (tileRegion (sTileLogical (ringTile r))) || (s.sSite (ringTile r)).isNone
    || decide (spillCapacity (rdSize d) = 0)
    || (imageRoutes ps).any (fun b => b.2.2.spill && b.2.2.ring == r && decide (routeVertex b ≠ routeVertex a))
    || ps.any fun p => p.kind == 1 && sIndex p.logical == ringTile r
      && (liveStreams p).any fun ws => srAlias ws && srRing ws == r % 16

/-! ## M-tile records (R66, R81, R91, R119) -/

/-- A range of store lines runs past the 8,192 lines of a store. -/
def pastStore (x : Nat × Nat) : Bool := decide (8192 < x.1 + x.2)

/-- The output range of a record in the store. -/
def outLines (ws : List Nat) : List (Nat × Nat) :=
  let m := mrM ws
  let n := mrN ws
  let fw := mrOutFw ws
  if mrDst ws ≠ 4 ∨ mrOut ws = 2 ∨ mrScout ws then []
  else if mrOut ws = 1 ∨ fwBase fw = 6 then [(mrOutLine ws, ceilDiv (4 * m * n) 64)]
  else if fwBase fw = 5 then [(mrOutLine ws, ceilDiv (2 * m * n) 64)]
  else
    let b := m * ceilDiv n 32
    [(mrOutLine ws, ceilDiv (b * storedBytes fw 0) 64), (mrOutWords ws, ceilDiv (if fwFramed fw then 8 * b else b) 64)]

/-- A record that continues held accumulators does not follow an operation that left them so (R91). -/
def continuesBadly (prev : Option (List Nat)) (ws : List Nat) : Bool :=
  match prev with
  | some p => mrScout p || decide (mrOut p ≠ 2 ∨ mrWS p ≠ mrWS ws ∨ mrM p ≠ mrM ws ∨ mrN p ≠ mrN ws)
  | none => true

/-- A record is rejected with event 0x7406 (R91). `prev` is the operation before it. FP32 is no operand format
(R81). A reserved code counts as present in a field that the record uses (DESIGN CHOICE, notes/assumptions/111.md).
(DEDUCED: notes/assumptions/38.md.) -/
def recordBad (prev : Option (List Nat)) (ws : List Nat) : Bool :=
  decide (mrInit ws = 3 ∨ 4 < mrASrc ws ∨ 4 < mrBSrc ws) || (!mrScout ws && mrOut ws == 3)
    || (mrInit ws == 2 && decide (4 < mrCSrc ws)) || (mrOut ws != 2 && !mrScout ws && decide (4 < mrDst ws))
    || decide ((if mrWS ws then 256 else 64) < mrM ws ∨ 64 < mrN ws)
    || decide (fwBase (mrAFw ws) = 6 ∨ fwBase (mrBFw ws) = 6)
    || (!mrNone ws && ((dataLines ws ++ outLines ws).any pastStore || (mrInit ws == 1 && continuesBadly prev ws)))
    || (mrOut ws == 0 && !mrScout ws && decide (bits (mrOutFw ws) 15 14 = 1 ∧ 1 < mrM ws ∧ mrStride ws < mrN ws))

/-- The sparse control, scout and gate of a record name a stationary mode that it has (Table 05-3). -/
def stationaryBad (ws : List Nat) : Bool :=
  match mrCode ws with
  | 2 | 7 => mrWS ws
  | 5 | 6 => !mrWS ws
  | _ => false

/-- A record is rejected with event 0x7807 (R119). The sparse extension of a record without sparse control, scout and gate is not
read (DESIGN CHOICE, notes/assumptions/112.md). -/
def sparseBad (ws : List Nat) : Bool :=
  let code := mrCode ws
  let sparseA := decide (code = 2 ∨ code = 4 ∨ code = 5 ∨ code = 6)
  let sparseB := decide (code = 1 ∨ code = 3 ∨ code = 6)
  (decide (code ≠ 0) || mrScout ws || mrGate ws) && (
    stationaryBad ws
    || (sparseA && (!sparseTensor (mrAFw ws) || fwBase (mrBFw ws) == 5))
    || (sparseB && (!sparseTensor (mrBFw ws) || fwBase (mrAFw ws) == 5))
    || decide (16 < mrWindow ws) || (mrWindow ws != 0 && code != 6)
    || (mrScout ws && (mrGate ws || fwCeil (mrAFw ws) != 0 || fwCeil (mrBFw ws) != 0
        || fwBase (mrAFw ws) != 0 || fwBase (mrBFw ws) != 0))
    || ((mrScout ws || mrGate ws) && (!mrWS ws || decide (EFmt.bf16.decode (mrTau ws) = .nan)))
    || (mrAudit ws && !mrGate ws) || (code == 7 && mrOut ws == 0)
    || (!mrNone ws && ((indexLines ws).any pastStore || ((mrScout ws || mrGate ws) && pastStore (mrKeepLine ws, 1)))))

/-- The operation that precedes record `i` of a plan. -/
def previousOp (p : TilePlan) (i : Nat) : Option (List Nat) := ((p.recs.take i).filter fun ws => !mrNone ws).getLast?

/-- The failure of an M-tile's record `i`: under R66, R91 and R119 in the order of Table 08-11, then under R81. The tensor of an output format word has as many elements as the record writes
(DESIGN CHOICE, notes/assumptions/113.md). -/
def State.mRecordFailed (s : State) (p : TilePlan) (e : List Nat × Nat) : Failed :=
  let ws := e.1
  if fwBad (mrAFw ws) 0 then some (0x7005, mrAFw ws)
  else if fwBad (mrBFw ws) 0 then some (0x7005, mrBFw ws)
  else if mrOut ws == 0 && !mrScout ws && fwBad (mrOutFw ws) (mrM ws * mrN ws) then some (0x7005, mrOutFw ws)
  else if recordBad (previousOp p e.2) ws then some (0x7406, s.siteNo p.logical)
  else if sparseBad ws then some (0x7807, s.siteNo p.logical)
  else if (fwBase (mrAFw ws) == 5) != (fwBase (mrBFw ws) == 5) then some (0x7009, s.siteNo p.logical)
  else none

/-! ## S-tile records (R151, R155, R158, R170, R406) -/

/-- The word runs of a stream before folding: first word, and the words of each run. -/
def streamRuns (ws : List Nat) : List (Int × Nat) :=
  (List.range (srCount1 ws * srCount2 ws)).map fun r => (srRaw ws (r * srCount0 ws), srCount0 ws * srUnit ws)

/-- The runs of a stream lie in its address space (R158). -/
def State.runsInside (s : State) (t : Nat) (ws : List Nat) : Bool :=
  let d := (s.ring (t * 16 + srRing ws)).desc
  let lo : Int := if srAlias ws then rdBase d else 0
  let hi : Int := if srAlias ws then rdBase d + 2 * 2 ^ rdExp d else 2 ^ 19
  (!srAlias ws || rdEnabled d) && (streamRuns ws).all fun r => decide (lo ≤ r.1 ∧ r.1 + r.2 ≤ hi)

/-- The word ranges that a stream addresses, folded: first word and end. -/
def State.streamPieces (s : State) (t : Nat) (ws : List Nat) : List (Nat × Nat) :=
  (streamRuns ws).flatMap fun r =>
    if srAlias ws then
      let d := (s.ring (t * 16 + srRing ws)).desc
      let n : Nat := 2 ^ rdExp d
      let o : Nat := ((r.1 - rdBase d) % (n : Int)).toNat
      if o + r.2 ≤ n then [(rdBase d + o, rdBase d + o + r.2)]
      else [(rdBase d + o, rdBase d + n), (rdBase d, rdBase d + min n (o + r.2 - n))]
    else [(r.1.toNat, r.1.toNat + r.2)]

/-- The groups of a word range. -/
def pieceGroups (x : Nat × Nat) : List Nat :=
  if x.1 < x.2 then (List.range (wordGroup (x.2 - 1) - wordGroup x.1 + 1)).map fun i => wordGroup x.1 + i else []

/-- The owner of a group under an ownership map. -/
def ownerIn (own g : Nat) : Nat := bits own (2 * g + 1) (2 * g)

/-- A stream uses a synchronised mode. -/
def streamSync (ws : List Nat) : Bool := decide (2 ≤ srMode ws)

/-- A stream record is rejected (R158, R406). -/
def State.streamBad (s : State) (p : TilePlan) (ws : List Nat) : Bool :=
  let t := sIndex p.logical
  decide (4 < srMode ws ∨ srPort ws = 3 ∨ 4 < srSide ws) || (srSide ws == 4 && srPort ws != 0)
    || (srUnits ws != 0 && (
      !s.runsInside t ws
      || (s.streamPieces t ws).any (fun x => (pieceGroups x).any fun g => decide (ownerIn p.own g ≠ srPort ws))
      || ((srPort ws == 0 || streamSync ws) && decide (srBase ws % 8 ≠ 0 ∨ srStride1 ws % 8 ≠ 0 ∨ srStride2 ws % 8 ≠ 0))
      || (streamSync ws && srPort ws != 0 && decide (srCount0 ws % 8 ≠ 0))
      || (s.streamPieces t ws).any fun x => (pieceGroups x).any fun g => (s.savedWord t (65536 * g)).isSome))

/-- Two stream records address overlapping words, one of them writes, and neither is synchronised (R155). -/
def State.streamsClash (s : State) (t : Nat) (a b : List Nat) : Bool :=
  !streamSync a && !streamSync b && (streamWrites a || streamWrites b)
    && (s.streamPieces t a).any fun x => (s.streamPieces t b).any fun y => decide (x.1 < y.2 ∧ y.1 < x.2)

/-- Some two records of a list clash. -/
def State.anyClash (s : State) (t : Nat) (xs : List (List Nat)) : Bool :=
  match xs with
  | [] => false
  | x :: xs => xs.any (s.streamsClash t x) || s.anyClash t xs

/-- The failure of an S-tile's plan. -/
def State.sPlanFailed (s : State) (p : TilePlan) : Failed :=
  let n := s.siteNo p.logical
  if (List.range 8).any fun g => ownerIn p.own g == 3 then some (0x4004, n)
  else if p.streams.flatten.any (s.streamBad p) || s.anyClash (sIndex p.logical) (liveStreams p) then some (0x4004, n)
  else if p.recs.any fun ws => (memRecOf ws).bad then some (0x4005, n)
  else none

/-! ## F-tile records (R176) -/

/-- An opcode of Table 07-2. -/
def opKnown (op : Nat) : Bool :=
  decide ((1 ≤ op ∧ op ≤ 0x0B) ∨ (0x10 ≤ op ∧ op ≤ 0x13) ∨ (0x20 ≤ op ∧ op ≤ 0x22) ∨ op = 0x30)

/-- The registers that an operation reads from a base, and that it writes. -/
def opRegs (ws : List Nat) : Nat × Nat :=
  if frOp ws = 0x13 then (1, 1)
  else (frRegs ws, if 0x10 ≤ frOp ws ∧ frOp ws ≤ 0x12 then 1 else frRegs ws)

/-- The format word of a function record fails R66, whether the record reads it or not (R176). -/
def laneFormatBad (ws : List Nat) : Bool := fwBad (frFw ws) (frLen ws)

/-- A function record is rejected (R176). -/
def laneRecordBad (ws : List Nat) : Bool :=
  let rd := opReads (frOp ws)
  let z := opRegs ws
  let past := fun (base n : Nat) => decide (64 < base + n)
  !opKnown (frOp ws) || decide (4 < frSrc ws ∨ 4 < frOut ws ∨ 16384 < frLen ws)
    || (frLen ws != 0 && ((frSrc ws == 4 && past (frA ws) z.1) || (rd.2.1 && past (frB ws) z.1)
        || (rd.2.2 && past (frC ws) z.1) || (frOut ws == 4 && past (frD ws) z.2)))
    || (!rd.2.1 && frB ws != 0) || (!rd.2.2 && frC ws != 0)
    || laneFormatBad ws
    || (if frOp ws = 0x21 then sfBad (frSf ws) (frFw ws) else decide (frSf ws ≠ 0))

/-! ## All checks in order -/

/-- The failure of the engine records of a plan: a format word of a function record fails R66 before the record fails R176
(DEDUCED, notes/assumptions/104.md). -/
def State.recordsFailed (s : State) (p : TilePlan) : Failed :=
  match p.kind with
  | 0 => firstFailed (numbered p.recs) (s.mRecordFailed p)
  | 1 => s.sPlanFailed p
  | _ => match p.recs.find? laneFormatBad with
    | some ws => some (0x7005, frFw ws)
    | none => if p.recs.any laneRecordBad then some (0x7C01, s.siteNo p.logical) else none

/-- The link directions between neighbouring tiles that an image uses, as edges of the channel graph (R274). -/
def imageLinks (ps : List TilePlan) : List (Nat × Nat) :=
  (ps.flatMap fun p => p.routes.filterMap fun r =>
    if r.dstKind < 4 then (logicalNeighbour p.logical r.dstKind).map fun l => (p.logical, l) else none).eraseDups

/-- A slot of a tile cannot be loaded: it is running or armed (R219). -/
def State.slotBusy (s : State) (l slot : Nat) : Bool :=
  match s.siteOf l with
  | some n => decide (s.slotState n slot = 3 ∨ s.slotState n slot = 4)
  | none => false

/-- The first failing check of a native image whose header and directory pass. `bss` pairs each directory entry with
the bytes of its tile plan. (DEDUCED: notes/assumptions/96.md.) -/
def State.imageFailed (s : State) (c slot : Nat) (bss : List (DirEntry × List Byte)) : Failed :=
  let ps := bss.map fun e => parsePlan e.2
  let at_ := fun (l k : Nat) => pairArg (s.siteNo l) k
  match firstFailed bss (fun e => if planHeaderOk e.2 e.1 then none else some (0x6002, e.1.tile)) with
  | some f => some f
  | none => ([
      firstFailed ps fun p => if (s.siteOf p.logical).isNone then some (0x3004, p.logical) else none,
      firstFailed ps fun p => (s.routesFailed c ps p).map fun k => (0x6003, at_ p.logical k),
      firstFailed (bss.zip ps) fun e => (steeringFailed (elemWords e.1.2) e.2).map fun k => (0x6004, at_ e.2.logical k),
      firstFailed (imageRoutes ps) fun a => if s.routeCapacity a.2.2 < a.2.2.slack then some (0x6005, at_ a.1 a.2.1) else none,
      (tokenlessCycle ps).map fun a => (0x6006, at_ a.1 a.2.1),
      firstFailed (imageRoutes ps) fun a => if a.2.2.spill && s.spillBad c ps a then some (0x6007, a.2.2.ring) else none,
      firstFailed ps s.recordsFailed,
      firstFailed ps fun p => if s.slotBusy p.logical slot then some (0x6008, at_ p.logical slot) else none,
      (channelCycle (s.channels c) (imageLinks ps)).map fun r => (0x8008, r)] : List Failed).findSome? id

/-- The site of the first tile whose engine records fail with an event of R66, R81, R91, R119, R158, R170 or R176; 0xFFF for any
other check. -/
def State.rejectedAt (s : State) (ps : List TilePlan) (code : Nat) : Nat :=
  if [0x4004, 0x4005, 0x7005, 0x7009, 0x7406, 0x7807, 0x7C01].contains code then
    ((ps.find? fun p => (s.recordsFailed p).isSome).map fun p => s.siteNo p.logical).getD 0xFFF
  else 0xFFF

/-- What an image whose first failing check is a format word fails besides: the function record that holds the word (R176). -/
def State.alsoFailed (s : State) (ps : List TilePlan) (f : Nat × Nat) : Failed :=
  if f.1 = 0x7005 then (ps.find? fun p => (s.recordsFailed p).isSome).bind fun p =>
    if p.kind = 2 then some (0x7C01, s.siteNo p.logical) else none
  else none

/-- The records of a plan that run on the dense path, each with the reason of event 0x7806 (R134, R135). `aster` says
that the licence tier is Aster. -/
def denseRecords (aster : Bool) (p : TilePlan) : List (Nat × Nat) :=
  if p.kind ≠ 0 then []
  else (numbered p.recs).filterMap fun e =>
    let code := mrCode e.1
    if mrBackward e.1 && code != 0 && aster then some (e.2, 0)
    else if mrBackward e.1 && decide (code = 1 ∨ code = 2 ∨ code = 7) && !mrS24T e.1 then some (e.2, 1)
    else none

end Sys2Proof.Machine
end

