-- ==== Sys2Proof/Machine/PlanLoader.lean ====
section
/-! DEFINITION. The plan loader: LOAD_PLAN, the delivery of tile plans, the errors of plan slots, and U2 configuration
images (R184 to R189, R216 to R219, R224, R261). -/

namespace Sys2Proof.Machine

open Sys2Proof

/-! ## Answers of the loader -/

/-- The event of a rejected image (R224), once for each site whose record is rejected (R83); `site` is 0xFFF where no record
is. -/
def reportRejected (c code arg2 site : Nat) : Prog :=
  if code = 0x3004 then report code 7 c c arg2 else reportOnce code c site 7 c c arg2

/-- The loader rejects an image with the event of a failed check: nothing is loaded and the descriptor fails (R224). -/
def rejectImage (c p code arg2 site : Nat) : Prog := all [
  reportRejected c code arg2 site,
  count64 0x2B00 0x03 1,
  endDescriptor c p code]

/-- One PLAN_WRITE packet of a tile plan: lines `first` to `first + n - 1` of slot `slot` (Table 09-5). -/
def planWrite (c slot dst first : Nat) (bs : List Byte) : Packet :=
  { dst := dst, src := queueEndpoint c, ctx := c, cls := 2, typ := 0x25, len := bs.length,
    operand := slot + place first 2, payload := bs }

/-- The PLAN_WRITE packets of a tile plan, at most 1,024 bytes each. (DEDUCED: notes/assumptions/97.md.) -/
def planWrites (c p slot dst : Nat) (bs : List Byte) : List Request :=
  (List.range (ceilDiv bs.length 1024)).map fun i =>
    { packet := planWrite c slot dst (16 * i) (cut bs (1024 * i) 1024), origin := .descriptor c p }

/-- A tile of an accepted image: its logical number, the plan, the bytes that travel, and the U2 words. -/
structure LoadTile where
  tile : Nat
  plan : TilePlan
  bytes : List Byte
  u2 : Option (List Nat) := none
  deriving DecidableEq, Repr

/-- One tile of an accepted image: its slot is loading and its plan is sent (R219). -/
def loadTile (c p slot sect : Nat) (x : LoadTile) : Prog := .look fun s =>
  withP (s.siteOf x.tile) fun n => all [
    .eff (.plans (x.tile * 4 + slot) (some
      ⟨c, s.reg (0x2410 + tileRegion x.tile) 0x1B, sect, x.plan, x.u2, x.bytes.length, p, false⟩)),
    setSlotState n slot 1,
    withState fun t => .issue (t.issue ++ planWrites c p slot n x.bytes)]

/-- An image is accepted: it becomes the footprint of its slot and its plans are on their way (R219, R261). An image of
no tile plans completes at once (R13). -/
def acceptImage (c p slot sect image : Nat) (links : List (Nat × Nat)) (xs : List LoadTile) : Prog := all [
  count64 0x2B00 0x02 1,
  modCtx c fun y => { y with foot := (y.foot.filter fun f => decide (f.slot ≠ slot)) ++
    [{ slot := slot, tiles := xs.map fun x => x.tile, image := image, section_ := sect, links := links }] },
  eachP xs (loadTile c p slot sect),
  whenP xs.isEmpty (endDescriptor c p 0)]

/-! ## Native images -/

/-- The records of an image that run on the dense path are reported (R134, R135). -/
def tellDense (c : Nat) (ps : List TilePlan) : Prog := .look fun s =>
  eachP ps fun p => eachP (denseRecords (s.reg 0x2010 0x02 == 1) p) fun e =>
    reportOnce 0x7806 c 0xFFF 7 c c e.2

/-- The tiles of a native image, with the records that run dense marked. -/
def nativeTiles (s : State) (bss : List (DirEntry × List Byte)) : List LoadTile :=
  bss.map fun e =>
    let p := parsePlan e.2
    ⟨e.1.tile, { p with denseRecs := (denseRecords (s.reg 0x2010 0x02 == 1) p).map fun x => x.1 }, e.2, none⟩

/-- What the loader finds in the bytes of an image: the code, the argument and the site of the first failing check, or the plans whose
dense records are reported, the section number, the links of its channels and the tiles to load. -/
inductive Checked where
  | bad (code arg2 : Nat) (site : Nat := 0xFFF)
  | good (plans : List TilePlan) (sect : Nat) (links : List (Nat × Nat)) (tiles : List LoadTile)
  deriving DecidableEq, Repr

/-- The tile plans that a native image holds. -/
def nativePlans (bs : List Byte) : List TilePlan := (imDirectory bs).map fun e => parsePlan (planBytes bs e)

/-- The checks of a native image (R224). -/
def State.checkNative (s : State) (c slot : Nat) (bs : List Byte) : Checked :=
  if !headerOk bs then .bad 0x6002 0xFFFF
  else
    let bss := (imDirectory bs).map fun e => (e, planBytes bs e)
    let ps := nativePlans bs
    match s.imageFailed c slot bss with
    | some f => .bad f.1 f.2 (s.rejectedAt ps f.1)
    | none => .good ps (imSection bs) (imageLinks ps) (nativeTiles s bss)

/-! ## U2 images (Tables 07-8 to 07-10) -/

/-- A unit entry: kind, number, and its configuration block in lines. -/
structure U2Unit where
  kind : Nat
  num : Nat
  off : Nat
  len : Nat
  rest : Nat
  deriving DecidableEq, Repr

/-- A static link entry. -/
structure U2Link where
  src : Nat
  srcPort : Nat
  dst : Nat
  dstPort : Nat
  rest : Nat
  deriving DecidableEq, Repr

/-- The compute units, memory units and links that a U2 header names, and the lines of its two tables. -/
def u2Counts (bs : List Byte) : Nat × Nat × Nat :=
  let w := byteWord bs 8
  (bits w 63 52, bits w 51 40, bits w 39 28)

/-- The byte offset of the unit table. -/
def u2UnitAt (bs : List Byte) : Nat := 64 * bits (byteWord bs 9) 63 40
/-- The byte offset of the link table. -/
def u2LinkAt (bs : List Byte) : Nat := 64 * bits (byteWord bs 9) 39 16
/-- The bytes of the unit table with its padding. -/
def u2UnitBytes (bs : List Byte) : Nat := pad64 (16 * ((u2Counts bs).1 + (u2Counts bs).2.1))

/-- The unit table. -/
def u2Units (bs : List Byte) : List U2Unit :=
  (List.range ((u2Counts bs).1 + (u2Counts bs).2.1)).map fun i =>
    let w := ofBytes (cut bs (u2UnitAt bs + 16 * i) 16)
    ⟨bits w 127 124, bits w 123 112, bits w 111 88, bits w 87 72, bits w 71 0⟩

/-- The link table. -/
def u2Links (bs : List Byte) : List U2Link :=
  (List.range (u2Counts bs).2.2).map fun i =>
    let w := ofBytes (cut bs (u2LinkAt bs + 8 * i) 8)
    ⟨bits w 63 52, bits w 51 48, bits w 47 36, bits w 35 32, bits w 31 0⟩

/-- The least length of a U2 image (R216): headers and tables. A table without entries lies nowhere (R13). -/
def u2Least (bs : List Byte) : Nat :=
  max (128 + u2UnitBytes bs) (max (if u2UnitBytes bs = 0 then 0 else u2UnitAt bs + u2UnitBytes bs)
    (if (u2Counts bs).2.2 = 0 then 0 else u2LinkAt bs + 8 * (u2Counts bs).2.2))

/-- The CRC of a U2 image checks: header, U2 header and unit table (R188). -/
def u2CrcOk (bs : List Byte) : Bool :=
  crcWithout (bs.take 128 ++ cut bs (u2UnitAt bs) (u2UnitBytes bs)) 56 == bits (byteWord bs 7) 31 0

/-- The headers and tables of a U2 image pass the checks of R188. -/
def u2HeaderOk (bs : List Byte) : Bool :=
  let n := imLength bs
  let z := u2Counts bs
  n % 64 == 0 && decide (n ≤ 2 ^ 30) && imCount bs == 0
    && decide (z.1 ≤ 384 ∧ z.2.1 ≤ 768 ∧ (0 < u2UnitBytes bs → 128 ≤ u2UnitAt bs) ∧ u2Least bs ≤ n) && u2CrcOk bs
    && bits (byteWord bs 8) 27 0 == 0 && bits (byteWord bs 9) 15 0 == 0
    && (List.range 6).all (fun i => byteWord bs (10 + i) == 0)
    && ((u2Units bs).zip (List.range (z.1 + z.2.1))).all (fun e =>
      decide (e.1.num = e.2 ∧ e.1.kind = (if e.2 < z.1 then 1 else 2) ∧ e.1.rest = 0 ∧ 1 ≤ e.1.len ∧ e.1.len ≤ 4096
        ∧ 64 * (e.1.off + e.1.len) ≤ n))
    && (u2Links bs).all fun l => decide (l.rest = 0 ∧ l.src < z.1 + z.2.1 ∧ l.dst < z.1 + z.2.1)

/-- The configuration words of a unit, as 64-bit words. -/
def u2Words (bs : List Byte) (u : U2Unit) : List Nat := recordAt bs (64 * u.off) (8 * u.len)

/-- The served M/F pairs of a partition by their F-tiles, ascending (R189). -/
def State.u2Pairs (s : State) (mask : Nat) : List Nat :=
  (s.servedTiles mask).filter fun l => tileType l == 2 && (s.siteOf (l - 64)).isSome

/-- The served S-tiles of a partition without a valid save area, ascending (R189). -/
def State.u2Memories (s : State) (mask : Nat) : List Nat :=
  (s.servedTiles mask).filter fun l => tileType l == 1
    && (List.range 8).all fun g => (s.savedWord (sIndex l) (65536 * g)).isNone

/-- The tiles that units are placed on, by unit number; none when the partition has too few (R187). -/
def State.u2Places (s : State) (mask nc nm : Nat) : Option (List Nat) :=
  let ps := s.u2Pairs mask
  let ms := s.u2Memories mask
  if nc ≤ ps.length ∧ nm ≤ ms.length then some (ps.take nc ++ ms.take nm) else none

/-- The XY path from one logical tile to another as the tiles passed, each with the direction it is left by. -/
def xyPath (a b fuel : Nat) : List (Nat × Nat) :=
  match fuel with
  | 0 => []
  | k + 1 =>
    if a % 64 < b % 64 then (a, 1) :: xyPath (a + 1) b k
    else if b % 64 < a % 64 then (a, 3) :: xyPath (a - 1) b k
    else if a < b then (a, 2) :: xyPath (a + 64) b k
    else if b < a then (a, 0) :: xyPath (a - 64) b k
    else []

/-- The lowest channel of a link direction of a tile that no route of a list uses. -/
def freeChannel (rs : List (Nat × Route)) (l d : Nat) : Nat :=
  let used := (rs.filter fun e => decide (e.1 = l ∧ e.2.dstKind = d)).map fun e => e.2.dstNum
  ((List.range 65).find? fun ch => !used.contains ch).getD 64

/-- A route of a U2 path. Its queue entries are the implementation's (DESIGN CHOICE, notes/assumptions/22.md). -/
def u2Route (sk sn dk dn : Nat) : Route :=
  { srcKind := sk, srcNum := sn, srcOut := 0, dstKind := dk, dstNum := dn, dstIn := 0
    entries := Config.u2QueueEntries, tokens := 0, ring := 0, spill := false, slack := 0, first := 0 }

/-- The routes of one static link along its path, appended to those of the links before it. `sk` and `sn` are the source
of the next route. -/
def u2PathRoutes (path : List (Nat × Nat)) (last dstPort sk sn : Nat) (rs : List (Nat × Route)) : List (Nat × Route) :=
  match path with
  | [] => rs ++ [(last, u2Route sk sn 4 dstPort)]
  | (l, d) :: ps =>
    let ch := freeChannel rs l d
    u2PathRoutes ps last dstPort (opposite d) ch (rs ++ [(l, u2Route sk sn d ch)])

/-- The routes of a list of static links, in the order of the link table. A path may pass tiles outside the context's partition,
which then carry its routes (DESIGN CHOICE, notes/assumptions/130.md). -/
def u2Routes (places : List Nat) (ls : List U2Link) : List (Nat × Route) :=
  ls.foldl (fun rs x =>
    let a := places.getD x.src 0
    let b := places.getD x.dst 0
    u2PathRoutes (xyPath a b 128) b x.dstPort 4 x.srcPort rs) []

/-- The static links do not fit Bond: a direction needs more than 64 channels, or a tile more than 256 queue entries (R189). A path
that crosses an absent tile does not fit either (DESIGN CHOICE, notes/assumptions/130.md). -/
def State.u2Misfit (s : State) (rs : List (Nat × Route)) : Bool :=
  rs.any fun e => decide (e.2.dstKind < 4 ∧ 64 ≤ e.2.dstNum) || (s.siteOf e.1).isNone
    || decide (256 < ((rs.filter fun f => f.1 == e.1).map fun f => f.2.entries).sum)

/-- The schedule of the link directions of a tile that two or more of its routes leave by: each channel once, in ascending
order (R203). -/
def u2Schedule (rs : List Route) : List SchedEntry :=
  (List.range 4).flatMap fun d =>
    let cs := (List.range 64).filter fun ch => rs.any fun r => decide (r.dstKind = d ∧ r.dstNum = ch)
    if cs.length < 2 then [] else cs.map fun ch => ⟨d, ch, 1, decide (cs.getLast? = some ch)⟩

/-- The plan of a tile that runs a part of a U2 program. (DESIGN CHOICE: notes/assumptions/22.md.) -/
def u2Plan (l : Nat) (rs : List (Nat × Route)) : TilePlan :=
  let mine := (rs.filter fun e => e.1 == l).map fun e => e.2
  { logical := l, kind := tileType l, own := 0, routes := mine
    sched := u2Schedule mine, elems := [], tokens := [], consts := [], recs := [], streams := [[], [], [], []] }

/-- The tiles of a U2 image: an F-tile and its M-tile for a compute unit, both with the unit's configuration words, an S-tile
for a memory unit, and the tiles between that only carry routes of its links. Each takes one line. -/
def u2Tiles (bs : List Byte) (places : List Nat) (rs : List (Nat × Route)) : List LoadTile :=
  let tile := fun (l : Nat) (ws : List Nat) => (⟨l, u2Plan l rs, List.replicate 64 0, some ws⟩ : LoadTile)
  let units := ((u2Units bs).zip places).flatMap fun e =>
    if e.1.kind = 1 then [tile (e.2 - 64) (u2Words bs e.1), tile e.2 (u2Words bs e.1)] else [tile e.2 (u2Words bs e.1)]
  let passed := ((rs.map fun e => e.1).eraseDups.filter fun l => !units.any fun x => x.tile == l)
  units ++ passed.map fun l => tile l []

/-- The checks of a U2 image (R187 to R189, R274). -/
def State.checkU2 (s : State) (c slot : Nat) (bs : List Byte) : Checked :=
  if !u2HeaderOk bs then .bad 0x6002 0xFFFF
  else
    let z := u2Counts bs
    let uses := fun (f : Nat → List Nat → Bool) => (u2Units bs).any fun u => f u.kind (u2Words bs u)
    match s.u2Places (s.partMask c) z.1 z.2.1 with
    | none => .bad 0x7C04 0
    | some places =>
      let rs := u2Routes places (u2Links bs)
      let xs := u2Tiles bs places rs
      if uses Config.u2Feature then .bad 0x7C04 1
      else if s.u2Misfit rs then .bad 0x7C04 2
      else if uses Config.u2Switch then .bad 0x7C05 0
      else match xs.find? fun x => s.slotBusy x.tile slot with
        | some x => .bad 0x6008 (pairArg (s.siteNo x.tile) slot)
        | none =>
          let links := imageLinks (xs.map fun x => x.plan)
          match channelCycle (s.channels c) links with
          | some r => .bad 0x8008 r
          | none => .good [] (imSection bs) links xs

/-- A context runs in the native execution mode (R184). -/
def State.nativeMode (s : State) (c : Nat) : Bool := s.reg (0x2700 + c) 0x20 == 0

/-- The format version and the length of an image header pass for a context (R184, R216). -/
def State.imageHeadOk (s : State) (c : Nat) (head : List Byte) : Bool :=
  let n := imLength head
  imVersion head == (if s.nativeMode c then 1 else 2) && decide (n % 64 = 0 ∧ n ≤ 2 ^ 30 ∧ 64 ≤ n)

/-- The checks of an image whose header passes, in the context's mode. (DEDUCED: notes/assumptions/96.md.) -/
def State.checkImage (s : State) (c slot : Nat) (bs : List Byte) : Checked :=
  if s.nativeMode c then s.checkNative c slot bs else s.checkU2 c slot bs

/-- The loader takes the bytes of an image. -/
def loadImage (c p slot image : Nat) (bs : List Byte) : Prog := .look fun s =>
  match s.checkImage c slot bs with
  | .bad code arg2 site => .seq (rejectImage c p code arg2 site)
      (withP (s.alsoFailed (nativePlans bs) (code, arg2)) fun f => reportRejected c f.1 f.2 site)
  | .good ps sect links xs => all [tellDense c ps, acceptImage c p slot sect image links xs]

/-! ## LOAD_PLAN (R261) -/

/-- The bytes of a range of HBM that the loader or an engine of a context reads: an address error fails the descriptor,
and a poisoned or lost line kills the context (R27, R292, R305, R383). -/
def readHbm (c p a n : Nat) (f : List Byte → Prog) : Prog := .look fun s =>
  let q := queueDie c
  if hbmEnd < a + n then failDesc c p 0x8004
  else if touchesDump a n then all [failDesc c p 0x8004, dumpRefused 2 q c (queueEndpoint c)]
  else if !s.hbmServes a n then all [lineReturned c a, poisonDeath c 2 q (queueEndpoint c)]
  else if s.rangeBad a n then poisonDeath c 2 q (queueEndpoint c)
  else f (s.bytesAt a n)

/-- A LOAD_PLAN descriptor has started. -/
def loadPlanProg (c p : Nat) (d : ActiveDesc) : Prog :=
  let a := bits (dWord d 1) 47 0
  let slot := bits (dWord d 2) 1 0
  if a % 64 ≠ 0 then failDesc c p 0x8001
  else readHbm c p a 64 fun head => .look fun s =>
    if !s.imageHeadOk c head then rejectImage c p 0x6002 0xFFFF 0xFFF
    else readHbm c p a (imLength head) (loadImage c p slot a)

/-- The lines of a plan image wait for a memory lintel (R314). -/
def imageWaits (c : Nat) (d : ActiveDesc) (s : State) : Bool :=
  let a := bits (dWord d 1) 47 0
  let head := s.bytesAt a 64
  s.hbmWaits a 64 || (s.imageHeadOk c head && s.hbmWaits a (imLength head))

/-- LOAD_PLAN (R261). -/
def execLoadPlan (c : Ctx) (p : Nat) (s : State) : Host.Outcome State Fault Refusal :=
  finish (unlessWaits c p 0x01 (imageWaits c) (startDesc c p 0x01 (loadPlanProg c p))) s

/-! ## PLAN_WRITE (R219) -/

/-- The LOAD_PLAN descriptors of a context whose every tile plan is written complete (R261). -/
def loadsDone (c : Nat) : Prog := .look fun s =>
  eachP ((s.ctx c).active.filter fun d => dOp d == 1 && d.started && d.status.isNone) fun d =>
    whenP (!(s.plans.any fun e => match e.2 with
      | some x => decide (x.ctx = c ∧ x.desc = d.num ∧ x.left ≠ 0)
      | none => false)) (endDescriptor c d.num 0)

/-- The tile monitor writes the lines of a PLAN_WRITE; the last makes the slot loaded, unless its stamp is old by then
(R43). Poisoned words stay poisoned in the slot (R250). (DEDUCED: notes/assumptions/97.md.) -/
def takePlanWrite (p : Packet) : Prog := .look fun s =>
  let slot := bits p.operand 1 0
  match s.tileOf p.dst with
  | none => returnPacketTo p 1 p.dst
  | some l =>
    let k := l * 4 + slot
    all [
      packetDone p,
      match s.planAt k with
      | some x => whenP (decide (x.ctx = p.ctx ∧ x.left ≠ 0)) (all [
          .eff (.plans k (some { x with left := x.left - p.len, poison := x.poison || p.poison })),
          whenP (decide (x.left ≤ p.len) && s.slotState p.dst slot == 1) (setSlotState p.dst slot 2)])
      | none => .skip,
      loadsDone p.ctx]

/-- PLAN_WRITE (R219). A tile whose field steward has stopped takes none until it runs again (R386). -/
def execPlanWrite (p : Packet) (s : State) : Host.Outcome State Fault Refusal :=
  finish (.look fun t => whenP (decide (3264 ≤ p.dst) || t.stewardUp (siteField p.dst))
    (applyPacket 0x25 p (if p.management then .seq (packetDone p) (takeMicrocode p) else takePlanWrite p))) s

/-! ## PLAN_SLOT_ERROR (R218) -/

/-- An error in a plan slot: a corrected one is counted, and an uncorrectable one is reported and the partition is reset
(R218, R385). No object of the dictionary reads the count (DESIGN CHOICE, notes/assumptions/106.md).
(DEDUCED: notes/assumptions/49.md.) -/
def planSlotErrorProg (n slot : Nat) (corrected : Bool) : Prog :=
  if corrected then .look fun s => .eff (.slotFixes n (satAdd 32 (s.slotFixesAt n) 1))
  else .look fun s => all [
    report 0x6009 0 n n slot, siteFault n 2 200, partitionReset (siteRegion n) 1,
    whenP (s.partitionOf (siteRegion n) == 0) (withP (s.tileOf n) fun l => emptySlotOf l slot)]

/-- PLAN_SLOT_ERROR (R218). -/
def execPlanSlotError (site : Site) (slot : Fin 4) (corrected : Bool) (s : State) : Host.Outcome State Fault Refusal :=
  finish (planSlotErrorProg site slot corrected) s

end Sys2Proof.Machine
end

