-- ==== Sys2Proof/Machine/Sections.lean ====
section
/-! DEFINITION. Sections: arming, tiles that are done, the release of a section switch and the switch of one tile
(R43, R213, R220 to R223, R261, R262, R394). -/

namespace Sys2Proof.Machine

open Sys2Proof

/-! ## Arming (R261, R262) -/

/-- The footprint of a slot of a context. -/
def State.footOf (s : State) (c slot : Nat) : Option Footprint := (s.ctx c).foot.find? fun f => decide (f.slot = slot)

/-- The footprint of the section that a context runs. -/
def State.runFoot (s : State) (c : Nat) : Option Footprint :=
  if s.reg (0x2700 + c) 0x31 < 4 then (s.ctx c).runFoot else none

/-- The logical tiles of the section that a context runs. -/
def State.runningTiles (s : State) (c : Nat) : List Nat :=
  match s.runFoot c with
  | some f => f.tiles
  | none => []

/-- A logical tile holds a context's load in a slot. -/
def State.holdsLoad (s : State) (c slot l : Nat) : Bool :=
  (match s.planAt (l * 4 + slot) with
   | some p => decide (p.ctx = c)
   | none => false)
  && match s.siteOf l with
    | some n => s.slotState n slot != 0
    | none => false

/-- The state of a slot of a logical tile. -/
def State.tileSlot (s : State) (l slot : Nat) : Nat :=
  match s.siteOf l with
  | some n => s.slotState n slot
  | none => 0

/-- A site could switch now: it runs nothing, or its section is done, and no self-test slice is in progress (R220, R223, R411). -/
def State.siteFree (s : State) (n : Nat) : Bool :=
  !s.slicing n && match s.runningAt n with
    | some r => r.done
    | none => true

/-- A logical tile could switch now. -/
def State.tileFree (s : State) (l : Nat) : Bool :=
  match s.siteOf l with
  | some n => s.siteFree n
  | none => true

/-- A tile tells the coordinator that it is done (R262). -/
def sendDone (c : Nat) (w : SwitchState) (src : Nat) : Prog := sendFlag (flagPacket 0x05 c src w.coordinator w.next) .none

/-- Arms a slot whose footprint is not empty, and begins the section switch (R221, R262); `replay` marks the restart of
the running section (R395). -/
def armSlot (c slot : Nat) (foot : Footprint) (replay : Bool) : Prog := .look fun s =>
  let union := (List.range 3072).filter fun l => foot.tiles.contains l || (s.runningTiles c).contains l
  withP union.head? fun l0 => withP (s.siteOf l0) fun k =>
    let w : SwitchState := { next := slot, union := union, coordinator := k, foot := foot, replay := replay }
    all [
      eachP foot.tiles fun l => withP (s.siteOf l) fun n => setSlotState n slot 3,
      setReg (0x2700 + c) 0x32 slot,
      modCtx c fun x => { x with switch := some w, armFoot := if replay then x.armFoot else some foot },
      eachP (union.filter s.tileFree) fun l => withP (s.siteOf l) fun n => sendDone c w n,
      sendDone c w (queueEndpoint c)]

/-- A RUN_SECTION descriptor has started (R43, R261, R274). -/
def runSectionProg (c p : Nat) (d : ActiveDesc) : Prog := .look fun s =>
  let slot := bits (dWord d 1) 1 0
  match s.footOf c slot with
  | none => failDesc c p 0x8001
  | some f =>
    match f.tiles.find? fun l => s.holdsLoad c slot l && s.tileSlot l slot == 5 with
    | some l => all [
        report 0x3005 2 (queueDie c) c (pairArg (s.siteNo l) slot),
        endDescriptor c p 0x3005]
    | none =>
      if f.tiles.any fun l => !s.holdsLoad c slot l then failDesc c p 0x8001
      else match channelCycle (s.channels c) f.links with
      | some r => all [
          reportOnce 0x8008 c (queueEndpoint c) 2 (queueDie c) c r,
          endDescriptor c p 0x8008]
      | none =>
        if f.tiles.isEmpty && (s.runningTiles c).isEmpty then endDescriptor c p 0
        else all [modCtx c fun x => { x with armDesc := some p }, armSlot c slot f false]

/-- RUN_SECTION (R261). -/
def execRunSection (c : Ctx) (p : Nat) (s : State) : Host.Outcome State Fault Refusal :=
  finish (startDesc c p 0x02 (runSectionProg c p)) s

/-! ## Done tiles (R213, R220) -/

/-- Every unit of the U2 program that a context runs in a slot has executed its halt word (R189). -/
def State.u2AllHalted (s : State) (c slot : Nat) : Bool :=
  match s.footOf c slot with
  | none => true
  | some f => f.tiles.all fun l => match s.siteOf l, s.planAt (l * 4 + slot) with
    | some n, some x => (match s.runningAt n with
        | some r => decide (r.ctx = c ∧ r.slot = slot)
        | none => false)
      && (x.plan.kind == 0 || x.u2 == some [] || (s.ftile n).u2Halted)
    | _, _ => true

/-- Every engine record of a tile's section has completed; a tile of a U2 program waits for every unit's halt word (R189). -/
def State.recordsDone (s : State) (n l : Nat) (x : SlotPlan) : Bool :=
  let p := x.plan
  if x.u2.isSome then (match s.runningAt n with
    | some r => s.u2AllHalted r.ctx r.slot
    | none => false)
  else match p.kind with
    | 0 => let m := s.mtile n
           m.cur.isNone && m.drains.isEmpty && (p.recs.drop m.recIx).all mrNone
    | 1 => let t := s.stile (sIndex l)
           ((List.range 4).all fun g => (t.ags.getD g {}).cur.isNone
              && ((p.streams.getD g []).drop (t.ags.getD g {}).recIx).all fun ws => srUnits ws == 0)
            && (p.recs.drop t.memIx).all fun ws => (memRecOf ws).len == 0
    | _ => (p.recs.drop (s.ftile n).recIx).all fun ws => frLen ws == 0

/-- The transfers that lie on route `i` of a tile and at its destination in the tile. -/
def routeHeld (b : BondTile) (r : Route) (i : Nat) : Nat :=
  (b.queues.getD i []).length + b.spilled.getD i 0 + (match r.dstKind with
    | 4 => (b.engineIn.getD r.dstNum []).length
    | 5 => ((b.elems.getD r.dstNum {}).ins.getD r.dstIn []).length
    | 6 => (b.elems.getD r.dstNum {}).ctl.length
    | _ => 0)

/-- No place of a tile holds a transfer of its section, apart from those that R213 allows. -/
def bondEmpty (b : BondTile) (p : TilePlan) : Bool :=
  b.stages.all (fun x => x.isNone) && b.engineOut.all (fun x => x.isEmpty)
    && b.elems.all (fun e => e.emit.isEmpty && e.outs.all fun x => x.isNone)
    && (numbered p.routes).all fun e => decide (routeHeld b e.1 e.2 ≤ e.1.tokens)

/-- A tile's section can be done now (R220). -/
def State.canBeDone (s : State) (n : Nat) : Bool :=
  match s.active n, s.tileOf n with
  | some r, some l => match s.planAt (l * 4 + r.slot) with
    | some x => !r.done && s.recordsDone n l x && bondEmpty (s.bondOf n) x.plan && s.bypassEmpty n && (s.mtile n).dispute.isNone
        && !(s.mtile n).halted && !s.slicing n
    | none => false
  | _, _ => false

/-- The RUN_SECTION of a context's running section completes once its tiles are all done (R261). -/
def sectionComplete (c : Nat) : Prog := .look fun s =>
  whenP ((s.sectionSites c).all s.siteFree)
    (withP (s.ctx c).runDesc fun d => all [endDescriptor c d 0, modCtx c fun x => { x with runDesc := none }])

/-- A tile that could switch tells the coordinators that wait for it (R262), and the section that it runs may be complete. -/
def tellDone (n : Nat) : Prog := .look fun s => whenP (s.siteFree n) (withP (s.tileOf n) fun l => all [
  eachP (List.range 64) fun c => withP (s.ctx c).switch fun w =>
    whenP (s.ctxRuns c && w.union.contains l && !w.released) (sendDone c w n),
  withP (s.runningAt n) fun r => sectionComplete r.ctx])

/-- A tile becomes done with its section (R220, R262). -/
def tileDoneProg (n : Nat) : Prog := .look fun s =>
  whenP (s.canBeDone n) (withP (s.active n) fun r => .seq (.eff (.running n (some { r with done := true }))) (tellDone n))

/-- TILE_DONE (R220). -/
def execTileDone (site : Site) (s : State) : Host.Outcome State Fault Refusal := finish (tileDoneProg site) s

/-! ## The release (R223, R262) -/

/-- A SECTION_RELEASE packet from a site: unicast to a lead, or along a line with the source included. -/
def releasePacket (c src dst slot farEnd : Nat) (line axis : Bool) : Packet :=
  { flagPacket 0x06 c src dst slot with includeSource := line, axis := axis, farEnd := farEnd }

/-- The sites of a union of tiles. -/
def State.unionSites (s : State) (w : SwitchState) : List Nat := w.union.filterMap s.siteOf

/-- The last of a list of sites that satisfies a condition; the sites of a line rise toward its far end. -/
def lastSite (ns : List Nat) (ok : Nat → Bool) (none_ : Nat) : Nat := ((ns.filter ok).getLast?).getD none_

/-- A release along a line: a multicast with the source included. -/
def sendLine (c src slot farEnd : Nat) (axis : Bool) : Prog :=
  withState fun s => .issue (s.issue ++ [{ packet := releasePacket c src 0xFFF slot farEnd true axis }])

/-- The coordinator releases the union (R262). -/
def releaseUnion (c : Nat) (w : SwitchState) : Prog := .look fun s =>
  let k := w.coordinator
  let ns := s.unionSites w
  let rows := (ns.map siteRow).eraseDups
  all [
    modCtx c fun x => { x with switch := some { w with released := true } },
    if ns.all fun n => siteRow n == siteRow k then sendLine c k w.next (lastSite ns (fun _ => true) k) false
    else if ns.all fun n => sitePier n == sitePier k then sendLine c k w.next (lastSite ns (fun _ => true) k) true
    else eachP rows fun row => withP (ns.find? fun n => siteRow n == row) fun lead =>
      sendFlag (releasePacket c k lead w.next 0 false false) .none]

/-- A slot named for the next section is invalid: the RUN_SECTION fails and the context does not switch (R43, R223). -/
def failSwitch (c : Nat) (w : SwitchState) (l : Nat) : Prog := .look fun s => all [
  report 0x3005 2 (queueDie c) c (pairArg (s.siteNo l) w.next),
  eachP w.foot.tiles fun t => withP (s.siteOf t) fun n =>
    whenP (s.slotState n w.next == 3) (setSlotState n w.next 2),
  setReg (0x2700 + c) 0x32 0xFF,
  withP (s.ctx c).armDesc fun d => endDescriptor c d 0x3005,
  modCtx c fun x => { x with switch := none, armDesc := none }]

/-- The tiles of a switch's next footprint whose slot is invalid. -/
def State.invalidNext (s : State) (w : SwitchState) : Option Nat := w.foot.tiles.find? fun l => s.tileSlot l w.next != 3

/-- Every SECTION_DONE of a switch has reached its coordinator. -/
def State.allDone (s : State) (w : SwitchState) : Bool :=
  w.armedCame && w.union.all fun l => w.doneFrom.contains l && s.tileFree l

/-- A SECTION_DONE reaches the coordinator (R262). -/
def takeDone (p : Packet) : Prog := .look fun s =>
  withP (s.ctx p.ctx).switch fun w => whenP (s.ctxRuns p.ctx && w.coordinator == p.dst && !w.released) (
    let w' := if 0xD80 ≤ p.src then { w with armedCame := true }
      else match s.tileOf p.src with
        | some l => { w with doneFrom := if w.doneFrom.contains l then w.doneFrom else w.doneFrom ++ [l] }
        | none => w
    all [
      modCtx p.ctx fun x => { x with switch := some w' },
      whenP (s.allDone w') (match s.invalidNext w' with
        | some l => failSwitch p.ctx w' l
        | none => releaseUnion p.ctx w')])

/-- SECTION_DONE (R262). -/
def execSectionDone (p : Packet) (s : State) : Host.Outcome State Fault Refusal :=
  finish (applyPacket 0x05 p (takeDone p)) s

/-! ## The switch of one tile (R212, R222, R394) -/

/-- The initial tokens of a route: the earliest go to the steering input that the route's queue cannot hold
(DEDUCED, notes/assumptions/20.md). -/
def placeTokens (p : TilePlan) (b : BondTile) (e : Route × Nat) : BondTile :=
  let r := e.1
  let ts := (p.tokens.drop r.first).take r.tokens
  let late := ts.length - r.entries
  let b := { b with queues := b.queues.set e.2 (ts.drop late) }
  let x := b.elems.getD r.dstNum {}
  match r.dstKind with
  | 5 => { b with elems := b.elems.set r.dstNum { x with ins := x.ins.set r.dstIn (ts.take late) } }
  | 6 => { b with elems := b.elems.set r.dstNum { x with ctl := ts.take late } }
  | _ => b

/-- The Bond state of a tile as its section starts: four engine ports, or the sixteen of a U2 unit. A direction that has
stopped stays stopped (R192). -/
def freshBond (p : TilePlan) (u2 : Bool) (stopped : List Bool) : BondTile :=
  let ports := List.replicate (if u2 then 16 else 4) []
  (numbered p.routes).foldl (placeTokens p)
    { stopped := stopped, engineIn := ports, engineOut := ports, queues := List.replicate p.routes.length [], spilled := List.replicate p.routes.length 0 }

/-- The constant registers of an F-tile's plan go to registers 60 upward. -/
def loadConsts (n : Nat) (cs : List (List Nat)) : Prog :=
  eachP (numbered cs) fun e => eachP (numbered e.1) fun v =>
    .eff (.vreg (n * 16384 + (60 + e.2) * 256 + v.2) { val := BitVec.ofNat 32 v.1 })

/-- The operand store of the M-tile of a U2 compute unit takes the unit's constant tables (R185, R186).
(DESIGN CHOICE: notes/assumptions/22.md.) -/
def loadTables (l : Nat) (u2 : Option (List Nat)) : Prog :=
  withP u2 fun ws => whenP (tileType l == 0 && !ws.isEmpty) (storeWrite (mIndex l) 0 ((Config.u2Tables ws).take 524288) false)

/-- What a boundary snapshot holds of one tile (R394). -/
def State.snapTile (s : State) (c l : Nat) : Snapshot :=
  let rs := if tileType l = 1 then (s.tileRings (sIndex l)).filter fun e => rdCtx e.2.desc == c else []
  { cells := ((s.cells.filter fun e => decide (e.1 / 32 = l) && e.2.bound && decide (e.2.ctx = c)).map fun e => (e.1, e.2.value))
    rings := rs.map fun e => (e.1, e.2.head, e.2.tail, e.2.placed, e.2.credits)
    tags := rs.flatMap fun e => (List.range (rdSlots e.2.desc)).map fun i =>
      let k := sIndex l * 65536 + rdSlot e.2.desc + i
      (k, s.tagAt k) }

/-- A tile of the next footprint adds its part to the boundary snapshot of its context; the first of them that switches
begins a new one. -/
def takeSnapshot (c l : Nat) (w : SwitchState) : Prog := .look fun s =>
  whenP ((s.reg 0x2510 0x01).testBit c && !w.replay) (
    let old : Snapshot := if (w.switched.filter fun t => w.foot.tiles.contains t).isEmpty then ⟨[], [], []⟩ else (s.snapOf c).getD ⟨[], [], []⟩
    let x := s.snapTile c l
    .eff (.snaps c (some ⟨old.cells ++ x.cells, old.rings ++ x.rings, old.tags ++ x.tags⟩)))

/-- The engines of a site begin with nothing in progress: a halted tile stays halted (R106), and the rotation of the
accumulator banks begins again at bank 0 (DESIGN CHOICE, notes/assumptions/107.md). -/
def freshEngines (n l : Nat) : Prog := .look fun s => all [
  .eff (.mtiles n { checkerOn := s.reg 0x2C10 0x01 != 0, halted := (s.mtile n).halted }),
  .eff (.ftiles n {}),
  whenP (tileType l == 1) (modS (sIndex l) SCore.stopped)]

/-- The once-per-section reports of a context at some units may be made again (R83): those of a tile when it switches, the rest
when the switch ends. -/
def freshReports (c : Nat) (mine : Nat → Bool) : Prog :=
  withState fun s => .onceUsed (s.onceUsed.filter fun e => !(decide (e.2.1 = c) && mine e.2.2))

/-- A RUN_SECTION that was armed when a replay began arms its slot again (R395). -/
def rearm (c : Nat) : Prog := .look fun s =>
  whenP (s.ctx c).armDesc.isSome (withP (s.ctx c).armFoot fun f => armSlot c f.slot f false)

/-- The last tile of the union has switched: the section is the running one. -/
def switchEnd (c : Nat) (w : SwitchState) : Prog := .look fun s => all [
  count64 (0x2700 + c) 0x33 1,
  setReg (0x2700 + c) 0x31 w.next,
  setReg (0x2700 + c) 0x32 0xFF,
  setReg (0x2700 + c) 0x30 w.foot.section_,
  freshReports c fun u => decide (3264 ≤ u) || !(s.unionSites w).contains u,
  modCtx c fun x => { x with switch := none, runFoot := some w.foot },
  if w.replay then rearm c
  else all [modCtx c fun x => { x with runDesc := x.armDesc, armDesc := none, replaysDone := 0 }, sectionComplete c]]

/-- A tile of the union switches (R222). -/
def switchTile (c n l : Nat) (w : SwitchState) : Prog := .look fun s =>
  all [
    withP (s.runningAt n) fun r => whenP (s.slotState n r.slot == 4) (setSlotState n r.slot 2),
    freshEngines n l,
    freshReports c fun u => u == n,
    match w.foot.tiles.contains l, s.planAt (l * 4 + w.next) with
    | true, some x => all [
        takeSnapshot c l w,
        whenP x.poison (poisonDeath c 0 n n),
        setSlotState n w.next 4,
        .eff (.running n (some { ctx := c, slot := w.next })),
        setReg (0x3000 + n) 0x71 c,
        .eff (.bond n (freshBond x.plan x.u2.isSome (s.bondOf n).stopped)),
        whenP (tileType l == 1) (setReg (0x3000 + n) 0x50 x.plan.own),
        loadConsts n x.plan.consts,
        loadTables l x.u2]
    | _, _ => all [.eff (.running n none), setReg (0x3000 + n) 0x71 0xFF, .eff (.bond n { stopped := (s.bondOf n).stopped })],
    let w' := { w with switched := w.switched ++ [l] }
    if w'.union.all fun u => w'.switched.contains u then switchEnd c w'
    else modCtx c fun x => { x with switch := some w' }]

/-- The released switch of a packet's context, when the site of the packet waits for it. -/
def State.awaits (s : State) (p : Packet) : Option (Nat × SwitchState) :=
  match (s.ctx p.ctx).switch, s.tileOf p.dst with
  | some w, some l =>
    if s.ctxRuns p.ctx && w.released && w.union.contains l && !w.switched.contains l then some (l, w) else none
  | _, _ => none

/-- The other sites of a union on the course of a packet's site, to which a lead relays the release. -/
def State.mates (s : State) (p : Packet) (w : SwitchState) : List Nat :=
  (s.unionSites w).filter fun n => siteRow n == siteRow p.dst && n != p.dst

/-- A release reaches a site: a lead relays it along its course, or the tile switches. A tile that does not wait for it
discards it (R262). -/
def takeRelease (p : Packet) (waitBeats : Nat) : Prog := .look fun s =>
  withP (s.awaits p) fun (l, w) =>
    let mates := s.mates p w
    if p.includeSource || mates.isEmpty then .seq
      (whenP (s.runningAt p.dst).isSome (.seq (siteCount64 p.dst 0x7A waitBeats)
        (whenP (decide (0 < waitBeats)) (count64 (0x2700 + p.ctx) 0x34 waitBeats))))
      (switchTile p.ctx p.dst l w)
    else sendLine p.ctx p.dst w.next (lastSite mates (fun _ => true) p.dst) false

/-- SECTION_RELEASE (R262). A tile's switch waits while another context's section runs on it (R223), or a self-test slice (R411).
(DEDUCED: notes/assumptions/21.md.) -/
def execSectionRelease (p : Packet) (waitBeats : Nat) (s : State) : Host.Outcome State Fault Refusal :=
  finish (.look fun t =>
    let ready := match t.awaits p with
      | some x => t.tileFree x.1 || (!p.includeSource && !(t.mates p x.2).isEmpty)
      | none => true
    whenP ready (applyPacket 0x06 p (takeRelease p waitBeats))) s

end Sys2Proof.Machine
end

