-- ==== Sys2Proof/Machine/EngineAccess.lean ====
section
/-! DEFINITION. How an engine of a quoin die reads and writes device addresses for a context: word by word, each at the
place it lies (R27, R148, R149, R250, R292, R293, R328, R406, Table 12-6). -/

namespace Sys2Proof.Machine

open Sys2Proof

/-- Where one 64-bit word of a range lies. -/
inductive WordAt where
  | hbm (a : Nat)
  | scratch (t w : Nat)
  | store (m off : Nat)
  | window (n off : Nat)
  | host (off : Nat)
  /-- a word of a range that an S-tile does not decode: a mirror alias that names no ring, or a range that its ring does not
  take (R149) -/
  | miss (t off : Nat)
  deriving DecidableEq, Repr

/-- Why an access fails: an address error, the dump area, a save area of an island, a locked store line, a range
that its S-tile does not decode, or a request that a node returns with a reason of Table 09-7. -/
inductive AccErr where
  | address
  | dump
  | saved (island : Nat)
  | locked (site line : Nat)
  | undecoded (t off : Nat)
  | lost (reason node dst : Nat)
  deriving DecidableEq, Repr

/-- The place of the word at an address; none for an address error. -/
def State.wordPlace (s : State) (a : Nat) : Option WordAt :=
  if a % 8 ≠ 0 then none
  else match placeOf a with
  | .hbm x => some (.hbm x)
  | .scratch t off al => match s.decode t al off 8 with
    | some (w :: _) => some (.scratch t w)
    | _ => some (.miss t off)
  | .store m off => some (.store m off)
  | .pairWindow n off => some (.window n off)
  | .host off => some (.host off)
  | .hole => none

/-- The words of a range of `n` bytes. A range that begins in a mirror alias folds at the end of its ring (R149). -/
def State.wordsOf (s : State) (a n : Nat) : List (Option WordAt) :=
  let k := ceilDiv n 8
  match placeOf a with
  | .scratch t off true => match s.decode t true off (8 * k) with
    | some ws => ws.map fun w => some (.scratch t w)
    | none => List.replicate k (some (.miss t off))
  | _ => (List.range k).map fun i => s.wordPlace (a + 8 * i)

/-- An access of a context to a word fails; `write` says which way it goes. A request outside the partition is returned by
the source's own router, any other by the endpoint that it reaches (R245). -/
def State.wordFault (s : State) (c : Nat) (write : Bool) (w : Option WordAt) : Option AccErr :=
  let tile := fun (l : Nat) (ok : Nat → Option AccErr) => match s.siteOf l with
    | none => some .address
    | some n => if (s.partMask c).testBit (tileRegion l) then ok n
      else some (.lost 6 (endpointSite (queueEndpoint c)) n)
  match w with
  | none => some .address
  | some (.hbm a) =>
    if inDumpArea a then some .dump
    else if !s.hbmServes a 8 || (s.xtile (s.serverX a)).orphan then some (.lost 3 (0xD00 + s.serverX a) (0xD00 + s.serverX a)) else none
  | some (.scratch t w) => tile (sTileLogical t) fun _ => (s.savedWord t w).map .saved
  | some (.miss t off) => tile (sTileLogical t) fun _ => some (.undecoded t off)
  | some (.store m off) => tile (mTileLogical m) fun n =>
      (if write then s.writeLocked n off 8 else none).map (.locked n)
  | some (.window n off) =>
    let e := 0xD80 + n / 256
    if !s.dieUp (n / 256) then some (.lost 4 e e)
    else if decide ((s.pair n).owner = c) && windowListed write off 8 then none else some (.lost 3 e e)
  | some (.host off) =>
    let e := s.hostCorner
    if !s.dieUp (e - 0xD80) then some (.lost 4 e e)
    else if decide (off + 8 ≤ 0x80000000) && s.hostUp then none else some (.lost 3 e e)

/-- The place of a word takes no access now, and the access waits: a tile whose engines take nothing (R402, R105), or a place behind
a lintel that lets nothing through (R314). -/
def State.wordWaits (s : State) (w : Option WordAt) : Bool :=
  let tile := fun (l : Nat) => match s.siteOf l with
    | some n => s.siteHolds n
    | none => false
  let die := fun (q : Nat) => s.dieUp q && !s.lintelOpen (128 + q)
  match w with
  | some (.hbm a) => !s.lintelOpen (s.serverX a)
  | some (.scratch t _) => tile (sTileLogical t)
  | some (.miss t _) => tile (sTileLogical t)
  | some (.store m _) => tile (mTileLogical m)
  | some (.window n _) => die (n / 256)
  | some (.host _) => die (s.hostCorner - 0xD80)
  | none => false

/-- Some range of a list waits. -/
def State.rangesWait (s : State) (rs : List (Nat × Nat)) : Bool :=
  rs.any fun r => r.2 != 0 && (s.wordsOf (r.1 / 8 * 8) (r.1 % 8 + r.2)).any s.wordWaits

/-- What a failed access of an engine of context `c` on die `q`, at endpoint `ep`, reports and counts; then `failed` for an
access that the engine itself fails, or `died` for one that came back returned, whose context dies (R246, R383).
(DEDUCED: notes/assumptions/44.md.) -/
def accessFailed (c q ep : Nat) (e : AccErr) (failed died : Prog) : Prog := .look fun s =>
  match e with
  | .address => failed
  | .dump => all [failed, dumpRefused 2 q c ep]
  | .saved i => all [failed, reportOnce 0x9005 c ep 2 q i c]
  | .locked n line => all [rejectStoreWrite n line false, requestReturned c 2 n n, poisonDeath c 2 q ep, died]
  | .undecoded t off => all [
      addressErrorAt t c off,
      requestReturned c 3 (s.sSiteNo t) (s.sSiteNo t), poisonDeath c 2 q ep, died]
  | .lost r n d => all [requestReturned c r n d, poisonDeath c 2 q ep, died]

/-- The first fault of a list of words. -/
def State.firstFault (s : State) (c : Nat) (write : Bool) (ws : List (Option WordAt)) : Option AccErr :=
  ws.findSome? (s.wordFault c write)

/-- A word that a read of the host window has brought for an origin. -/
def State.hostWord (s : State) (o : Origin) (off : Nat) : List Byte :=
  match s.hostData.find? fun d => decide (d.origin = o ∧ d.addr ≤ 0x060080000000 + off
      ∧ 0x060080000000 + off < d.addr + d.bytes.length) with
  | some d => (d.bytes.drop (0x060080000000 + off - d.addr)).take 8
  | none => []

/-- What the codes found at a site. -/
def eccAt (es : SiteEcc) (n : Nat) : Ecc := ((es.find? fun e => decide (e.1.val = n)).map fun e => e.2).getD {}

/-- The bytes of a word and its poison mark. -/
def State.readWord (s : State) (es : SiteEcc) (o : Origin) (w : Option WordAt) : List Byte × Bool :=
  match w with
  | some (.hbm a) => (s.bytesAt a 8, s.rangeBad a 8)
  | some (.scratch t w) => (s.wordBytes t [w], s.slotsPoisoned t [w])
  | some (.store m off) =>
    (s.bytesAt (storeAddr m off) 8, (s.storeRead m (eccAt es ((s.siteOf (mTileLogical m)).getD 0xFFF)).bad off 8).2)
  | some (.window n off) => s.windowRead n off 8
  | some (.host off) => (padTo 8 (s.hostWord o off), false)
  | some (.miss _ _) => (List.replicate 8 0, false)
  | none => (List.replicate 8 0, false)

/-- What a range reads as: its words' bytes and marks. -/
def State.readWords (s : State) (es : SiteEcc) (o : Origin) (ws : List (Option WordAt)) : List (List Byte × Bool) :=
  ws.map (s.readWord es o)

/-- The part of a range that one WRITE packet's line takes: its words, bytes and mark. -/
structure Piece where
  words : List (Option WordAt)
  bytes : List Byte
  poison : Bool
  deriving DecidableEq, Repr

/-- A write of words with their marks from an address on, cut at 64-byte lines. A mark covers its line's part
(DEDUCED, notes/assumptions/23.md). -/
def State.pieces (s : State) (a : Nat) (vs : List (List Byte × Bool)) : List Piece :=
  let ws := s.wordsOf a (8 * vs.length)
  (linesOf a (8 * vs.length)).map fun l =>
    let lo := max a (64 * l)
    let i := (lo - a) / 8
    let k := (min (a + 8 * vs.length) (64 * l + 64) - lo) / 8
    let part := (vs.drop i).take k
    ⟨(ws.drop i).take k, part.flatMap fun v => v.1, part.any fun v => v.2⟩

/-- The scratchpad words of a piece. -/
def Piece.scratchWords (x : Piece) : List Nat :=
  x.words.filterMap fun w => match w with
    | some (.scratch _ k) => some k
    | _ => none

/-- The tag action of a COPY or FILL on the slots that a piece covers whole; a slot that a poisoned word reaches stays
poisoned, which event 0x4007 reports (R169, R263). -/
def pieceTags (c t n act : Nat) (x : Piece) : Prog :=
  let ws := x.scratchWords
  if x.poison then reportOnce 0x4007 c n 0 n c n
  else eachP ((slotsOf ws).filter fun k => coversSlot ws k) fun k =>
    match act with
    | 1 => all [setTag t k 0, slotEmptied t k {}]
    | 2 => setTag t k 1
    | _ => .skip

/-- Writes a piece at its place; `act` is the tag action of a COPY or FILL, none for another write. -/
def putPiece (es : SiteEcc) (c : Nat) (act : Option Nat) (x : Piece) : Prog := .look fun s =>
  match x.words.head? with
  | some (some (.hbm a)) => hbmPut a x.bytes x.poison
  | some (some (.scratch t _)) =>
    let n := s.sSiteNo t
    all [portAccess t n x.scratchWords (eccAt es n), plainWriteWords t x.scratchWords x.bytes x.poison,
      withP act fun a => pieceTags c t n a x]
  | some (some (.store m off)) => withP (s.siteOf (mTileLogical m)) fun n =>
      .seq (whenP (eccAt es n).conflict (count32 (0x3000 + n) 0x3A 1)) (storeWrite m off x.bytes x.poison)
  | some (some (.window n off)) => windowWrite n off x.bytes x.poison
  | some (some (.host off)) => hostWrite off x.bytes x.poison
  | _ => .skip

/-- The codes' findings at site `n` that are left once an access has reached some slots there: its waits, its conflict, and the tag
groups and words of those slots have been met. -/
def eccSpent (es : SiteEcc) (n : Nat) (slots : List Nat) : SiteEcc := es.map fun e =>
  if e.1.val = n then (e.1, { e.2 with
    waitBeats := 0, conflict := false
    tagBad := e.2.tagBad.filter fun g => !slots.any fun k => decide (k / 32 = g)
    fixed := e.2.fixed.filter fun w => !slots.contains (w / 8), bad := e.2.bad.filter fun w => !slots.contains (w / 8) })
  else e

/-- The site and the slots there that a piece is written to; an operand store has no slots. -/
def State.pieceAt (s : State) (x : Piece) : Option (Nat × List Nat) :=
  match x.words.head? with
  | some (some (.scratch t _)) => some (s.sSiteNo t, slotsOf x.scratchWords)
  | some (some (.store m _)) => (s.siteOf (mTileLogical m)).map fun n => (n, [])
  | _ => none

/-- Writes pieces in order up to the first that fails; the pieces before it stand (R259).
(DEDUCED: notes/assumptions/44.md.) -/
def putPieces (es : SiteEcc) (c : Nat) (act : Option Nat) (fail : AccErr → Prog) (done : Prog) (xs : List Piece) : Prog :=
  match xs with
  | [] => done
  | x :: xs => .look fun s =>
    match s.firstFault c true x.words with
    | some e => fail e
    | none =>
      let left := match s.pieceAt x with
        | some y => eccSpent es y.1 y.2
        | none => es
      .seq (putPiece es c act x) (putPieces left c act fail done xs)

/-- What a read of a range leaves at the tiles that it reaches: the beats, waits and errors of each scratchpad and the errors of
each operand store (R95, R152, R153, R163, R164). -/
def readEffects (es : SiteEcc) (ws : List (Option WordAt)) : Prog := .look fun s =>
  let ts := (ws.filterMap fun w => match w with
    | some (.scratch t _) => some t
    | _ => none).eraseDups
  let ms := (ws.filterMap fun w => match w with
    | some (.store m _) => some m
    | _ => none).eraseDups
  .seq
    (eachP ts fun t =>
      let n := s.sSiteNo t
      let ks := ws.filterMap fun w => match w with
        | some (.scratch u k) => if u = t then some k else none
        | _ => none
      .seq (portAccess t n ks (eccAt es n)) (readErrors t n ks (eccAt es n)))
    (eachP ms fun m => withP (s.siteOf (mTileLogical m)) fun n =>
      let mine := fun (k : Nat) => ws.any fun w => match w with
        | some (.store u off) => decide (u = m ∧ off / 8 = k)
        | _ => false
      storeErrors n { eccAt es n with fixed := (eccAt es n).fixed.filter mine, bad := (eccAt es n).bad.filter mine })

/-- The codes' findings that are left once a range has been read. -/
def State.readSpent (s : State) (es : SiteEcc) (ws : List (Option WordAt)) : SiteEcc :=
  ws.foldl (fun es w => match w with
    | some (.scratch t k) => eccSpent es (s.sSiteNo t) [k / 8]
    | _ => es) es

/-! ## Reads of the host window (R328) -/

/-- An engine's reads of a range of the host window, 1 KiB at most each. -/
def hostReads (off n : Nat) (o : Origin) : Prog :=
  eachP (List.range (ceilDiv n 1024)) fun i => hostRead (off + 1024 * i) (min 1024 (n - 1024 * i)) o none

/-- Reads of an origin are still in flight. -/
def State.hostBusy (s : State) (o : Origin) : Bool := s.hostWindow.any fun a => decide (a.origin = o)

/-- Reads of an origin have come back. -/
def State.hostCame (s : State) (o : Origin) : Bool := s.hostData.any fun d => decide (d.origin = o)

/-- Every read of an origin that came back was good. -/
def State.hostGood (s : State) (o : Origin) : Bool := s.hostData.all fun d => decide (d.origin ≠ o) || d.ok

/-- Drops what reads of an origin brought. -/
def dropHostData (o : Origin) : Prog := withState fun s => .hostData (s.hostData.filter fun d => decide (d.origin ≠ o))

end Sys2Proof.Machine
end

