-- ==== Sys2Proof/Machine/Descriptors.lean ====
section
/-! DEFINITION. The descriptors that move and convert data: COPY, FILL, POST_RING, QUANTISE and COMPRESS (R263, R264,
R270). -/

namespace Sys2Proof.Machine

open Sys2Proof

/-! ## Failures -/

/-- An access of descriptor `p` fails (R27, R246, R259, R292, R406). -/
def accFailed (c p : Nat) (e : AccErr) : Prog :=
  accessFailed c (queueDie c) (queueEndpoint c) e (failDesc c p 0x8004) .skip

/-- Reads of the host window that came back bad, or that a detached die lost (R312, R328). -/
def hostReadLost (s : State) : AccErr := .lost (if s.dieUp (s.hostCorner - 0xD80) then 3 else 4) s.hostCorner s.hostCorner

/-- The origin of a descriptor's accesses. -/
def dOrigin (c p : Nat) : Origin := .descriptor c p

/-- Runs a descriptor whose sources may lie in the host window: the reads there go out first, and a later occurrence of the
command goes on when they have come back. `src` gives the ranges that the descriptor reads. -/
def stagedDesc (c p op : Nat) (src : ActiveDesc → List (Nat × Nat)) (body : ActiveDesc → Prog) : Prog :=
  let o := dOrigin c p
  all [
    .look fun s => whenP (s.hostCame o && !s.hostBusy o) (
      withP ((s.ctx c).active.find? fun d => decide (d.num = p ∧ dOp d = op) && d.started && d.status.isNone) fun d =>
        whenP (s.ctxRuns c && s.engineUp c) (all [
          if s.hostGood o then body d else accFailed c p (hostReadLost s),
          dropHostData o])),
    startDesc c p op fun d => .look fun s =>
      let rs := (src d).filterMap fun r => match placeOf r.1 with
        | .host off => if r.2 = 0 then none else some (off, r)
        | _ => none
      if rs.isEmpty then body d
      else match s.firstFault c false (rs.flatMap fun r => s.wordsOf r.2.1 r.2.2) with
        | some e => accFailed c p e
        | none => eachP rs fun r => hostReads r.1 r.2.2 o]

/-- Reads a source range, or fails with its first bad word; `f` goes on with what the codes found elsewhere and the words. -/
def withSource (es : SiteEcc) (c p a n : Nat) (f : SiteEcc → List (List Byte × Bool) → Prog) : Prog := .look fun s =>
  let ws := s.wordsOf a n
  match s.firstFault c false ws with
  | some e => accFailed c p e
  | none => .seq (readEffects es ws) (.look fun u => f (s.readSpent es ws) (u.readWords es (dOrigin c p) ws))

/-! ## COPY and FILL (R263) -/

/-- The S-tile and word address of a range that lies in the direct window of one S-tile (R148). -/
def directWords (a n : Nat) : Option (Nat × Nat) :=
  match placeOf a with
  | .scratch t off false => if off + n ≤ 0x400000 then some (t, off / 8) else none
  | _ => none

/-- A record that the queue engine rejects ends its descriptor (R170). -/
def recordRejected (c p unit : Nat) : Prog := all [
  reportOnce 0x4005 c (queueEndpoint c) 2 (queueDie c) c unit, endDescriptor c p 0x4005]

/-- A COPY or FILL that lies in one S-tile runs there as a memory-operation record (R167 to R171). -/
def tileMemop (es : SiteEcc) (c p t : Nat) (m : MemRec) : Prog := .look fun s =>
  let ws := (List.range m.len).map fun i => some (WordAt.scratch t (m.dst + i))
  let rs := if m.op = 2 then (List.range m.len).map fun i => some (WordAt.scratch t (m.src + i)) else []
  if m.bad then recordRejected c p (s.sSiteNo t)
  else match s.firstFault c true (rs ++ ws) with
  | some e => accFailed c p e
  | none => all [
      siteCount64 (s.sSiteNo t) 0x58 (eccAt es (s.sSiteNo t)).waitBeats, memOperation t (s.sSiteNo t) c m (eccAt es (s.sSiteNo t)), endDescriptor c p 0]

/-- A COPY that its checks have passed. -/
def copyBody (es : SiteEcc) (c p : Nat) (d : ActiveDesc) : Prog :=
  let src := bits (dWord d 1) 47 0
  let dst := bits (dWord d 2) 47 0
  let n := bits (dWord d 3) 39 0
  let act := bits (dWord d 4) 1 0
  let same := match directWords src n, directWords dst n with
    | some x, some y => if x.1 = y.1 then some (x.1, x.2, y.2) else none
    | _, _ => none
  if n % 8 ≠ 0 then failDesc c p 0x8001
  else if n = 0 then endDescriptor c p 0
  else if src % 8 ≠ 0 ∨ dst % 8 ≠ 0 ∨ (act = 3 ∧ same = none) then failDesc c p 0x8001
  else match same with
  | some x => tileMemop es c p x.1 ⟨2, act, x.2.2, x.2.1, n / 8, 0⟩
  | none => withSource es c p src n fun es vs => .look fun s =>
      putPieces es c (some act) (accFailed c p) (endDescriptor c p 0) (s.pieces dst vs)

/-- The source of a COPY that moves data. -/
def copySource (d : ActiveDesc) : List (Nat × Nat) :=
  let src := bits (dWord d 1) 47 0
  let n := bits (dWord d 3) 39 0
  if n % 8 ≠ 0 ∨ n = 0 ∨ src % 8 ≠ 0 ∨ bits (dWord d 2) 2 0 ≠ 0 ∨ bits (dWord d 4) 1 0 = 3 then [] else [(src, n)]

/-- The ranges of a COPY or FILL, for its accesses that wait. -/
def moveRanges (d : ActiveDesc) : List (Nat × Nat) :=
  let n := bits (dWord d 3) 39 0
  if n % 8 ≠ 0 then [] else (if dOp d = 3 then [(bits (dWord d 1) 47 0, n)] else []) ++ [(bits (dWord d 2) 47 0, n)]

/-- COPY (R263). -/
def execCopy (c : Ctx) (p : Nat) (ecc : SiteEcc) (s : State) : Host.Outcome State Fault Refusal :=
  finish (unlessWaits c p 0x03 (fun d s => s.rangesWait (moveRanges d)) (stagedDesc c p 0x03 copySource (copyBody ecc c p))) s

/-- A FILL descriptor has started. Tag action 0b11 asks for one S-tile's direct window (Table 10-3), where the record that it runs as
does not have it (R15, R170). -/
def fillBody (es : SiteEcc) (c p : Nat) (d : ActiveDesc) : Prog :=
  let dst := bits (dWord d 2) 47 0
  let n := bits (dWord d 3) 39 0
  let act := bits (dWord d 4) 1 0
  if n % 8 ≠ 0 then failDesc c p 0x8001
  else if act = 3 then .look fun s => match directWords dst n with
    | some x => recordRejected c p (s.sSiteNo x.1)
    | none => if n = 0 then recordRejected c p (queueEndpoint c) else failDesc c p 0x8001
  else if n = 0 then endDescriptor c p 0
  else if dst % 8 ≠ 0 then failDesc c p 0x8001
  else match directWords dst n with
  | some x => tileMemop es c p x.1 ⟨1, act, x.2, 0, n / 8, dWord d 5⟩
  | none => .look fun s =>
      putPieces es c (some act) (accFailed c p) (endDescriptor c p 0)
        (s.pieces dst (List.replicate (n / 8) (toBytes 8 (dWord d 5), false)))

/-- FILL (R263). -/
def execFill (c : Ctx) (p : Nat) (ecc : SiteEcc) (s : State) : Host.Outcome State Fault Refusal :=
  finish (unlessWaits c p 0x04 (fun d s => s.rangesWait (moveRanges d)) (startDesc c p 0x04 (fillBody ecc c p))) s

/-! ## POST_RING (R265, R270) -/

/-- The range of words that holds a message's payload; one that begins inside a word is read from that word on.
(DESIGN CHOICE: notes/assumptions/46.md.) -/
def postSource (d : ActiveDesc) : List (Nat × Nat) :=
  let a := bits (dWord d 2) 47 0
  let l := bits (dWord d 3) 10 0
  if l = 0 ∨ 1024 < l ∨ 12287 < bits (dWord d 1) 13 0 then []
  else [(a / 8 * 8, ceilDiv (a % 8 + l) 8 * 8)]

/-- A POST_RING descriptor sends its RING_POST, which FENCE_ORDER follows to its end (R265). -/
def postBody (es : SiteEcc) (c p : Nat) (d : ActiveDesc) : Prog := .look fun s =>
  let r := bits (dWord d 1) 13 0
  let a := bits (dWord d 2) 47 0
  let l := bits (dWord d 3) 10 0
  let x := (s.ring r).desc
  let tooLong := all [reportOnce 0x8007 c (queueEndpoint c) 2 (queueDie c) c r, endDescriptor c p 0x8007]
  if 12287 < r then failDesc c p 0x8001
  else if 1024 < l then tooLong
  else if l = 0 then endDescriptor c p 0
  else if rdEnabled x && decide (rdSize x < l + 72) then tooLong
  else match s.sSite (ringTile r), postSource d with
  | some dst, rng :: _ => withSource es c p rng.1 rng.2 fun _ vs =>
      let pkt : Packet := { dst := dst, src := queueEndpoint c, ctx := c, cls := 2, typ := 0x24, len := l
                            poison := vs.any fun v => v.2, followed := true
                            operand := r + place (bits (dWord d 1) 23 16) 16
                            payload := ((vs.flatMap fun v => v.1).drop (a % 8)).take l }
      all [
        modCtx c fun y => { y with ringPosts := y.ringPosts ++ [r] },
        withState fun t => .issue (t.issue ++ [{ packet := pkt, origin := dOrigin c p }])]
  | _, _ => failDesc c p 0x8004

/-- POST_RING (R270). -/
def execPostRing (c : Ctx) (p : Nat) (ecc : SiteEcc) (s : State) : Host.Outcome State Fault Refusal :=
  finish (unlessWaits c p 0x08 (fun d s => s.rangesWait (postSource d)) (stagedDesc c p 0x08 postSource (postBody ecc c p))) s

/-! ## QUANTISE and COMPRESS (R264) -/

/-- The operands of a conversion (Table 10-3). -/
structure Conversion where
  src : Nat
  elems : Nat
  words : Nat
  vb : Nat
  index : Nat
  fw : Nat
  sf : Nat
  seed : Nat
  tensor : Nat
  count : Nat
  deriving DecidableEq, Repr

/-- The conversion that a descriptor asks for. A QUANTISE is a dense conversion of one vector. -/
def conversionOf (d : ActiveDesc) : Conversion :=
  let n := bits (dWord d 7) 39 0
  let q := dOp d == 9
  { src := bits (dWord d 1) 47 0, elems := bits (dWord d 2) 47 0, words := bits (dWord d 3) 47 0
    vb := if q then ceilDiv n 32 else bits (dWord d 3) 63 48
    index := bits (dWord d 4) 47 0, fw := bits (dWord d 5) 63 32, sf := if q then 0 else bits (dWord d 5) 31 0
    seed := dWord d 6, tensor := bits (dWord d 7) 63 40, count := n }

/-- A conversion's format words are rejected: the event code and its argument (R66, R136). -/
def Conversion.failed (x : Conversion) (ep : Nat) : Option (Nat × Nat) :=
  if fwBad x.fw x.count then some (0x7005, x.fw)
  else if sfBad x.sf x.fw then some (0x7807, ep)
  else none

/-- The output has block words or scale bytes. -/
def Conversion.hasWords (x : Conversion) : Bool := decide (fwBase x.fw < 5)

/-- An array address of a conversion is not 8-byte aligned; a QUANTISE has no index address, which is zero there. -/
def Conversion.misaligned (x : Conversion) : Bool :=
  decide (x.src % 8 ≠ 0 ∨ x.elems % 8 ≠ 0) || (x.hasWords && decide (x.words % 8 ≠ 0))
    || decide (x.index % 8 ≠ 0)

/-- The number of vectors of a conversion. -/
def Conversion.vectors (x : Conversion) : Nat := ceilDiv (ceilDiv x.count 32) x.vb

/-- The bytes of an existing index or map array. -/
def Conversion.maskBytes (x : Conversion) : Nat :=
  if !sfMask x.sf || sfForm x.sf == 0 then 0
  else if sfForm x.sf = 2 then 32 * (ceilDiv x.vectors 16 * ceilDiv x.vb 16) else 4 * (x.vectors * x.vb)

/-- The byte of an existing mask array at which the mask of block `b` of vector `v` begins. -/
def Conversion.maskAt (x : Conversion) (v b : Nat) : Nat :=
  if sfForm x.sf = 2 then 32 * (v / 16 * ceilDiv x.vb 16 + b / 16) else 4 * (v * x.vb + b)

/-- The word of an existing mask array that holds the mask of block `b` of vector `v`. -/
def Conversion.maskWord (x : Conversion) (v b : Nat) : Nat :=
  (x.maskAt v b + (if sfForm x.sf = 2 then (v % 16 * 16 + b % 16) / 8 else 0)) / 8

/-- The compressor's input of a conversion: the source words and the words of the existing mask array, with their marks. -/
def Conversion.input (x : Conversion) (limit : Nat) (vs ms : List (List Byte × Bool)) : CInput :=
  let at_ := fun (v p : Nat) => v * (32 * x.vb) + p
  let bs := ms.flatMap fun m => m.1
  { fw := x.fw, sf := x.sf, limit := limit, vectors := x.vectors, len := 32 * x.vb, vb := x.vb
    value := fun v p => if at_ v p < x.count then
        BitVec.ofNat 32 (ofBytes (((vs.getD (at_ v p / 2) ([], false)).1.drop (4 * (at_ v p % 2))).take 4))
      else 0
    poisoned := fun v p => decide (at_ v p < x.count) && (vs.getD (at_ v p / 2) ([], false)).2
    mask := fun v b =>
      if sfForm x.sf = 2 then
        (if (ofBytes (cut bs (x.maskAt v b) 32)).testBit (v % 16 * 16 + b % 16) then 1 else 0)
      else ofBytes (cut bs (x.maskAt v b) 4)
    maskBad := fun v b => (ms.getD (x.maskWord v b) ([], false)).2
    rand := fun i => randomValue x.seed x.tensor i }

/-- An output array of items of `z` bytes with their marks, as whole words; the bytes past its end are zero. -/
def arrayWords (z : Nat) (xs : List (Nat × Bool)) (bytes : Nat) : List (List Byte × Bool) :=
  let bs := (xs.flatMap fun x => toBytes z x.1).take bytes
  (List.range (ceilDiv bytes 8)).map fun i =>
    (padTo 8 (cut bs (8 * i) 8), ((xs.drop (8 * i / z)).take ((8 * i + 7) / z + 1 - 8 * i / z)).any fun x => x.2)

/-- The blocks of an output in memory: all those of the element count, of a transpose all. -/
def Conversion.kept (x : Conversion) (bs : List CBlock) : List CBlock :=
  if sfTranspose x.sf then bs else bs.take (ceilDiv x.count 32)

/-- What a conversion makes of its input: the elements of a BF16 or FP32 output up to the element count, or the blocks. -/
structure Converted where
  elems : List (Conv × Bool)
  blocks : List CBlock
  deriving DecidableEq, Repr

/-- The output of a conversion. -/
def Conversion.output (x : Conversion) (i : CInput) : Converted :=
  if x.hasWords then ⟨[], i.blocks⟩ else ⟨i.elements.take x.count, []⟩

/-- The writes of a conversion: elements, block words or scale bytes, index or map array (R62, R89, R112 to R114).
(DEDUCED: notes/assumptions/45.md.) -/
def Conversion.writes (x : Conversion) (s : State) (out : Converted) : List Piece :=
  let bs := out.blocks
  let form := sfForm x.sf
  let ks := (x.kept bs).map fun b => b.raw
  let z := storedBytes x.fw form
  let mark := fun (f : RawBlock → Nat) => ks.map fun b => (if b.absent then 0 else f b, b.poison)
  (if x.hasWords then s.pieces x.elems (arrayWords z (mark fun b => b.payload) (z * ks.length))
    else let w := rawWidth x.fw
         s.pieces x.elems (arrayWords w (out.elems.map fun e => (e.1.code, e.2)) (w * x.count)))
    ++ (if !x.hasWords then []
        else if fwFramed x.fw then s.pieces x.words (arrayWords 8 (mark fun b => b.word) (8 * ks.length))
        else s.pieces x.words (arrayWords 1 (mark fun b => bits b.word 47 40) ks.length))
    ++ (if sfMask x.sf || form == 0 then []
        else if form = 2 then
          let ts := mapTiles x.vectors x.vb bs
          s.pieces x.index (arrayWords 32 (ts.map fun t => (t, false)) (32 * ts.length))
        else s.pieces x.index (arrayWords 4 (mark fun b => b.index) (4 * ks.length)))

/-- What the conversion engine of a context counts and reports (R83): it has no range monitor (R82, R264). Its
unit is the queue endpoint of its die (DEDUCED, notes/assumptions/12.md). -/
def engineStats (c : Nat) (out : Converted) : Prog :=
  let ep := queueEndpoint c
  let bs := out.blocks
  let q := (bs.map fun b => b.stats).foldl QStats.add (rawStats out.elems)
  let tell := fun (code d : Nat) => whenP (decide (0 < d)) (reportOnce code c ep 2 (queueDie c) c ep)
  let count := fun (idx sub d : Nat) => whenP (decide (0 < d)) (count64 idx sub d)
  let pruned := (bs.map fun b => b.pruned).sum
  let rejected := (bs.map fun b => b.rejected).sum
  all [
    count 0x2C01 0x01 q.sat, tell 0x7001 q.sat, count 0x2C01 0x02 q.flush, count 0x2C01 0x03 q.toFp4,
    count 0x2C01 0x04 q.toFp6, count 0x2C01 0x05 q.toFp8, count 0x2C01 0x06 q.exhausted, tell 0x7002 q.exhausted,
    count 0x2C01 0x07 q.nonFinite, tell 0x7003 q.nonFinite, tell 0x7006 q.surplus,
    countDropped ep (bs.map fun b => b.dropped).sum, count 0x2C20 0x05 pruned, tell 0x7802 pruned, count 0x2C20 0x06 rejected, tell 0x7801 rejected,
    tell 0x7809 (bs.filter fun b => b.broken).length]

/-- The bytes of source words that a conversion reads. -/
def Conversion.sourceBytes (x : Conversion) : Nat := ceilDiv (4 * x.count) 8 * 8

/-- A conversion runs: it reads its source and mask, writes its outputs, and consumes poison that it has read
(R264, R383). -/
def convertBody (es : SiteEcc) (c p : Nat) (d : ActiveDesc) : Prog :=
  let x := conversionOf d
  match x.failed (queueEndpoint c) with
  | some f => all [reportOnce f.1 c (queueEndpoint c) 2 (queueDie c) c f.2, endDescriptor c p f.1]
  | none =>
    if x.count = 0 ∨ x.vb = 0 then endDescriptor c p 0
    else if x.misaligned then failDesc c p 0x8001
    else withSource es c p x.src x.sourceBytes fun es vs => withSource es c p x.index (ceilDiv x.maskBytes 8 * 8) fun es ms =>
      .look fun s =>
        let out := x.output (x.input (s.reg 0x2C03 0x01) vs ms)
        all [
          engineStats c { out with blocks := x.kept out.blocks },
          putPieces es c none (accFailed c p)
            (if (vs ++ ms).any fun v => v.2 then poisonDeath c 2 (queueDie c) (queueEndpoint c) else endDescriptor c p 0)
            (x.writes s out)]

/-- The source and the existing mask array of a conversion that reads. -/
def convertSource (d : ActiveDesc) : List (Nat × Nat) :=
  let x := conversionOf d
  if (x.failed 0).isSome || x.count == 0 || x.vb == 0 || x.misaligned then []
  else [(x.src, x.sourceBytes), (x.index, ceilDiv x.maskBytes 8 * 8)]

/-- The ranges of a conversion, for its accesses that wait: what it reads, and its arrays at their largest. -/
def convertRanges (d : ActiveDesc) : List (Nat × Nat) :=
  let x := conversionOf d
  match convertSource d with
  | [] => []
  | rs => rs ++ (
      let blocks := x.vectors * x.vb
      [(x.elems, if x.hasWords then storedBytes x.fw (sfForm x.sf) * blocks else rawWidth x.fw * x.count)]
        ++ (if !x.hasWords then [] else [(x.words, if fwFramed x.fw then 8 * blocks else blocks)])
        ++ (if sfMask x.sf || sfForm x.sf == 0 then []
            else [(x.index, if sfForm x.sf = 2 then 32 * (ceilDiv x.vectors 16 * ceilDiv x.vb 16) else 4 * blocks)]))

/-- QUANTISE (R264). -/
def execQuantise (c : Ctx) (p : Nat) (ecc : SiteEcc) (s : State) : Host.Outcome State Fault Refusal :=
  finish (unlessWaits c p 0x09 (fun d s => s.rangesWait (convertRanges d)) (stagedDesc c p 0x09 convertSource (convertBody ecc c p))) s

/-- COMPRESS (R264). -/
def execCompress (c : Ctx) (p : Nat) (ecc : SiteEcc) (s : State) : Host.Outcome State Fault Refusal :=
  finish (unlessWaits c p 0x0A (fun d s => s.rangesWait (convertRanges d)) (stagedDesc c p 0x0A convertSource (convertBody ecc c p))) s

end Sys2Proof.Machine
end

