-- ==== Sys2Proof/Machine/Ports.lean ====
section
/-! DEFINITION. The quoin dies and their links, the lintels, the host ports and the Ethernet links (R310 to R329,
R479). -/

namespace Sys2Proof.Machine

open Sys2Proof

/-! ## Quoin dies (R311, R312) -/

/-- What a die that goes silent had taken is lost: packets come back with reason 4, reads of the host window fail.
(DEDUCED: notes/assumptions/63.md.) -/
def dropDie (q : Nat) : Prog := .look fun s => all [
  .eff (.delivered (s.delivered.filter fun p => decide (p.dst ≠ 0xD80 + q))),
  eachP (s.delivered.filter fun p => decide (p.dst = 0xD80 + q)) fun p => returnPacketTo p 4 (0xD80 + q),
  eachP (s.hostWindow.filter fun a => decide (q = 2 * a.port)
      || (match a.packet with | some p => decide (p.dst = 0xD80 + q) | none => false)) fun a => endHostRead a false [] 4,
  withState fun t => .issue (t.issue.filter fun r => decide (r.packet.src ≠ 0xD80 + q ∨ r.packet.typ = 0x3E))]

/-- Both modules of a die's link have failed: the die is detached and the contexts of its queue engines die.
(DEDUCED: notes/assumptions/63.md.) -/
def detachDie (q : Nat) : Prog :=
  let cs := (List.range 64).filter fun c => decide (queueDie c = q)
  all [
    setReg (0x4200 + q) 0x01 2,
    report 0xA003 2 q q (ctxMask cs),
    eachP cs fun c => killContext c 0xA003,
    dropDie q]

/-- The adapter of a die's link cannot recover after `retries` more retries (object 0x4200 + q:03): the link is retrained, and runs
at half rate once one module has failed, or not at all once both have. (DEDUCED: notes/assumptions/91.md.) -/
def linkFailureProg (q : Nat) (failed : List Nat) (retries : Nat) : Prog := .look fun s =>
  whenP (s.mainOn && s.dieUp q) (all [
    count64 (0x4200 + q) 0x03 retries,
    count32 (0x4200 + q) 0x02 1,
    report 0xA001 2 q q 0,
    let before := s.modulesFailed q
    let now := failed.foldl setBit before
    .seq (.eff (.dieModules q now)) (
      if now = 3 then detachDie q
      else whenP (decide (now ≠ before)) (all [setReg (0x4200 + q) 0x01 1, report 0xA002 2 q q (failed.headD 0)]))])

/-- UCIE_LINK_FAILURE (R311). -/
def execUcieLinkFailure (q : Die) (failedModules : List (Fin 2)) (retries : Nat) (s : State) : Host.Outcome State Fault Refusal :=
  finish (linkFailureProg q (failedModules.map (·.val)).eraseDups retries) s

/-! ## Lintels (R314 to R317) -/

/-- A lintel's clock may stop (Table 12-2). -/
def clockMayStop (l : Lintel) : Bool :=
  match l with
  | .memory _ => true | .ucie _ => true | .can _ => false | .jtag => true | .timebase => false

/-- LINTEL_CLOCK_STOP (R314): items wait; the events that a count held at its lead cannot take are counted (R317).
(DEDUCED: notes/assumptions/55.md.) -/
def execLintelClockStop (l : Lintel) (excess : Nat) (s : State) : Host.Outcome State Fault Refusal :=
  finish (whenP (clockMayStop l) (all [
    modLintel (lintelKey l) fun x => { x with stopped := true },
    whenP (decide (0 < excess)) (all [count64 0x2E00 0x04 excess, report 0xA005 6 0 (lintelKey l) 0])])) s

/-- Sends the MSI-X messages that could not be sent yet. -/
def flushMsix : Prog := .look fun s => all [.eff (.msixWaiting []), eachP s.msixWaiting sendMsix]

/-- What waits for a lintel to a die to let items through again: the doorbell-present indication and MSI-X messages (R316). -/
def lintelPasses (k : Nat) : Prog := whenP (decide (128 ≤ k ∧ k < 132)) (.seq (takeDoorbells (k - 128)) flushMsix)

/-- LINTEL_CLOCK_RETURN (R314): held items move on in order, and the control signals that wait cross (R316). -/
def execLintelClockReturn (l : Lintel) (s : State) : Host.Outcome State Fault Refusal :=
  finish (.seq (modLintel (lintelKey l) fun x => { x with stopped := false })
    (.look fun t => whenP (t.lintelOpen (lintelKey l)) (lintelPasses (lintelKey l)))) s

/-- The endpoint behind a lintel; none for CAN, JTAG and the timebase, which hold no item of the model. -/
def lintelEndpoint (k : Nat) : Option Nat := if k < 128 then some (0xD00 + k) else if k < 132 then some (0xD80 + k - 128) else none

/-- The transfers between an X-tile and its Bond link. -/
def State.xTransfers (s : State) (k : Nat) : Nat := if k < 128 then (s.xtile k).inq.length + (s.xtile k).outq.length else 0

/-- Discards every item in flight through a lintel (R315): packets on their way out of the core, which come back, those of a die's
engines on their way in, and the reads that its host port has in flight. -/
def flushLintel (k : Nat) : Prog := .look fun s =>
  let mine := s.delivered.filter fun p => lintelEndpoint k == some p.dst
  let sent := s.issue.filter fun r => decide (128 ≤ k) && lintelEndpoint k == some r.packet.src && r.packet.typ != 0x3E
  let reads := s.hostWindow.filter fun a => decide (128 ≤ k ∧ k - 128 = 2 * a.port)
  let n := mine.length + sent.length + reads.length + s.xTransfers k
  all [
    .eff (.delivered (s.delivered.filter fun p => lintelEndpoint k != some p.dst)),
    whenP (decide (k < 128)) (modX k fun x => { x with inq := [], outq := [], served := 0 }),
    eachP mine fun p => returnPacketTo p 4 p.dst,
    withState fun t => .issue (t.issue.filter fun r => !sent.contains r),
    eachP sent fun r => packetDone r.packet,
    eachP reads fun a => endHostRead a false [] 4,
    whenP (decide (128 ≤ k ∧ k < 132)) (eachP (s.ctxs.map fun e => e.1) fun c =>
      whenP (decide (queueDie c = k - 128)) (modCtx c fun x => { x with doorbell := none })),
    count64 0x2E00 0x03 n,
    whenP (decide (128 ≤ k ∧ k < 132)) (count32 (0x4200 + (k - 128)) 0x04 n),
    report 0xA004 6 0 k n]

/-- A side of a lintel, or both together, enters reset: the lintel closes, and the other side discards what is in flight, at once or,
when it cannot, when the lintel reopens. A side that follows the other finds nothing in flight. (DEDUCED: notes/assumptions/55.md.) -/
def lintelResetProg (k : Nat) (side : LintelSide) : Prog := .look fun s =>
  let x := s.lintel k
  let core := x.coreReset || side != .clocked
  let clocked := x.clockedReset || side != .core
  let first := !x.coreReset && !x.clockedReset
  let later := x.stopped || side == .both
  all [
    modLintel k fun x => { x with closed := true, coreReset := core, clockedReset := clocked, owed := x.owed || (first && later) },
    whenP (first && !later) (flushLintel k)]

/-- LINTEL_RESET (R315). -/
def execLintelReset (l : Lintel) (side : LintelSide) (s : State) : Host.Outcome State Fault Refusal :=
  finish (lintelResetProg (lintelKey l) side) s

/-- Both sides of a closed lintel are out of reset and ready. (DEDUCED: notes/assumptions/55.md.) -/
def lintelReopenProg (k : Nat) : Prog := .look fun s =>
  whenP ((s.lintel k).closed && !(s.lintel k).stopped) (all [
    whenP (s.lintel k).owed (flushLintel k),
    .eff (.lintels k {}),
    lintelPasses k])

/-- LINTEL_REOPEN (R315). -/
def execLintelReopen (l : Lintel) (s : State) : Host.Outcome State Fault Refusal := finish (lintelReopenProg (lintelKey l)) s

/-! ## Requests of host ports (R319, R321, R324, R327) -/

/-- A compute reset runs. -/
def State.computeReset (s : State) : Bool := match s.reset_ with | some r => r.width == 4 | none => false

/-- A request of a host port is refused: counted. -/
def hostRefused : Prog := count64 0x2E10 0x09 1

/-- A request for BAR2 or BAR4 of the standby port is refused (R324). -/
def standbyRefused (h bar off : Nat) : Prog := all [
  hostRefused, reportLimited 0xA009 h second 2 (2 * h) h (pairArg bar off)]

/-- A host port is the active one. -/
def State.isActivePort (s : State) (h : Nat) : Bool := s.reg 0x2E10 0x01 == h

/-- A write of bytes to the doorbell page of a context on a host port: a write of 4 bytes at offset 0 is a doorbell write,
another is dropped and counted (R319). -/
def doorbellProg (h c off : Nat) (bs : List Byte) : Prog := .look fun s =>
  let v := ofBytes bs
  whenP (s.serves (hostPath h)) (
    if !s.isActivePort h then standbyRefused h 2 (c * 0x1000 + off)
    else if s.computeReset || !decide (off = 0 ∧ bs.length = 4) then hostRefused
    else if s.engineUp c then ringDoorbell c v
    else whenP (s.dieUp (queueDie c) && !(s.lintel (128 + queueDie c)).closed) (holdDoorbell c v))

/-- DOORBELL (R256, R319). -/
def execDoorbell (h : HostPort) (c : Ctx) (off : Fin 4096) (bytes : List Byte) (s : State) : Host.Outcome State Fault Refusal :=
  finish (doorbellProg h c off bytes) s

/-! ## BAR4 (R321 to R323) -/

/-- The size of BAR4: its default (Table 12-3; DESIGN CHOICE, notes/assumptions/24.md). -/
def bar4Size : Nat := 2 ^ 36

/-- A range of a queue-pair window that a host port may reach: for a write the slots and the producer counts, four or
eight bytes each. (DEDUCED: notes/assumptions/58.md.) -/
def hostWindowListed (write : Bool) (off n : Nat) : Bool :=
  if write then decide (off + n ≤ 0x2000) || (decide (off = 0x2000 ∨ off = 0x2008) && (n == 4 || n == 8))
    || (off == 0x2000 && n == 16)
  else windowListed false off n

/-- How a host access to part of a line ends that does not reach it: refused (R321, R405), or returned as a packet
(R245). -/
inductive HostFault where
  | refused (e : Prog)
  | returned (e : Prog)

/-- A host access outside Table 01-7 or to a hole. -/
def HostFault.hole : HostFault := .refused .skip

/-- A host access that node `d` returns. -/
def HostFault.back (reason d : Nat) : HostFault := .returned (requestReturned 0xFF reason d d)

/-- Why a part of a host access, of `n` bytes, fails, with what it reports besides; none when it does not. -/
def State.hostFault (s : State) (h : Nat) (write : Bool) (a n : Nat) : Option HostFault :=
  let port := 0xD80 + 2 * h
  match placeOf a with
  | .hbm _ =>
    if touchesDump a n then some (.refused (dumpRefused 2 (2 * h) 0 port))
    else if s.hbmServes a n then none else some (.back 3 (0xD00 + s.serverX a))
  | .scratch t off al => match s.sSite t with
    | none => some .hole
    | some site => match s.decode t al off n with
      | none => some (.returned (all [addressErrorAt t 0xFF off, requestReturned 0xFF 3 site site]))
      | some ws => (ws.findSome? fun w => s.savedWord t w).map fun i => .refused (report 0x9005 2 (2 * h) i 0xFF)
  | .store m off => match s.siteOf (mTileLogical m) with
    | none => some .hole
    | some site => if !decide (off + n ≤ 0x80000) then some .hole
      else (if write then s.writeLocked site off n else none).map fun line =>
        .returned (all [rejectStoreWrite site line false, requestReturned 0xFF 2 site site])
  | .pairWindow k off =>
    let e := 0xD80 + k / 256
    if !s.dieUp (k / 256) then some (.back 4 e)
    else if hostWindowListed write off n then none else some (.back 3 e)
  | .host off =>
    let e := s.hostCorner
    if !s.dieUp (e - 0xD80) then some (.back 4 e)
    else if off + n ≤ 0x80000000 ∧ s.hostUp then none else some (.back 3 e)
  | .hole => some .hole

/-- The parts of a range that an engine accesses one by one, address and length: a range in a scratchpad is one access (R148,
R149), another is cut at its lines. -/
def accessParts (a n : Nat) : List (Nat × Nat) :=
  match placeOf a with
  | .scratch _ _ _ => if n = 0 then [] else [(a, n)]
  | _ => (linesOf a n).map fun l => (max a (64 * l), min (a + n) (64 * l + 64) - max a (64 * l))

/-- What the first refused part of a host access reports; none when no part is refused. -/
def State.hostRefusal (s : State) (h : Nat) (write : Bool) (a n : Nat) : Option Prog :=
  (accessParts a n).findSome? fun x => match s.hostFault h write x.1 x.2 with
    | some (.refused e) => some e
    | _ => none

/-- What the parts of a host access report that come back returned. -/
def State.hostReturns (s : State) (h : Nat) (write : Bool) (a n : Nat) : List Prog :=
  (accessParts a n).filterMap fun x => match s.hostFault h write x.1 x.2 with
    | some (.returned e) => some e
    | _ => none

/-- Writes one part of a host write. (DEDUCED: notes/assumptions/56.md.) -/
def hostPut (es : SiteEcc) (a : Nat) (bs : List Byte) (poison : Bool) : Prog := .look fun s =>
  match placeOf a with
  | .hbm _ => hbmPut a bs poison
  | .scratch t off al => withP (s.decode t al off bs.length) fun ws => all [
      portAccess t (s.sSiteNo t) ws (eccAt es (s.sSiteNo t)), plainWriteWords t ws bs poison]
  | .store m off => withP (s.siteOf (mTileLogical m)) fun n =>
      .seq (whenP (eccAt es n).conflict (count32 (0x3000 + n) 0x3A 1)) (storeWrite m off bs poison)
  | .pairWindow k off => windowWrite k off (if 0x2000 ≤ off then padTo (max 8 bs.length) bs else bs) poison
  | .host off => hostWrite off bs poison
  | .hole => .skip

/-- Writes the parts of a range; what the codes found at an operand store is met by its first part. -/
def putParts (es : SiteEcc) (poison : Bool) (a : Nat) (bs : List Byte) (parts : List (Nat × Nat)) : Prog :=
  match parts with
  | [] => .skip
  | x :: xs => .look fun s =>
    let left := match placeOf x.1 with
      | .store m _ => eccSpent es ((s.siteOf (mTileLogical m)).getD 0xFFF) []
      | _ => es
    .seq (hostPut es x.1 ((bs.drop (x.1 - a)).take x.2) poison) (putParts left poison a bs xs)

/-- A write through BAR4; one that must wait at a lintel or a tile waits at its port, and its command comes when it does not
(R314, R402). (DEDUCED: notes/assumptions/56.md.) -/
def bar4WriteProg (h off : Nat) (bs : List Byte) (poison : Bool) (es : SiteEcc) : Prog := .look fun s =>
  let a := s.reg 0x2E10 0x04 + off
  whenP (s.serves (hostPath h) && decide (off + bs.length ≤ bar4Size)) (
    if !s.isActivePort h then standbyRefused h 4 off
    else if s.computeReset then hostRefused
    else if s.rangesWait [(a, bs.length)] then .skip
    else match s.hostRefusal h true a bs.length with
      | some e => all [hostRefused, e]
      | none => all [
        all (s.hostReturns h true a bs.length),
        putParts es poison a bs ((accessParts a bs.length).filter fun x => (s.hostFault h true x.1 x.2).isNone)])

/-- BAR4_WRITE (R321). -/
def execBar4Write (h : HostPort) (off : Nat) (bytes : List Byte) (poison : Bool) (ecc : SiteEcc) (s : State) :
    Host.Outcome State Fault Refusal := finish (bar4WriteProg h off bytes poison ecc) s

/-- What a part of a host read reads: bytes and poison. -/
def State.hostGet (s : State) (es : SiteEcc) (a n : Nat) : List Byte × Bool :=
  match placeOf a with
  | .hbm _ => (s.bytesAt a n, s.rangeBad a n)
  | .scratch t off al => match s.decode t al off n with
    | some ws => (s.wordBytes t ws, s.slotsPoisoned t ws)
    | none => ([], false)
  | .store m off => (s.bytesAt (storeAddr m off) n,
      (s.storeRead m (eccAt es ((s.siteOf (mTileLogical m)).getD 0xFFF)).bad off n).2)
  | .pairWindow k off => s.windowRead k off n
  | _ => ([], false)

/-- A host read completes with a status: 0 success, 1 Unsupported Request, 2 Completer Abort. -/
def hostReadDone (h status : Nat) (bs : List Byte) (poison : Bool) : Prog := .eff (.emit (.hostRead h status bs poison))

/-- A read through BAR4, which waits like a write. (DEDUCED: notes/assumptions/56.md.) -/
def bar4ReadProg (h off n : Nat) (es : SiteEcc) : Prog := .look fun s =>
  let a := s.reg 0x2E10 0x04 + off
  whenP (s.serves (hostPath h) && decide (off + n ≤ bar4Size)) (
    if !s.isActivePort h then all [standbyRefused h 4 off, hostReadDone h 1 [] false]
    else if s.computeReset then hostReadDone h 2 [] false
    else if s.rangesWait [(a, n)] then .skip
    else match s.hostRefusal h false a n with
      | some e => all [e, hostReadDone h 2 [] false]
      | none => match placeOf a with
        | .host o => if (s.hostReturns h false a n).isEmpty then hostRead o n (.host h) none
          else all [all (s.hostReturns h false a n), hostReadDone h 0 [] true]
        | _ => if !(s.hostReturns h false a n).isEmpty then
            all [all (s.hostReturns h false a n), hostReadDone h 0 [] true] else
          .seq (readEffects es (s.wordsOf (a / 8 * 8) (a % 8 + n))) (.look fun u =>
            let parts := (accessParts a n).map fun x => u.hostGet es x.1 x.2
            hostReadDone h 0 (parts.flatMap fun x => x.1) (parts.any fun x => x.2)))

/-- BAR4_READ (R321). -/
def execBar4Read (h : HostPort) (off len : Nat) (ecc : SiteEcc) (s : State) : Host.Outcome State Fault Refusal :=
  finish (bar4ReadProg h off len ecc) s

/-! ## Active and standby (R323 to R326, R479) -/

/-- Switches the active port to the other one (R325): reads in flight on a port that is down come back, later requests
and waiting messages use the new port. `cause` is 0 for a command, 1 for a failover. -/
def switchPort (v cause : Nat) : Prog := .look fun s =>
  let old := s.reg 0x2E10 0x01
  all [
    whenP (!s.portUp old) (eachP (s.hostWindow.filter fun a => decide (a.port = old)) fun a => endHostRead a false [] 3),
    setReg 0x2E10 0x01 v,
    flushMsix,
    report 0xA008 6 0 v cause]

/-- The write of the active-port object. -/
def activePortCommand (v : Nat) : Command where
  valueOk _ := decide (v < 2)
  setting := true
  effect := .look fun s => whenP (decide (v ≠ s.reg 0x2E10 0x01)) (switchPort v 0)

/-- HOST_PORT_SWITCH (R325). -/
def execHostPortSwitch (p : Path) (v : Nat) (s : State) : Host.Outcome State Fault Refusal :=
  finish (commandWrite p 0x2E10 0x01 (activePortCommand v)) s

/-- A host link goes down. -/
def linkDown (h : Nat) : Prog := .look fun s =>
  whenP (s.reg 0x2E10 (0x06 + h) != 0) (all [setReg 0x2E10 (0x06 + h) 0, report 0xA006 2 (2 * h) h 0])

/-- HOST_LINK_DOWN (R326). -/
def execHostLinkDown (h : HostPort) (s : State) : Host.Outcome State Fault Refusal := finish (linkDown h) s

/-- A host link comes up at a rate and width. -/
def linkUp (h rate width : Nat) : Prog := .look fun s =>
  whenP (s.powered 5 && s.dieUp (2 * h) && s.reg 0x2E10 (0x06 + h) == 0
      && [64, 32, 16, 8, 5, 2].contains rate && [1, 2, 4, 8, 16].contains width) (all [
    setReg 0x2E10 (0x06 + h) (rate * 256 + width),
    report 0xA007 2 (2 * h) h (rate * 256 + width),
    whenP (s.isActivePort h) flushMsix])

/-- HOST_LINK_UP (R326). -/
def execHostLinkUp (h : HostPort) (rate width : Nat) (s : State) : Host.Outcome State Fault Refusal :=
  finish (linkUp h rate width) s

/-- The device switches on its own when failover is armed, the active link has been down for the delay and the standby
link is up. -/
def failoverProg (downMs : Nat) : Prog := .look fun s =>
  let old := s.reg 0x2E10 0x01
  whenP (s.reg 0x2E10 0x02 == 1 && s.reg 0x2E10 (0x06 + old) == 0 && decide (s.reg 0x2E10 0x03 ≤ downMs)
      && s.portUp (1 - old)) (switchPort (1 - old) 1)

/-- HOST_FAILOVER (R326). -/
def execHostFailover (downMs : Nat) (s : State) : Host.Outcome State Fault Refusal := finish (failoverProg downMs) s

/-- PERST_N (R479): the port's link and endpoint are reset; the active port stays. -/
def execPerstN (h : HostPort) (s : State) : Host.Outcome State Fault Refusal := finish (linkDown h) s

/-! ## Ethernet links (R329, R345) -/

/-- The timebase loses its master: locked becomes holdover (R345). -/
def ptpLost : Prog := .look fun s =>
  whenP (s.reg 0x2E40 0x04 == 1) (all [
    setReg 0x2E40 0x04 2,
    report 0xA010 2 (s.reg 0x2E40 0x02 / 4 % 4) (s.reg 0x2E40 0x02) 0])

/-- ETHERNET_LINK_UP (R329): a port that is licensed and enabled comes up. -/
def execEthernetLinkUp (e : EthPort) (s : State) : Host.Outcome State Fault Refusal :=
  finish (whenP (s.powered 6 && s.dieUp (e / 4) && s.reg (0x2E20 + e) 0x01 == 0 && s.reg (0x2E20 + e) 0x02 != 0)
    (all [setReg (0x2E20 + e) 0x01 1, report 0xA00B 2 (e / 4) e 0])) s

/-- An Ethernet link goes down. -/
def ethDown (e : Nat) : Prog := .look fun s =>
  whenP (s.reg (0x2E20 + e) 0x01 == 1) (all [
    setReg (0x2E20 + e) 0x01 0,
    report 0xA00A 2 (e / 4) e 0,
    whenP (s.reg 0x2E40 0x02 == e) ptpLost])

/-- ETHERNET_LINK_DOWN (R329). -/
def execEthernetLinkDown (e : EthPort) (s : State) : Host.Outcome State Fault Refusal := finish (ethDown e) s

end Sys2Proof.Machine
end

