-- ==== Sys2Proof/Machine/QueuePairs.lean ====
section
/-! DEFINITION. Queue pairs and the RoCEv2 transport engines (R331 to R339, Tables 12-5 to 12-7). Messages are whole
RoCEv2 messages; a pair's engine works through its die. -/

namespace Sys2Proof.Machine

open Sys2Proof

/-! ## The record (Table 12-5, R332) -/

/-- The path MTU of a pair in bytes. -/
def Pair.mtu (p : Pair) : Nat := 1024 * 2 ^ bits (p.words.headD 0) 53 52

/-- The Ethernet port of pair `n`. -/
def pairPort (n : Nat) (p : Pair) : Nat := 4 * (n / 256) + bits (p.words.headD 0) 55 54

/-- The packets of a message of `len` bytes. -/
def Pair.packets (p : Pair) (len : Nat) : Nat := Nat.max 1 (ceilDiv len p.mtu)

/-- Word `i` of the record in a domain image, its reserved bits zero (R9). -/
def recordWord (bs : List Byte) (i : Nat) : Nat :=
  let w := ofBytes ((bs.drop (8 * i)).take 8)
  match i with
  | 1 => w - w % 256
  | 2 | 3 | 7 => w % 2 ^ 48
  | 4 => w % 2 ^ 32
  | _ => w

/-- The record in a domain image. -/
def recordImage (bs : List Byte) : List Nat := (List.range 8).map (recordWord bs)

/-- The pair that a path's selector names (R465). -/
def State.selectedPair (s : State) (p : Path) (q : Nat) : Nat :=
  256 * q + s.selectorAt (pathNo p * 2 ^ 32 + rk (0x4200 + q) 0x05) % 256

/-- A write that only sets the state to reset. -/
def onlyResets (old : Pair) (ws : List Nat) : Bool :=
  decide (ws = (old.withState 0).words)

/-- The messages of pair `n` that wait are discarded. -/
def dropArrived (n : Nat) : Prog := withState fun t => .rdmaIn (t.rdmaIn.filter fun e => decide (e.1 ≠ n))

/-- The write of the record of the selected pair. (DEDUCED: notes/assumptions/61.md.) -/
def pairRecordCommand (p : Path) (q : Nat) (bs : List Byte) : Command :=
  let ws := recordImage bs
  let st := bits (ws.headD 0) 63 62
  { valueOk := fun _ => decide (st < 2) && !(st == 1 && bits (ws.headD 0) 53 52 == 3)
    stateOk := fun s =>
      let n := s.selectedPair p q
      let old := s.pair n
      (decide (old.state ≠ 1) || onlyResets old ws)
        && (st == 0 || (s.ctxRuns (bits (ws.headD 0) 61 56)
              && s.reg (0x2E20 + pairPort n { words := ws }) 0x01 != 2))
    refused := fun _ => .look fun s => pairRejected (s.selectedPair p q)
    setting := true
    effect := .look fun s =>
      let n := s.selectedPair p q
      all [
        modPair n fun x =>
          if st = 1 then { x with
            words := ws, psn := bits (ws.headD 0) 23 0, expPsn := bits (ws.getD 1 0) 63 40
            retries := bits (ws.getD 1 0) 31 29, rnrRetries := bits (ws.getD 1 0) 28 26, rate := 2 ^ 64
            sends := [], recvs := [] }
          else { x with words := ws, sends := [], recvs := [] },
        dropArrived n,
        eachP [0, 1024, 2048, 3072] fun k => dropHostData (.pair (n + k))] }

/-- QUEUE_PAIR_RECORD_WRITE (R332). -/
def execQueuePairRecordWrite (p : Path) (q : Die) (bytes : List Byte) (s : State) : Host.Outcome State Fault Refusal :=
  finish (domainWrite p (0x4200 + q) 0x06 (bytes.length == 64) (pairRecordCommand p q bytes)) s

/-! ## Local data -/

/-- The words that a range of bytes touches: a pair's engine reads a range that is not word-aligned by the whole words that cover it
(DESIGN CHOICE, notes/assumptions/46.md). -/
def State.coveringWords (s : State) (a n : Nat) : List (Option WordAt) :=
  if n = 0 then [] else s.wordsOf (a / 8 * 8) (a % 8 + n)

/-- Why an access of a pair's context to a range of bytes fails. A scratchpad or window write of part of a word comes
back returned (R148, R333). -/
def State.rangeFault (s : State) (c : Nat) (write : Bool) (a n : Nat) : Option AccErr :=
  let ws := s.coveringWords a n
  match s.firstFault c write ws with
  | some e => some e
  | none =>
    if write && decide (a % 8 ≠ 0 ∨ n % 8 ≠ 0) then ws.findSome? fun w => match w with
      | some (.scratch t k) => some (.undecoded t (8 * k + a % 8))
      | some (.window k _) => some (.lost 3 (0xD80 + k / 256) (0xD80 + k / 256))
      | _ => none
    else none

/-- What a pair's engine reads from memory: the place of the first byte in its word, and the words with their marks. -/
structure LocalData where
  off : Nat
  words : List (List Byte × Bool)
  deriving DecidableEq, Repr

/-- The bytes of a part of what was read. -/
def LocalData.bytes (d : LocalData) (o n : Nat) : List Byte := ((d.words.flatMap fun w => w.1).drop (d.off + o)).take n

/-- A part of what was read is poisoned. -/
def LocalData.bad (d : LocalData) (o n : Nat) : Bool :=
  n != 0 && (((d.words.drop ((d.off + o) / 8)).take ((d.off + o + n - 1) / 8 + 1 - (d.off + o) / 8)).any fun w => w.2)

/-- Reads a range for an origin. -/
def State.localRead (s : State) (es : SiteEcc) (o : Origin) (a n : Nat) : LocalData :=
  ⟨a % 8, s.readWords es o (s.coveringWords a n)⟩

/-- An access of pair `n` fails: its context dies when the access comes back returned; the pair moves to error.
(DEDUCED: notes/assumptions/60.md.) -/
def pairAccFailed (n : Nat) (e : AccErr) : Prog := .look fun s =>
  let c := (s.pair n).owner
  let q := n / 256
  match e with
  | .dump => accessFailed c q (0xD80 + q) e (all [poisonDeath c 2 q (0xD80 + q), pairError n 5]) .skip
  | _ => accessFailed c q (0xD80 + q) e (pairError n 5) (pairError n 5)

/-- Writes bytes for pair `n` and goes on with `done`, or fails. -/
def localWrite (es : SiteEcc) (n a : Nat) (bs : List Byte) (done : Prog) : Prog := .look fun s =>
  match s.rangeFault (s.pair n).owner true a bs.length with
  | some e => pairAccFailed n e
  | none => .seq (putParts es false a bs (accessParts a bs.length)) done

/-- Reads a range for pair `n` under an origin and goes on with what it read; a range that must wait leaves the request untaken
(R314, R402). A range in the host window is asked for
first; a later occurrence of the command goes on when it has come (R328). -/
def withLocal (es : SiteEcc) (n a len : Nat) (o : Origin) (f : SiteEcc → LocalData → Prog) : Prog := .look fun s =>
  if s.rangesWait [(a, len)] then .skip
  else match s.rangeFault (s.pair n).owner false a len with
  | some e => pairAccFailed n e
  | none => match placeOf a with
    | .host off =>
      if len = 0 then f es ⟨0, []⟩
      else if s.hostBusy o then .skip
      else if s.hostCame o then
        (if s.hostGood o then f es (s.localRead es o a len) else all [pairAccFailed n (hostReadLost s), dropHostData o])
      else hostReads (off / 8 * 8) (off % 8 + len) o
    | _ => .seq (readEffects es (s.coveringWords a len)) (.look fun u =>
        f (s.readSpent es (s.coveringWords a len)) (u.localRead es o a len))

/-! ## Messages on the wire -/

/-- The bytes that a message carries. -/
def opLength (op : RoceOp) : Nat :=
  match op with
  | .send b => b.length
  | .sendTensor b => b.length
  | .write _ _ b => b.length
  | .writeImm _ _ b _ => b.length
  | .readResponse b => b.length
  | _ => 0

/-- Sends a message of pair `n` with a sequence number, when its port is up. -/
def roceSend (n : Nat) (op : RoceOp) (psn : Nat) : Prog := .look fun s =>
  let e := pairPort n (s.pair n)
  whenP (s.reg (0x2E20 + e) 0x01 == 1 && s.dieUp (n / 256)) (all [
    .eff (.emit (.roce n op psn)), count64 (0x2E20 + e) 0x07 ((s.pair n).packets (opLength op))])

/-- The sequence numbers that a request uses: for a read, those of its response. -/
def Pair.span (p : Pair) (op : RoceOp) : Nat :=
  match op with
  | .readRequest _ _ len => p.packets len
  | _ => p.packets (opLength op)

/-- Answers the peer of pair `n`. -/
def roceAnswer (n : Nat) (op : RoceOp) : Prog := .look fun s => roceSend n op (s.pair n).expPsn

/-! ## Send requests (R333 to R338) -/

/-- The eight words of the request slot at an offset of a window. -/
def State.requestWords (s : State) (n off : Nat) : List Nat := (List.range 8).map fun i => s.load (pairAddr n (off + 8 * i)) 8

/-- A word of a request slot is poisoned. -/
def State.requestBad (s : State) (n off : Nat) : Bool := (List.range 8).any fun i => s.wordPoisoned (pairAddr n off / 8 + i)

/-- The opcode of a request. -/
def wrOp (ws : List Nat) : Nat := bits (ws.headD 0) 63 60
/-- The local address. -/
def wrLocal (ws : List Nat) : Nat := bits (ws.getD 1 0) 47 0
/-- The length. -/
def wrLen (ws : List Nat) : Nat := bits (ws.getD 2 0) 31 0
/-- The remote address. -/
def wrRemote (ws : List Nat) : Nat := ws.getD 3 0
/-- The rkey. -/
def wrKey (ws : List Nat) : Nat := bits (ws.getD 4 0) 63 32
/-- The immediate or format word. -/
def wrImm (ws : List Nat) : Nat := bits (ws.getD 4 0) 31 0
/-- The block-word base. -/
def wrWords (ws : List Nat) : Nat := bits (ws.getD 6 0) 47 0
/-- The index base. -/
def wrIndex (ws : List Nat) : Nat := bits (ws.getD 7 0) 47 0

/-- A request is rejected for a reserved code: an opcode of another queue or none, a length above its limit, or a format
word of a tensor that R111 does not allow. -/
def wrReserved (recv : Bool) (ws : List Nat) : Bool :=
  let op := wrOp ws
  let tensor := op == 2 || op == 9
  !(if recv then op == 8 || op == 9 else decide (1 ≤ op ∧ op ≤ 5))
    || (!tensor && decide (2 ^ 31 < wrLen ws))
    || (tensor && (fwBad (wrImm ws) (32 * wrLen ws) || !sparseTensor (wrImm ws)))

/-- The engine takes the next send request of pair `n`. -/
def takeSend (n : Nat) (r : SendReq) : Prog := all [
  modPair n fun p => { p with sendCons := (p.sendCons + 1) % 2 ^ 32, sends := p.sends ++ [r] },
  dropHostData (.pair n), dropHostData (.pair (n + 2048)), dropHostData (.pair (n + 3072))]

/-- A request is taken and its message sent. -/
def sendMessage (n : Nat) (ws : List Nat) (op : RoceOp) : Prog := .look fun s =>
  let p := s.pair n
  all [
    takeSend n { words := ws, op := some op, psn := p.psn },
    modPair n fun x => { x with psn := (x.psn + x.span op) % 2 ^ 24 },
    roceSend n op p.psn]

/-- Poison is found in a request or its data before anything is sent: the pair moves to error (R337). -/
def poisonedRequest (n : Nat) (ws : List Nat) (why : Nat) : Prog := all [takeSend n { words := ws }, pairError n why]

/-- The message of a SEND or an RDMA write over its data. -/
def dataMessage (ws : List Nat) (bs : List Byte) : RoceOp :=
  match wrOp ws with
  | 3 => .write (wrKey ws) (wrRemote ws) bs
  | 4 => .writeImm (wrKey ws) (wrRemote ws) bs (wrImm ws)
  | _ => .send bs

/-- Takes the next send request of pair `n` when its opcode is `op` or reserved, and runs `body` on one that is to be
sent. -/
def nextSend (n op : Nat) (body : List Nat → Prog) : Prog := .look fun s =>
  let p := s.pair n
  let off := p.sendCons % 64 * 64
  let ws := s.requestWords n off
  whenP (s.dieUp (n / 256) && s.lintelOpen (128 + n / 256) && decide (p.state ≠ 0 ∧ p.sendCons ≠ p.sendProd)
      && (wrOp ws == op || !decide (1 ≤ wrOp ws ∧ wrOp ws ≤ 5))) (
    if p.state = 2 then takeSend n { words := ws, status := some 0xA00D }
    else if s.requestBad n off then poisonedRequest n ws 2
    else if wrReserved false ws then all [pairRejected n, takeSend n { words := ws, status := some 0xA00C }]
    else if wrLen ws = 0 then takeSend n { words := ws, status := some 0 }
    else body ws)

/-- Sends the data of a request. -/
def sendData (es : SiteEcc) (n : Nat) (ws : List Nat) : Prog := withLocal es n (wrLocal ws) (wrLen ws) (.pair n) fun _ d =>
  if d.bad 0 (wrLen ws) then poisonedRequest n ws 2 else sendMessage n ws (dataMessage ws (d.bytes 0 (wrLen ws)))

/-- SEND (R334). -/
def execSend (q : Die) (i : PairNo) (ecc : SiteEcc) (s : State) : Host.Outcome State Fault Refusal :=
  let n := 256 * q.val + i.val
  finish (nextSend n 1 (sendData ecc n)) s

/-- RDMA_WRITE (R334). -/
def execRdmaWrite (q : Die) (i : PairNo) (ecc : SiteEcc) (s : State) : Host.Outcome State Fault Refusal :=
  let n := 256 * q.val + i.val
  finish (nextSend n 3 (sendData ecc n)) s

/-- RDMA_WRITE_IMM (R334). -/
def execRdmaWriteImm (q : Die) (i : PairNo) (ecc : SiteEcc) (s : State) : Host.Outcome State Fault Refusal :=
  let n := 256 * q.val + i.val
  finish (nextSend n 4 (sendData ecc n)) s

/-- RDMA_READ (R334). -/
def execRdmaRead (q : Die) (i : PairNo) (s : State) : Host.Outcome State Fault Refusal :=
  let n := 256 * q.val + i.val
  finish (nextSend n 5 fun ws => sendMessage n ws (.readRequest (wrKey ws) (wrRemote ws) (wrLen ws))) s

/-! ## Compressed tensors (R143, R144, R338, R339) -/

/-- The form that a tensor's blocks are laid out in: that of its first S24 or PIX block word (DEDUCED, notes/assumptions/25.md). -/
def tensorForm (words : List Nat) : Nat :=
  ((words.map fun w => bits w 55 54).find? fun f => f == 1 || f == 3).getD 3

/-- The blocks of a tensor as they are sent: poisoned where the form is neither S24 nor PIX, or the block is poisoned, in the bytes
that its tag implies (R62), or malformed. -/
def tensorBlocks (fw m : Nat) (words frames index : LocalData) : List RawBlock :=
  let ws := (List.range m).map fun b => ofBytes (words.bytes (8 * b) 8)
  let z := storedBytes fw (tensorForm ws)
  (List.range m).map fun b =>
    let w := ws.getD b 0
    let form := bits w 55 54
    let raw : RawBlock := {
      word := w, index := ofBytes (index.bytes (4 * b) 4), payload := ofBytes (frames.bytes (z * b) z) }
    { raw with poison := words.bad (8 * b) 8 || index.bad (4 * b) 4 || frames.bad (z * b) (min z (payloadBytes fw form w))
        || !(form == 1 || form == 3) || blockBad fw form raw }

/-- The malformed S24 and PIX blocks of a tensor that arrived without poison, with their forms (R64, R65, R115). -/
def tensorFaults (fw m : Nat) (words frames index : LocalData) : List (RawBlock × Nat) :=
  let z := storedBytes fw (tensorForm ((List.range m).map fun b => ofBytes (words.bytes (8 * b) 8)))
  (((List.range m).zip (tensorBlocks fw m words frames index)).filter fun e =>
      let form := bits e.2.word 55 54
      !(words.bad (8 * e.1) 8 || index.bad (4 * e.1) 4 || frames.bad (z * e.1) (min z (payloadBytes fw form e.2.word))) && (form == 1 || form == 3)
        && blockBad fw form e.2).map fun e => (e.2, bits e.2.word 55 54)

/-- The engine of pair `n` counts and reports the malformed blocks that it met: those of R64 and those of R115. -/
def malformedSent (n : Nat) (d : Nat × Nat) : Prog := .look fun s =>
  let c := (s.pair n).owner
  let ep := 0xD80 + n / 256
  let tell := fun (code k : Nat) => whenP (decide (0 < k)) (reportOnce code c ep 2 (n / 256) c ep)
  all [whenP (decide (0 < d.1)) (count64 0x2C01 0x08 d.1), tell 0x7004 d.1, tell 0x7803 d.2]

/-- The message of a tensor: header and records. -/
def tensorMessage (fw : Nat) (bs : List RawBlock) : List Byte :=
  toBytes 4 bs.length ++ toBytes 4 fw ++ toBytes 8 0 ++ bs.flatMap blockRecord

/-- Sends a tensor: its block words tell the form and with it the frame size. -/
def sendTensorBody (es : SiteEcc) (n : Nat) (ws : List Nat) : Prog :=
  let m := wrLen ws
  let fw := wrImm ws
  withLocal es n (wrWords ws) (8 * m) (.pair n) fun es words =>
    let z := storedBytes fw (tensorForm ((List.range m).map fun b => ofBytes (words.bytes (8 * b) 8)))
    withLocal es n (wrLocal ws) (z * m) (.pair (n + 2048)) fun es frames =>
      withLocal es n (wrIndex ws) (4 * m) (.pair (n + 3072)) fun _ index =>
        let bs := tensorBlocks fw m words frames index
        let msg := tensorMessage fw bs
        all [
          count64 0x2C20 0x07 (bs.filter fun b => b.poison).length,
          malformedSent n (malformedKinds (tensorFaults fw m words frames index)),
          if 2 ^ 31 < msg.length - 16 then poisonedRequest n ws 6 else sendMessage n ws (.sendTensor msg)]

/-- SEND_TENSOR (R338). -/
def execSendTensor (q : Die) (i : PairNo) (ecc : SiteEcc) (s : State) : Host.Outcome State Fault Refusal :=
  let n := 256 * q.val + i.val
  finish (nextSend n 2 (sendTensorBody ecc n)) s

/-! ## Receive requests -/

/-- The engine takes the next receive request of pair `n`, whose opcode is `op` or reserved; it waits for its message. -/
def nextReceive (n op : Nat) : Prog := .look fun s =>
  let p := s.pair n
  let off := 0x1000 + p.recvCons % 64 * 64
  let ws := s.requestWords n off
  let take := fun (st : Option (Nat × Nat)) => modPair n fun x =>
    { x with recvCons := (x.recvCons + 1) % 2 ^ 32, recvs := x.recvs ++ [(ws, st)] }
  whenP (s.dieUp (n / 256) && decide (p.state ≠ 0 ∧ p.recvCons ≠ p.recvProd)
      && (wrOp ws == op || !(wrOp ws == 8 || wrOp ws == 9))) (
    if p.state = 2 then take (some (0xA00D, 0))
    else if s.requestBad n off then all [take none, pairError n 2]
    else if wrReserved true ws then all [pairRejected n, take (some (0xA00C, 0))]
    else if wrLen ws = 0 then take (some (0, 0))
    else take none)

/-- RECEIVE (R334). -/
def execReceive (q : Die) (i : PairNo) (s : State) : Host.Outcome State Fault Refusal :=
  finish (nextReceive (256 * q.val + i.val) 8) s

/-- RECEIVE_TENSOR (R339). -/
def execReceiveTensor (q : Die) (i : PairNo) (s : State) : Host.Outcome State Fault Refusal :=
  finish (nextReceive (256 * q.val + i.val) 9) s

/-- Ends the oldest receive request that waits. -/
def endReceive (n code imm : Nat) : Prog := modPair n fun p => { p with recvs := mark p.recvs }
where
  /-- Marks the first entry without a status. -/
  mark (rs : List (List Nat × Option (Nat × Nat))) : List (List Nat × Option (Nat × Nat)) :=
    match rs with
    | [] => []
    | (w, none) :: rs => (w, some (code, imm)) :: rs
    | r :: rs => r :: mark rs

/-- The oldest receive request that waits. -/
def Pair.waitingReceive (p : Pair) : Option (List Nat) := (p.recvs.find? fun r => r.2.isNone).map fun r => r.1

/-- A message of `len` bytes has been taken: its sequence numbers count, and the peer has its acknowledgement. -/
def acknowledge (n len : Nat) : Prog := .look fun s =>
  let p := s.pair n
  let last := (p.expPsn + p.packets len - 1) % 2 ^ 24
  all [modPair n fun x => { x with expPsn := (last + 1) % 2 ^ 24 }, roceSend n .ack last]

/-- A tensor receive fails (R339). -/
def tensorFail (n : Nat) : Prog := .look fun s => all [
  endReceive n 0xA00E 0,
  roceAnswer n .nakOther,
  pairError n 4,
  report 0xA00E 2 (n / 256) (s.pair n).owner (n % 256)]

/-- A SEND message arrives at pair `n`. -/
def landSend (es : SiteEcc) (n : Nat) (bs : List Byte) : Prog := .look fun s =>
  match (s.pair n).waitingReceive with
  | none => roceAnswer n .nakReceiverNotReady
  | some ws =>
    if wrOp ws = 9 then tensorFail n
    else if wrLen ws < bs.length then all [roceAnswer n .nakOther, pairError n 7]
    else localWrite es n (wrLocal ws) bs (all [endReceive n 0 0, acknowledge n bs.length])

/-- The records of a tensor message; none when it is too short for its count. -/
def readRecords (k : Nat) (bs : List Byte) : Option (List RawBlock) :=
  match k with
  | 0 => some []
  | k + 1 => match readRecord bs with
    | none => none
    | some (b, used) => (readRecords k (bs.drop used)).map fun rest => b :: rest

/-- An array of items of `z` bytes with their marks as whole words; bytes past its end stay as they stand. -/
def State.itemWords (s : State) (a z : Nat) (xs : List (Nat × Bool)) : List (List Byte × Bool) :=
  let n := z * xs.length
  let ws := arrayWords z xs n
  if n % 8 = 0 then ws
  else
    let old := (s.readWord [] .none (s.wordPlace (a + n / 8 * 8))).1
    ws.dropLast ++ [((ws.getLastD ([], false)).1.take (n % 8) ++ old.drop (n % 8), (ws.getLastD ([], false)).2)]

/-- A SEND_TENSOR message arrives at pair `n`: frames, block words and index words are written (R62, R339).
(DEDUCED: notes/assumptions/29.md.) -/
def landTensor (es : SiteEcc) (n : Nat) (bs : List Byte) : Prog := .look fun s =>
  match (s.pair n).waitingReceive with
  | none => roceAnswer n .nakReceiverNotReady
  | some ws =>
    let m := ofBytes (bs.take 4)
    let fw := ofBytes ((bs.drop 4).take 4)
    if wrOp ws ≠ 9 ∨ fw ≠ wrImm ws ∨ wrLen ws < m then tensorFail n
    else match readRecords m (bs.drop 16) with
    | none => tensorFail n
    | some blocks =>
      let z := storedBytes fw (tensorForm (blocks.map fun b => b.word))
      let item := fun (f : RawBlock → Nat) => blocks.map fun b => (if b.poison then 0 else f b, b.poison)
      putPieces es (s.pair n).owner none (pairAccFailed n) (all [endReceive n 0 0, acknowledge n bs.length])
        (s.pieces (wrLocal ws) (s.itemWords (wrLocal ws) z (item fun b => b.payload))
          ++ s.pieces (wrWords ws) (s.itemWords (wrWords ws) 8 (item fun b => b.word))
          ++ s.pieces (wrIndex ws) (s.itemWords (wrIndex ws) 4 (item fun b => b.index)))

/-! ## Packets from the network (R330, R331, R336, R337) -/

/-- Ends the oldest outstanding send request that `which` picks. -/
def endSend (n code : Nat) (which : SendReq → Bool) : Prog := modPair n fun p => { p with
    sends := mark p.sends
    retries := bits (p.words.getD 1 0) 31 29
    rnrRetries := bits (p.words.getD 1 0) 28 26 }
where
  /-- Marks the first one. -/
  mark (rs : List SendReq) : List SendReq :=
    match rs with
    | [] => []
    | r :: rs => if r.status.isNone && which r then { r with status := some code } :: rs else r :: mark rs

/-- The request is an RDMA READ. -/
def isRead (r : SendReq) : Bool :=
  match r.op with
  | some (.readRequest _ _ _) => true
  | _ => false

/-- The outstanding requests of a pair. -/
def Pair.outstanding (p : Pair) : List SendReq := p.sends.filter fun r => r.status.isNone

/-- Sends every outstanding request again. -/
def retransmit (n : Nat) : Prog := .look fun s =>
  eachP (s.pair n).outstanding fun r => withP r.op fun op => roceSend n op r.psn

/-! ### Sequence numbers (R331) -/

/-- How far a sequence number lies ahead of another. -/
def psnAhead (a b : Nat) : Nat := (b + 2 ^ 24 - a % 2 ^ 24) % 2 ^ 24

/-- A sequence number lies before another, in the half of the space that counts as past. -/
def psnPast (b a : Nat) : Bool := decide (psnAhead b a < 2 ^ 23) && b != a

/-- A message is a request, and no answer. -/
def isRequest (op : RoceOp) : Bool :=
  match op with
  | .send _ => true | .sendTensor _ => true | .write _ _ _ => true | .writeImm _ _ _ _ => true | .readRequest _ _ _ => true
  | _ => false

/-- The sequence number that the next request of pair `n` has: those that wait count as taken. -/
def State.arrivalPsn (s : State) (n : Nat) : Nat :=
  let p := s.pair n
  (p.expPsn + ((s.rdmaIn.filter fun e => decide (e.1 = n) && isRequest e.2.2 && !psnPast e.2.1 p.expPsn).map fun e =>
    p.span e.2.2).sum) % 2 ^ 24

/-- The outstanding read that a response is for. -/
def Pair.readOf (p : Pair) (psn : Nat) : Option SendReq := p.outstanding.find? fun r => isRead r && r.psn == psn

/-- A read's data arrives. -/
def landResponse (es : SiteEcc) (n psn : Nat) (bs : List Byte) : Prog := .look fun s =>
  withP ((s.pair n).readOf psn) fun r =>
    whenP (wrLen r.words == bs.length) (localWrite es n (wrLocal r.words) bs (endSend n 0 fun q => isRead q && q.psn == psn))

/-- An outstanding request's last sequence number is `psn` or before it. -/
def Pair.acked (p : Pair) (psn : Nat) (r : SendReq) : Bool :=
  r.status.isNone && !isRead r && match r.op with
    | some op => !psnPast psn ((r.psn + p.span op - 1) % 2 ^ 24)
    | none => false

/-- An acknowledgement completes every outstanding request up to its number; one for none is stale and does nothing. -/
def endAcked (n psn : Nat) : Prog := .look fun s =>
  whenP ((s.pair n).sends.any ((s.pair n).acked psn)) (modPair n fun p => { p with
    sends := p.sends.map fun r => if p.acked psn r then { r with status := some 0 } else r
    retries := bits (p.words.getD 1 0) 31 29
    rnrRetries := bits (p.words.getD 1 0) 28 26 })

/-- A NAK is for an outstanding request; another is stale. -/
def Pair.awaits (p : Pair) (psn : Nat) : Bool := p.outstanding.any fun r => match r.op with
  | some op => decide (psnAhead r.psn psn < p.span op)
  | none => false

/-- What the outstanding requests of pair `n` do after a NAK that asks for them again. -/
def askedAgain (n left : Nat) (spend : Pair → Pair) : Prog :=
  if left = 0 then pairError n 0 else all [modPair n spend, retransmit n]

/-- The ranges of local memory that a message reaches at pair `n`. -/
def State.landRanges (s : State) (n psn : Nat) (op : RoceOp) : List (Nat × Nat) :=
  let p := s.pair n
  match op with
  | .send b => match p.waitingReceive with
    | some ws => [(wrLocal ws, b.length)]
    | none => []
  | .sendTensor b => match p.waitingReceive, readRecords (ofBytes (b.take 4)) (b.drop 16) with
    | some ws, some blocks =>
      [(wrLocal ws, storedBytes (wrImm ws) (tensorForm (blocks.map fun x => x.word)) * blocks.length),
        (wrWords ws, 8 * blocks.length), (wrIndex ws, 4 * blocks.length)]
    | _, _ => []
  | .write _ a b => [(a, b.length)]
  | .writeImm _ a b _ => [(a, b.length)]
  | .readRequest _ a len => [(a, len)]
  | .readResponse b => match p.readOf psn with
    | some r => [(wrLocal r.words, b.length)]
    | none => []
  | _ => []

/-- A message of pair `n` reaches memory that takes no access now (R314, R402), or the core takes no packets (R330). -/
def State.landWaits (s : State) (n psn : Nat) (op : RoceOp) : Bool :=
  !s.lintelOpen (128 + n / 256) || s.rangesWait (s.landRanges n psn op)

/-- A message waits for INCOMING_RDMA: nothing that arrived is dropped for lack of room (R330). -/
def keepArrived (n psn : Nat) (op : RoceOp) : Prog := withState fun s => .rdmaIn (s.rdmaIn ++ [(n, psn, op)])

/-- A request of the expected number is taken: an RDMA request waits to be served, and so does a message behind one or one that
cannot land. -/
def takeRequest (es : SiteEcc) (n psn : Nat) (op : RoceOp) : Prog := .look fun s =>
  if (s.rdmaIn.any fun e => decide (e.1 = n)) || s.landWaits n psn op then keepArrived n psn op
  else match op with
  | .send b => landSend es n b
  | .sendTensor b => landTensor es n b
  | _ => keepArrived n psn op

/-- A request whose number has been taken came again: a read is served again, and another is acknowledged again. -/
def repeatRequest (n psn : Nat) (op : RoceOp) : Prog := .look fun s =>
  match op with
  | .readRequest _ _ _ => keepArrived n psn op
  | _ => roceSend n .ack (((s.pair n).expPsn + 2 ^ 24 - 1) % 2 ^ 24)

/-- What an answer does to the outstanding requests of pair `n`. -/
def takeAnswer (es : SiteEcc) (n psn : Nat) (op : RoceOp) : Prog := .look fun s =>
  let p := s.pair n
  match op with
  | .readResponse b => if s.landWaits n psn op then keepArrived n psn op else landResponse es n psn b
  | .ack => endAcked n psn
  | .nakRemoteAccess => whenP (p.awaits psn) (pairError n 1)
  | .nakOther => whenP (p.awaits psn) (pairError n 1)
  | .nakReceiverNotReady => whenP (p.awaits psn) (askedAgain n p.rnrRetries fun x => { x with rnrRetries := x.rnrRetries - 1 })
  | .nakSequence => whenP (p.awaits psn) (askedAgain n p.retries fun x => { x with retries := x.retries - 1 })
  | _ => .skip

/-- What a message does that arrives at a ready pair. (DESIGN CHOICE: notes/assumptions/59.md.) -/
def rocePacket (es : SiteEcc) (n psn : Nat) (op : RoceOp) : Prog := .look fun s =>
  if !isRequest op then takeAnswer es n psn op
  else if psn = s.arrivalPsn n then takeRequest es n psn op
  else if psnPast psn (s.arrivalPsn n) then repeatRequest n psn op
  else roceSend n .nakSequence (s.arrivalPsn n)

/-- A frame arrives on port `e`: while the core takes no packets the port pauses its priority and the message waits (R330);
a frame with a bad ICRC, for another port or for a pair that is not ready is discarded.
(DEDUCED: notes/assumptions/60.md.) (DEDUCED: notes/assumptions/91.md.) -/
def roceProg (e : Nat) (f : RoceFrame) (es : SiteEcc) : Prog := .look fun s =>
  let n := 256 * (e / 4) + f.pair.val
  let p := s.pair n
  whenP (s.reg (0x2E20 + e) 0x01 == 1 && s.dieUp (e / 4)) (.seq
    (.seq (count64 (0x2E20 + e) 0x08 f.fecFixed) (count64 (0x2E20 + e) 0x09 f.fecLost))
    (all [
      whenP (!s.lintelOpen (128 + e / 4)) (.seq
        (.eff (.emit (.pause e (bits (p.words.headD 0) 50 48)))) (count64 (0x2E20 + e) 0x0A 1)),
      count64 (0x2E20 + e) 0x06 (p.packets (opLength f.op)),
      if !f.icrcOk then modPair n fun x => { x with icrcErrors := x.icrcErrors + 1 }
      else whenP (p.state == 1 && pairPort n p == e) (rocePacket es n f.psn f.op)]))

/-- ROCE_PACKET_RECEIVE (R331). -/
def execRocePacketReceive (e : EthPort) (f : RoceFrame) (ecc : SiteEcc) (s : State) : Host.Outcome State Fault Refusal :=
  finish (roceProg e f ecc) s

/-- The range and key of an incoming RDMA request. -/
def rdmaRange (op : RoceOp) : Nat × Nat × Nat :=
  match op with
  | .write k a b => (k, a, b.length)
  | .writeImm k a b _ => (k, a, b.length)
  | .readRequest k a n => (k, a, n)
  | _ => (0, 0, 0)

/-- The pair exposes a range to a key (R336). A request of length 0 is held to the range too (DESIGN CHOICE,
notes/assumptions/60.md). -/
def Pair.exposes (p : Pair) (r : Nat × Nat × Nat) : Bool :=
  let base := p.words.getD 2 0
  let len := p.words.getD 3 0
  decide (r.1 = p.words.getD 4 0 ∧ len ≠ 0 ∧ base ≤ r.2.1 ∧ r.2.1 + r.2.2 ≤ base + len)

/-- A message is an RDMA request. -/
def isRdma (op : RoceOp) : Bool :=
  match op with
  | .write _ _ _ => true | .writeImm _ _ _ _ => true | .readRequest _ _ _ => true
  | _ => false

/-- Serves a message of pair `n` that waits; `gone` takes it from the queue. One that is answered with a NAK takes those behind it
along, which its peer sends again. (DEDUCED: notes/assumptions/60.md.) -/
def serveRdma (es : SiteEcc) (n psn : Nat) (op : RoceOp) (gone : Prog) : Prog := .look fun s =>
  let p := s.pair n
  if p.state ≠ 1 then gone
  else if isRdma op && !p.exposes (rdmaRange op) then all [
    gone, dropArrived n, modPair n fun x => { x with nakked := x.nakked + 1 }, roceAnswer n .nakRemoteAccess]
  else if s.landWaits n psn op then .skip
  else match op with
  | .write _ a b => all [gone, localWrite es n a b (acknowledge n b.length)]
  | .writeImm _ a b imm =>
    if p.waitingReceive.isNone then all [gone, dropArrived n, roceAnswer n .nakReceiverNotReady]
    else all [gone, localWrite es n a b (all [endReceive n 0 imm, acknowledge n b.length])]
  | .readRequest _ a len => withLocal es n a len (.pair (n + 1024)) fun _ d => all [
      gone,
      if d.bad 0 len then pairError n 2
      else all [
        roceSend n (.readResponse (d.bytes 0 len)) psn,
        whenP (psn == p.expPsn) (modPair n fun x => { x with expPsn := (x.expPsn + x.packets len) % 2 ^ 24 })]]
  | .send b => all [gone, landSend es n b]
  | .sendTensor b => all [gone, landTensor es n b]
  | .readResponse b => all [gone, landResponse es n psn b]
  | _ => gone

/-- Serves the oldest message that waits at a die. -/
def incomingProg (q : Nat) (es : SiteEcc) : Prog := .look fun s =>
  whenP (s.dieUp q && s.lintelOpen (128 + q)) (withP (s.rdmaIn.find? fun e => decide (e.1 / 256 = q)) fun e =>
    serveRdma es e.1 e.2.1 e.2.2 (all [
      withState fun t => .rdmaIn (t.rdmaIn.erase e), dropHostData (.pair (e.1 + 1024))]))

/-- INCOMING_RDMA (R336). -/
def execIncomingRdma (q : Die) (ecc : SiteEcc) (s : State) : Host.Outcome State Fault Refusal :=
  finish (incomingProg q ecc) s

/-- CNP_RECEIVE (R331): the rate halves when its last halving lies 50 µs back. (DEDUCED: notes/assumptions/61.md.) -/
def execCnpReceive (q : Die) (i : PairNo) (usSinceHalving : Nat) (s : State) : Host.Outcome State Fault Refusal :=
  finish (whenP (s.dieUp q && (s.pair (256 * q.val + i.val)).state == 1 && decide (50 ≤ usSinceHalving))
    (modPair (256 * q.val + i.val) fun p => { p with rate := p.rate / 2 })) s

/-- RATE_INCREASE_TICK (R331): 55 µs without a CNP raise the rate by 1/64 of the port rate.
(DEDUCED: notes/assumptions/61.md.) -/
def execRateIncreaseTick (q : Die) (i : PairNo) (s : State) : Host.Outcome State Fault Refusal :=
  finish (whenP (s.dieUp q && (s.pair (256 * q.val + i.val)).state == 1)
    (modPair (256 * q.val + i.val) fun p => { p with rate := Nat.min (2 ^ 64) (p.rate + 2 ^ 58) })) s

/-- No acknowledgement came in time: everything outstanding is sent again, or the retries are exhausted. -/
def ackTimeoutProg (n : Nat) : Prog := .look fun s =>
  let p := s.pair n
  whenP (s.dieUp (n / 256) && p.state == 1 && !p.outstanding.isEmpty) (
    if p.retries = 0 then pairError n 0
    else all [modPair n fun x => { x with retries := x.retries - 1 }, retransmit n])

/-- ACK_TIMEOUT (R337). -/
def execAckTimeout (q : Die) (i : PairNo) (s : State) : Host.Outcome State Fault Refusal :=
  finish (ackTimeoutProg (256 * q.val + i.val)) s

/-! ## Completion (R334) -/

/-- Completes a request of pair `n` that has ended with a status and an immediate: the status word, then the flag. -/
def completeRequest (n : Nat) (ws : List Nat) (code imm : Nat) (gone : Prog) : Prog := .look fun s =>
  let c := (s.pair n).owner
  let ep := 0xD80 + n / 256
  let a := bits (ws.getD 5 0) 47 0
  whenP (!(bit (ws.headD 0) 17 && s.rangesWait [(a, 8)])) (all [
    gone,
    whenP (bit (ws.headD 0) 17) (match s.rangeFault c true a 8 with
      | some e => pairAccFailed n e
      | none => putParts [] false a (toBytes 8 (place code 48 + place imm 16)) (accessParts a 8)),
    whenP (bit (ws.headD 0) 16) (issueFlag 0x01 c ep (bits (ws.headD 0) 15 0) 0 (.pair n))])

/-- The oldest request of a queue of pair `n` completes once it has ended. -/
def requestComplete (n : Nat) (recv : Bool) : Prog := .look fun s =>
  let p := s.pair n
  whenP (s.dieUp (n / 256) && s.lintelOpen (128 + n / 256)) (
    if recv then match p.recvs with
      | (ws, some st) :: rest => completeRequest n ws st.1 st.2 (modPair n fun x => { x with recvs := rest })
      | _ => .skip
    else match p.sends with
      | r :: rest => withP r.status fun st =>
          completeRequest n r.words st 0 (modPair n fun x => { x with sends := rest })
      | [] => .skip)

/-- WORK_REQUEST_COMPLETE (R334). -/
def execWorkRequestComplete (q : Die) (i : PairNo) (recv : Bool) (s : State) : Host.Outcome State Fault Refusal :=
  finish (requestComplete (256 * q.val + i.val) recv) s

end Sys2Proof.Machine
end

