-- ==== Sys2Proof/Machine/Management.lean ====
section
/-! DEFINITION. CAN FD and CANopen FD, the timebase with PTP and PPS, and the JTAG instructions that do not reach the
dictionary (R340 to R346, R462, R463, R485). -/

namespace Sys2Proof.Machine

open Sys2Proof

/-! ## CAN (R340, R342) -/

/-- A bus works: the auxiliary supply is up and the lintel to it lets items through. -/
def State.busUp (s : State) (b : Nat) : Bool := s.auxOk && s.lintelOpen (132 + b)

/-- A bus goes bus-off. -/
def busOff (b : Nat) : Prog := .look fun s =>
  whenP (s.reg 0x2E30 (0x02 + b) != 2) (all [setReg 0x2E30 (0x02 + b) 2, report 0xA00F 6 0 b 0])

/-- CAN_BUS_OFF (R342). -/
def execCanBusOff (b : Bus) (s : State) : Host.Outcome State Fault Refusal :=
  finish (whenP (s.busUp b) (busOff b)) s

/-- BUS_OFF_RECOVERY (R342): 128 occurrences of 11 recessive bits have passed. -/
def execBusOffRecovery (b : Bus) (s : State) : Host.Outcome State Fault Refusal :=
  finish (whenP (s.reg 0x2E30 (0x02 + b.val) == 2) (all [setReg 0x2E30 (0x02 + b.val) 0, .eff (.can b {})])) s

/-- An error frame: the counters of ISO 11898-1 after it give the state of the bus. -/
def errorFrame (b : Nat) (e : CanErr) : Prog := .look fun s =>
  whenP (s.busUp b && s.reg 0x2E30 (0x02 + b) != 2) (all [
    count32 0x2E30 0x04 1,
    .eff (.can b { txErrors := e.transmit, rxErrors := e.receive }),
    if 255 < e.transmit then busOff b
    else setReg 0x2E30 (0x02 + b) (if 127 < e.transmit ∨ 127 < e.receive then 1 else 0)])

/-- CAN_ERROR_FRAME (R342). -/
def execCanErrorFrame (b : Bus) (st : CanErr) (s : State) : Host.Outcome State Fault Refusal := finish (errorFrame b st) s

/-! ## NMT and heartbeat (R340, R462) -/

/-- An NMT command reaches the node, over a bus that works and is not bus-off. -/
def State.nmtTaken (s : State) (node : Nat) : Bool :=
  s.booted && (node == 0 || node == s.nodeId) && [0, 1].any fun b => s.busUp b && s.reg 0x2E30 (0x02 + b) != 2

/-- NMT_START (R462): operational only after ready. (DEDUCED: notes/assumptions/99.md.) -/
def execNmtStart (node : Nat) (s : State) : Host.Outcome State Fault Refusal :=
  finish (whenP (s.nmtTaken node && s.ready) (.eff (.nmt .operational))) s

/-- NMT_STOP (R462). -/
def execNmtStop (node : Nat) (s : State) : Host.Outcome State Fault Refusal :=
  finish (whenP (s.nmtTaken node) (.eff (.nmt .stopped))) s

/-- The CANopen communication starts again: the node-ID, the heartbeat and the EMCY inhibit. -/
def communicationReset : Prog := all [
  withState fun s => .nodeId (s.reg 0x2E30 0x01),
  .eff (.emcyBusy false),
  .eff (.emcyResetOwed false),
  .eff (.nmt .preOperational),
  .eff (.emit .nmtBoot)]

/-- NMT_RESET_NODE (R462). -/
def execNmtResetNode (node : Nat) (s : State) : Host.Outcome State Fault Refusal :=
  finish (whenP (s.nmtTaken node) communicationReset) s

/-- NMT_RESET_COMMUNICATION (R462). -/
def execNmtResetCommunication (node : Nat) (s : State) : Host.Outcome State Fault Refusal :=
  finish (whenP (s.nmtTaken node) communicationReset) s

/-- The state code of a heartbeat (CiA 301; PRESUMED, notes/assumptions/26.md). -/
def nmtCode (n : Nmt) : Nat :=
  match n with
  | .initialising => 0 | .stopped => 4 | .operational => 5 | .preOperational => 127

/-- HEARTBEAT_TIMER (R340): one heartbeat on each bus. (DEDUCED: notes/assumptions/99.md.) -/
def execHeartbeatTimer (s : State) : Host.Outcome State Fault Refusal :=
  finish (whenP (s.booted && s.reg 0x1017 0x00 != 0) (eachP [0, 1] fun b =>
    whenP (s.busUp b && s.reg 0x2E30 (0x02 + b) != 2) (.eff (.emit (.heartbeat b (nmtCode s.nmt)))))) s

/-! ## Timebase (R343 to R345) -/

/-- One nanosecond of the module oscillator: the timebase counts, and a correction of 200 ppm adds or withholds one count
in 5,000 (DESIGN CHOICE, notes/assumptions/5.md). -/
def tick : Prog := .look fun s =>
  let t := s.now
  .seq (.eff (.oscillator (s.oscillator + 1)))
    (if s.oscillator ≠ 0 ∨ s.slew = 0 then setReg 0x2E40 0x01 ((t + 1) % 2 ^ 64)
     else if 0 < s.slew then all [setReg 0x2E40 0x01 ((t + 2) % 2 ^ 64), .eff (.slew (s.slew - 1))]
     else .eff (.slew (s.slew + 1)))

/-- The timebase logic is reached: its lintel is open. -/
def State.timebaseUp (s : State) : Bool := s.lintelOpen 135

/-- A sync message from the master: positive `offset` when the master is ahead. (DEDUCED: notes/assumptions/62.md.) -/
def syncProg (port domain : Nat) (offset : Int) : Prog := .look fun s =>
  whenP (s.timebaseUp && s.dieUp (port / 4) && s.reg 0x2E40 0x02 == port && s.reg 0x2E40 0x03 == domain
      && s.reg (0x2E20 + port) 0x01 == 1) (all [
    setReg 0x2E40 0x05 ((offset % 2 ^ 64).toNat),
    whenP (s.reg 0x2E40 0x04 != 1) (all [setReg 0x2E40 0x04 1, report 0xA011 2 (port / 4) port 0]),
    if 0 < offset ∧ (s.reg 0x2E40 0x06 : Int) ≤ offset then all [
      setReg 0x2E40 0x01 ((s.now + offset.toNat) % 2 ^ 64), .eff (.slew 0),
      report 0xA012 6 0 offset.toNat 0]
    else .eff (.slew offset)])

/-- PTP_SYNC_MESSAGE (R344). -/
def execPtpSyncMessage (port : EthPort) (domain : Nat) (offset : Int) (s : State) : Host.Outcome State Fault Refusal :=
  finish (syncProg port domain offset) s

/-- PTP_HOLDOVER (R345): no sync message for 3 s. -/
def execPtpHoldover (s : State) : Host.Outcome State Fault Refusal := finish ptpLost s

/-- PPS_IN_EDGE (R345): the second boundary nearest to the edge is slewed onto it.
(DEDUCED: notes/assumptions/62.md.) -/
def execPpsInEdge (s : State) : Host.Outcome State Fault Refusal :=
  finish (whenP (s.timebaseUp && s.reg 0x2E40 0x07 == 1 && s.reg 0x2E40 0x02 == 0xFF)
    (let r := s.now % second
     .eff (.slew (if 2 * r < second then -(r : Int) else (second : Int) - r)))) s

/-- PPS_OUT_SECOND (R345): the timebase reaches the next whole second and PPS_OUT rises.
(DEDUCED: notes/assumptions/62.md.) -/
def execPpsOutSecond (s : State) : Host.Outcome State Fault Refusal :=
  finish (whenP s.timebaseUp
    (let t := Nat.max (ceilDiv s.now second) s.ppsNext
     all [setReg 0x2E40 0x01 (t * second % 2 ^ 64), .eff (.ppsNext (t + 1)), .eff (.emit .ppsRise)])) s

/-! ## JTAG (R346, R485) -/

/-- The test access port works: the auxiliary supply is up and the lintel to it is open. -/
def State.tapUp (s : State) : Bool := s.auxOk && s.lintelOpen 134

/-- Shifts out what the boundary register captured: the levels of the pins, which the environment decides.
(DESIGN CHOICE: notes/assumptions/7.md.) -/
def capturePins : Prog := all [withState fun s => .emit (.tdo (Config.freeNat s.free)), .eff .draw]

/-- BYPASS (R346): the one-bit register shifts out the 0 that it captured and takes the bit shifted in. -/
def execBypass (tdi : Bool) (s : State) : Host.Outcome State Fault Refusal :=
  finish (whenP s.tapUp (all [.eff (.ir .bypass), .eff (.emit (.tdo 0)), .eff (.dr (if tdi then 1 else 0))])) s

/-- IDCODE (R346). -/
def execIdcode (s : State) : Host.Outcome State Fault Refusal :=
  finish (whenP s.tapUp (all [
    .eff (.ir .idcode), .eff (.emit (.tdo Config.idcode.toNat)), .eff (.dr Config.idcode.toNat)])) s

/-- SAMPLE_PRELOAD (R346). -/
def execSamplePreload (dr : Nat) (s : State) : Host.Outcome State Fault Refusal :=
  finish (whenP s.tapUp (all [.eff (.ir .sample), capturePins, .eff (.boundary dr)])) s

/-- EXTEST (R346): drives the pins from the boundary register while HRESET_N is low; acts as BYPASS at other times.
(DEDUCED: notes/assumptions/103.md.) -/
def execExtest (dr : Nat) (s : State) : Host.Outcome State Fault Refusal :=
  finish (whenP s.tapUp
    (if s.hresetLow then all [.eff (.ir .extest), capturePins, .eff (.boundary dr), .eff (.emit (.pins dr))]
     else all [.eff (.ir .bypass), .eff (.emit (.tdo 0)), .eff (.dr (dr % 2))])) s

end Sys2Proof.Machine
end

