-- ==== Sys2Proof/Machine/SwitchOff.lean ====
section
/-! DEFINITION. What main power takes with it when it goes, whether by a reset or by a protection (R355, R367, R413, R414,
R437, R442, R478, Table 17-6), and the island states that the power rules speak of. -/

namespace Sys2Proof.Machine

open Sys2Proof

/-- Every packet in Mortar, in an engine's issue queue or taken by an endpoint is lost, and so is what the host port was
asked for. -/
def dropNetwork : Prog := all [
  .eff (.dropNet 0 everyKey), .eff (.dropClaims 0 everyKey), .eff (.dropLinks 0 everyKey),
  .eff (.issue []), .eff (.delivered []), .eff (.hostWindow []), .eff (.hostData []), .eff (.rdmaIn [])]

/-! ## Self-calibration, due slices and Marigold runs that end -/

/-- The row of Table 16-6 that a self-calibration has reached (object 0x2110:02): a free value of 1 to 7 while one runs,
since the rows end by times that are typical only. (DEDUCED: notes/assumptions/65.md.) -/
def State.calRow (s : State) : Nat := if s.selfCal then 1 + Config.freeNat s.free % 7 else 0

/-- A self-calibration stops and writes nothing (R437). `why` numbers the cause for Config.selfCalStopCause. -/
def stopSelfCal (why : Nat) : Prog := .look fun s =>
  whenP s.selfCal (all [
    report 0xB00E 6 0 s.calRow (Config.selfCalStopCause why),
    .eff (.selfCal false), .eff .draw])

/-- Cancels every due slice that has not started (R413). (DEDUCED: notes/assumptions/66.md.) -/
def cancelDue (cause : Nat) : Prog := .look fun s =>
  whenP (cause == 0 || !s.due.isEmpty) (all [.eff (.due []), report 0x900B 6 0 s.due.length cause])

/-- A Marigold run ends before its last step: no finding is recorded (R418, event 0x9009).
(DEDUCED: notes/assumptions/66.md.) -/
def dropMarigoldRun (i : Nat) : Prog := .look fun s =>
  whenP (s.mari i).isSome (all [.eff (.marigold i none), report 0x9009 3 i i 0xFFFF])

/-- Everything of self-test that a reset of compute width or wider, or a switch-off, ends.
(DEDUCED: notes/assumptions/66.md.) -/
def endTests (why : Nat) : Prog := .look fun s => all [
  abortSlices (s.slices.map fun r => r.site) 1,
  eachP (List.range 24) dropMarigoldRun,
  stopSelfCal why,
  .eff (.memTest none)]

/-! ## Links -/

/-- Both host links and every Ethernet link go down. -/
def linksDown : Prog := all [eachP [0, 1] linkDown, eachP (List.range 16) ethDown]

/-! ## Self-refresh (R306, R442, Table 17-5) -/

/-- The online stacks enter self-refresh. (DEDUCED: notes/assumptions/84.md.) -/
def selfRefresh : Prog := .look fun s => eachP (List.range 32) fun k =>
  whenP (s.reg (0x4100 + k) 0x01 == 1) (setReg (0x4100 + k) 0x01 3)

/-- The stacks leave self-refresh. -/
def leaveSelfRefresh : Prog := .look fun s => eachP (List.range 32) fun k =>
  whenP (s.reg (0x4100 + k) 0x01 == 3) (setReg (0x4100 + k) 0x01 1)

/-! ## Switch-off (R355, R367, R478) -/

/-- Every domain of Table 13-1 goes off: what ran on them is lost, so the running contexts die with cause `death` and
nothing can be written to memory for them. (DEDUCED: notes/assumptions/75.md.) -/
def switchOff (death : Nat) : Prog := .look fun s =>
  whenP s.mainOn (all [
    .eff (.mainOn false),
    whenP (s.reg 0x20F0 0x01 != 0x0D) (setReg 0x20F0 0x01 0x0E),
    .eff (.reset_ none), .eff (.resetWaiting none), .eff (.partResets []),
    eachP (List.range 64) fun c => killContext c death,
    endTests 2,
    dropNetwork,
    linksDown,
    selfRefresh,
    eachP (List.range 24) fun i => all [setReg (0x4000 + i) 0x01 0, modIsland i fun x => { dark := x.dark, owed := x.owed }]])

/-- PWR_GOOD (R481): every domain is in regulation. -/
def State.pwrGood (s : State) : Bool := s.mainOn && decide (5 ≤ s.bringUpStep)

/-- ALERT_N is driven low (R481). -/
def State.alertLow (s : State) : Bool := s.reg 0x1001 0x00 != 0

/-! ## Islands (R359) -/

/-- The power state of an island: 0 off, 1 waiting, 2 ramping, 3 on, 4 tripped. -/
def State.islandState (s : State) (i : Nat) : Nat := s.reg (0x4000 + i) 0x01

/-- An island is on or ramping. -/
def State.islandUp (s : State) (i : Nat) : Bool := s.islandState i == 2 || s.islandState i == 3

/-- The power actions of an island are held: its field's are, or the controller restarts (R363, R388). -/
def State.islandHeld (s : State) (i : Nat) : Bool := s.powerHeld (islandField i) || s.controllerDown

/-- A region belongs to a defined partition (R51). -/
def State.inPartition (s : State) (r : Nat) : Bool := s.partitionOf r != 0

/-- The device runs from the ROM table (R433). -/
def State.romTable (s : State) : Bool := s.reg 0x2100 0x02 == 1

/-- The failed phases of a group. -/
def State.failedPhases (s : State) (i g : Nat) : Nat := popCount 8 (s.reg (0x4000 + i) 0x0B / 2 ^ (8 * g) % 256)

/-- A group is dark (R354). -/
def State.groupDark (s : State) (i g : Nat) : Bool := (s.island i).dark.testBit g

/-- A site lies in a dark group. -/
def State.siteDark (s : State) (n : Nat) : Bool := s.groupDark (siteIsland n) (siteGroup n)

/-- A group's limit in tenths of an ampere (R348, R352). -/
def State.groupLimit (s : State) (i g : Nat) : Nat :=
  if s.groupDark i g then 0 else if s.failedPhases i g = 0 then 1600 else 1408

end Sys2Proof.Machine
end

