-- ==== Sys2Proof/Machine/Power.lean ====
section
/-! DEFINITION. Power delivery, thermal limits, beat rates and re-plans (chapter 13). -/

namespace Sys2Proof.Machine

open Sys2Proof

/-! ## Phase loss (R352, R354) -/

/-- Reports the dark groups of an island whose sites are all fenced (R354). -/
def reportDark (i : Nat) : Prog := eachP (List.range 6) fun g => .look fun s =>
  whenP ((s.island i).owed.testBit g && (groupSites i g).all s.isFenced) (all [
    modIsland i fun x => { x with owed := clearBit x.owed g },
    reportRegions 0x1002 3 i (pairArg i g) (2 ^ islandRegion i)])

/-- A group goes dark: the contexts with a section on its sites die, what the sites hold is lost, and every one of them
that is not fenced is to be fenced. Each site has a fault of Table 14-1. (DEDUCED: notes/assumptions/120.md.) -/
def goDark (i g : Nat) : Prog := .look fun s =>
  let sites := groupSites i g
  all [
    modIsland i fun x => { x with dark := setBit x.dark g, owed := setBit x.owed g },
    eachP (s.sectionCtxs sites) fun c => killContext c 0x1002,
    abortSlices sites 1,
    eachP sites fun n => .look fun t => all [
      addEvidence,
      setReg (0x3000 + n) 0xB4 0x02,
      withP (t.tileOf n) loseTile,
      wipeSite n,
      whenP (!t.isFenced n) (wantFence ⟨n, 0x02, none⟩)],
    reportDark i]

/-- A phase fails: it is disabled for good and its group derated; a second one takes the group. -/
def phaseFaultProg (i g k : Nat) : Prog := .look fun s =>
  let b := 8 * g + k
  whenP (s.mainOn && !(s.reg (0x4000 + i) 0x0B).testBit b) (all [
    setReg (0x4000 + i) 0x0B (setBit (s.reg (0x4000 + i) 0x0B) b),
    report 0x1001 3 i i (pairArg g k),
    whenP (s.failedPhases i g == 1) (goDark i g)])

/-- PHASE_FAULT (R352). -/
def execPhaseFault (i : Island) (group : Fin 6) (phase : Fin 8) (_kind : PhaseFaultKind) (s : State) :
    Host.Outcome State Fault Refusal := finish (phaseFaultProg i group phase) s

/-! ## Pacing (R353, R357, R433) -/

/-- The sixteenths for which a group is held at least: 4 under the ROM table. -/
def State.minHold (s : State) : Nat := if s.romTable then 4 else 0

/-- The ageing offset that an island applies: a new one comes into effect at 1 mV per µs (R371). -/
def State.appliedOffset (s : State) (i : Nat) : Nat := ((s.reg (0x4000 + i) 0x04 : Int) - (s.island i).offsetLeft).toNat

/-- The lowest target of an island: the floor plus its ageing offset (R349). -/
def State.lowestTarget (s : State) (i : Nat) : Nat := min 850 (s.reg 0x2230 0x03 + s.appliedOffset i)

/-- An island is above its budget with its target at the floor, so the limiter acts on every group (R357). -/
def State.atFloor (s : State) (i : Nat) : Bool :=
  let x := s.island i
  decide (x.budgetW < x.measured) && decide (s.reg (0x4000 + i) 0x03 ≤ s.lowestTarget i)

/-- The mask of the groups that are held. -/
def heldMask (hold : List Nat) : Nat := (List.range 6).foldl (fun m g => if 0 < hold.getD g 0 then setBit m g else m) 0

/-- One microsecond of a group's pacing limiter, whose hold stays as it stood while the field's actions are held (R363).
(DEDUCED: notes/assumptions/70.md.) -/
def pacingProg (i g amps10 : Nat) : Prog := .look fun s =>
  let x := s.island i
  let limit := s.groupLimit i g
  let h := max s.minHold (x.hold.getD g 0)
  let up := decide (limit ≤ amps10) || s.atFloor i
  let low := decide (amps10 * 100 < limit * 95) && !up
  let q := if low then x.quiet.getD g 0 + 1 else 0
  let h' := if up then min 16 (h + 1) else if q = 10 then max s.minHold (h - 1) else h
  let kept := s.islandHeld i
  let held := if kept then x.hold.getD g 0 else h'
  whenP (s.mainOn && s.islandUp i && !s.groupDark i g) (all [
    whenP (!kept) (modIsland i fun y => { y with hold := y.hold.set g h', quiet := y.quiet.set g (if q = 10 then 0 else q) }),
    whenP (decide (0 < held)) (all [
      count64 (0x4000 + i) 0x10 (held * 1000 / 16),
      .look fun t => reportLimited 0x100B i second 3 i i (heldMask (t.island i).hold)])])

/-- PACING_TICK (R353). -/
def execPacingTick (i : Island) (group : Fin 6) (amps10 : Nat) (s : State) : Host.Outcome State Fault Refusal :=
  finish (pacingProg i group amps10) s

/-! ## Input supply (R355) -/

/-- The effective module budget: below 40 V the input current stays at or below 312.5 A.
(DEDUCED: notes/assumptions/67.md.) -/
def State.effectiveBudget (s : State) : Nat :=
  let b := s.reg 0x2200 0x01
  if s.input.under then min b (s.reg 0x2200 0x02 * 3125 / 10000) else b

/-- A request for a reset by the device itself, which Machine/Resets.lean answers: main power has been away by an input
switch-off and the input has been good for 1 s. (DEDUCED: notes/assumptions/74.md.) -/
def State.inputBack (s : State) (x : InputCore) : Bool :=
  x.good == 100000 && s.reg 0x20F0 0x01 == 0x0E && (List.range 24).all (fun i => s.islandState i != 4) && s.reset_.isNone

/-- The counts of consecutive samples after one of `mV`. -/
def InputCore.after (x : InputCore) (mV : Nat) : InputCore where
  low := if mV < 36000 then x.low + 1 else 0
  good := if 40000 ≤ mV ∧ mV ≤ 60000 then x.good + 1 else 0
  under := decide (mV < 40000)

/-- One sample of the input, every 10 µs: the budget below 40 V, and the switch-off after 100 samples below 36 V or one
above 63 V. (DEDUCED: notes/assumptions/67.md.) -/
def inputProg (mV powerW : Nat) : Prog := .look fun s =>
  let x := s.input.after mV
  all [
    setReg 0x2200 0x02 (min mV 65535), setReg 0x2200 0x03 (min powerW 65535),
    .eff (.input x),
    whenP (s.mainOn && x.under && !s.input.under) (report 0x1005 6 0 mV 0),
    whenP (s.mainOn && (decide (100 ≤ x.low) || decide (63000 < mV))) (all [
      switchOff 0x1006, report 0x1006 6 0 mV 0])]

/-! ## Budgets and loans (R356 to R358, R361 to R363, R366) -/

/-- A share of `w` watts under a thermal cap. -/
def IslandCore.share (x : IslandCore) (w : Nat) : Nat := w * x.capPct / 100

/-- What an island has borrowed less what it has lent. -/
def State.netLoan (s : State) (i : Nat) : Int :=
  ((s.loans.filter fun l => decide (l.borrower = i)).map fun l => (l.watts : Int)).sum
    - ((s.loans.filter fun l => decide (l.lender = i)).map fun l => (l.watts : Int)).sum

/-- The watts on loan. -/
def State.lent (s : State) : Nat := (s.loans.map fun l => l.watts).sum

/-- The loan objects follow the list of loans. -/
def refreshLoans : Prog := .look fun s => all [
  setReg 0x2210 0x04 (min 65535 s.lent),
  eachP (List.range 24) fun i => setReg (0x4000 + i) 0x0A (unsigned 16 (s.netLoan i))]

/-- Ends a loan (R362). -/
def endLoan (l : Loan) : Prog := all [
  withState fun s => .loans (s.loans.erase l), count64 0x2210 0x06 1]

/-- A loan `l` to a held field stays, and the ended loan `e` covers its recall: its lender has the watts that `e` set free, and
as many of `l` now come from it (R363). -/
def coverWith (l e : Loan) (ls : List Loan) : List Loan :=
  let w := min l.watts e.watts
  { l with lender := e.lender, watts := w } :: ((if l.watts = w then [] else [{ l with watts := l.watts - w }]) ++ ls.erase l)

/-- The loans that a period recalls (R362, R363): those of an island that is not up, then as many of the newest as bring
each lender within its pool, passing over borrowers in held fields, whose loans the other borrowers cover.
(DESIGN CHOICE: notes/assumptions/69.md.) -/
def recallFor (i pool fuel : Nat) : Prog :=
  match fuel with
  | 0 => .skip
  | n + 1 => .look fun s =>
    let mine := s.loans.filter fun l => decide (l.lender = i)
    let free := fun (l : Loan) => !s.islandHeld l.borrower
    whenP (decide (pool < (mine.map fun l => l.watts).sum))
      (match (mine.filter free).getLast? with
       | some l => .seq (endLoan l) (recallFor i pool n)
       | none => withP mine.getLast? fun l =>
          withP (s.loans.filter fun e => free e && decide (e.lender ≠ l.borrower)).getLast? fun e => all [
            endLoan e, withState fun t => .loans (coverWith l e t.loans), recallFor i pool n])

/-- Ends the loans from and to islands that are not on or ramping. -/
def recallLost : Prog := .look fun s =>
  eachP (s.loans.filter fun l => !s.islandUp l.lender || !s.islandUp l.borrower) endLoan

/-- Recalls of one period, lenders in ascending island number. -/
def recallAll : Prog := .look fun s => .seq recallLost
  (eachP (List.range 24) fun i => recallFor i (s.island i).pool s.loans.length)

/-- An island may lend or borrow (R361). -/
def State.mayDeal (s : State) (i : Nat) : Bool := s.islandState i == 3 && !s.islandHeld i

/-- An island is within 2 % of its budget. -/
def State.nearBudget (s : State) (i : Nat) : Bool := decide ((s.island i).budgetW * 98 ≤ (s.island i).measured * 100)

/-- The hundredths of a watt that slices of an island have reserved, from its pool or from its budget headroom (R364). -/
def State.sliceReserved (s : State) (i : Nat) (pool : Bool) : Nat :=
  let of := fun (site : Nat) (r : Option Reservation) => match r with
    | some x => if siteIsland site = i ∧ x.pool = pool then x.centiwatts else 0
    | none => 0
  (s.due.map fun d => of d.site d.power).sum + (s.slices.map fun r => of r.site r.power).sum

/-- What loans and reservations leave of an island's pool, in hundredths of a watt (R361, R364). -/
def State.poolLeft (s : State) (i : Nat) : Nat :=
  100 * (s.island i).pool - 100 * ((s.loans.filter fun l => decide (l.lender = i)).map fun l => l.watts).sum
    - s.sliceReserved i true

/-- A new loan to an island: from the lowest-numbered island whose pool has the minimum loan left, of a free number of
watts between the minimum and what the pool and the cap allow. (DESIGN CHOICE: notes/assumptions/7.md.)
(DESIGN CHOICE: notes/assumptions/69.md.) -/
def lendTo (m : PowerReadings) (i : Nat) : Prog := .look fun s =>
  let least := s.reg 0x2210 0x07
  let room := min (s.reg 0x2210 0x02) (14000 - s.reg 0x2200 0x01) - s.lent
  let left := fun (j : Nat) =>
    min room (s.poolLeft j / 100)
  whenP (s.reg 0x2210 0x01 == 1 && !s.romTable && s.mayDeal i && s.nearBudget i && !(m.nearLimit.any fun j => decide (j.val = i)))
    (withP ((List.range 24).find? fun j => decide (j ≠ i) && s.mayDeal j && decide (0 < left j ∧ least ≤ left j)) fun j =>
      let lo := max 1 least
      let w := lo + Config.freeNat s.free % (left j - lo + 1)
      all [
        .eff .draw, .eff (.loans (s.loans ++ [⟨j, i, w⟩])), count64 0x2210 0x05 1,
        modIsland i fun x => { x with budgetW := x.budgetW + w },
        modIsland j fun x => { x with budgetW := x.budgetW - w }])

/-- Sets the budgets of a period: equal base shares of the main-die budget, thermal caps and loans.
(DEDUCED: notes/assumptions/67.md.) -/
def setBudgets (mainDie : Nat) (m : PowerReadings) : Prog := .look fun s =>
  let ups := (List.range 24).filter s.islandUp
  let base := if ups.length = 0 then 0 else mainDie / ups.length
  eachP (List.range 24) fun i =>
    let b := if s.islandUp i then base else 0
    whenP (!s.islandHeld i) (all [
      setReg (0x4000 + i) 0x09 (min 65535 b),
      modIsland i fun x => { x with budgetW := ((x.share b : Int) + s.netLoan i).toNat, measured := m.islandW.getD i 0 }])

/-- Table 13-4 in hundredths of a watt. -/
def ratedPower (n : Nat) : Nat := match siteType n with
  | 0 => 460 | 1 => 160 | _ => 220

/-- What the tile of a site offers, in hundredths of a watt: the difference between its active power and what it draws in
wait-idle (R361). (DESIGN CHOICE: notes/assumptions/121.md.) -/
def State.offerOf (s : State) (m : PowerReadings) (n : Nat) : Nat :=
  if s.idleAt n = 1 then
    match m.idleCw.find? fun x => decide (x.1.val = n) with
    | some x => ratedPower n - x.2
    | none => 0
  else 0

/-- The pool of an island: the sum of its tiles' offers, in whole watts (R361). -/
def State.poolOf (s : State) (m : PowerReadings) (i : Nat) : Nat := ((islandSites i).map (s.offerOf m)).sum / 100

/-- The pools of a period (R361). -/
def setPools (m : PowerReadings) : Prog := .look fun s => eachP (List.range 24) fun i =>
  modIsland i fun x => { x with pool := s.poolOf m i }

/-- The new loans of a period, the last of its demands (R358, R361). -/
def lendAll (m : PowerReadings) : Prog := .look fun s =>
  whenP (s.mainOn && !s.controllerDown) (.seq (eachP (List.range 24) (lendTo m)) refreshLoans)

/-- One 50 µs period of the power manager, in the order of R358 up to the recalls. -/
def budgetProg (m : PowerReadings) : Prog := .look fun s =>
  let eff := s.effectiveBudget
  let excess := max (m.mean10msW - 14000) (m.mean1sW - eff)
  whenP (s.mainOn && !s.controllerDown) (all [
    setReg 0x2200 0x04 (max (s.reg 0x2200 0x04) (min 65535 m.mean10msW)),
    whenP (decide (14000 < m.mean10msW)) (reportLimited 0x1007 0 second 6 0 0 m.mean10msW),
    whenP (decide (eff < m.mean1sW)) (reportLimited 0x1007 1 second 6 0 1 m.mean1sW),
    setPools m,
    recallAll,
    setBudgets (eff - m.hbmW - m.quoinW - m.converterW - excess) m])

/-- OFFER_HOLD_EXPIRE (R362): a tile may offer again, and one that is in wait-idle does. -/
def execOfferHoldExpire (site : Site) (s : State) : Host.Outcome State Fault Refusal :=
  finish (all [
    .eff (.offerHold site false),
    .look fun t => whenP (t.idleAt site == 2 && !t.powerHeld (siteField site)) (.eff (.idle site 1))]) s

/-! ## Minimum-voltage steering (R349 to R351, R357, R419, R433) -/

/-- The margin by which a Marigold run lowers an island's target. -/
def State.marginOf (s : State) (i : Nat) : Option Nat :=
  match s.mari i with
  | some r => if r.reached then some r.margin else none
  | none => none

/-- The target of an island before a Marigold margin. -/
def State.baseTarget (s : State) (i : Nat) : Nat :=
  if s.romTable then 800
  else
    let t := s.reg 0x2230 0x01 + s.appliedOffset i - (s.island i).reduction
    min 850 (max (s.lowestTarget i) t)

/-- The target of an island. -/
def State.targetOf (s : State) (i : Nat) : Nat :=
  match s.marginOf i with
  | some m => max 620 (s.baseTarget i - m)
  | none => s.baseTarget i

/-- How the budget moves the target in one microsecond: 5 mV down while the island is above its budget and above the
floor, 5 mV up in each 100 µs while it is below 95 % of it. -/
def budgetStep (i : Nat) : Prog := .look fun s =>
  let x := s.island i
  if x.budgetW < x.measured then
    modIsland i fun y => { y with
      reduction := if s.lowestTarget i < s.baseTarget i then y.reduction + 5 else y.reduction, raise_ := 0 }
  else if x.measured * 100 < x.budgetW * 95 ∧ 0 < x.reduction then
    modIsland i fun y =>
      if y.raise_ + 1 = 100 then { y with reduction := y.reduction - 5, raise_ := 0 } else { y with raise_ := y.raise_ + 1 }
  else modIsland i fun y => { y with raise_ := 0 }

/-- The sum of the readings of a list, and how many there are. -/
def meanOf (xs : List Nat) : Nat × Nat := (xs.sum, xs.length)

/-- Two means differ by more than 50 mV. -/
def meansDiffer (a b : Nat × Nat) : Bool :=
  decide (a.2 ≠ 0 ∧ b.2 ≠ 0 ∧ (a.1 * b.2 - b.1 * a.2) + (b.1 * a.2 - a.1 * b.2) > 50 * a.2 * b.2)

/-- A reading is implausible (R351). -/
def implausible (mv : Nat) : Bool := decide (mv < 300 ∨ 1000 < mv)

/-- The lowest reading of a list with its site, the earlier on a tie. -/
def lowestReading (xs : List (Nat × Nat)) : Option (Nat × Nat) :=
  xs.foldl (fun b x => match b with
    | none => some x
    | some y => if x.2 < y.2 then some x else some y) none

/-- Records a new lowest reading of an object's minimum record, and its site and time (R350). -/
def recordMinimum (idx : Nat) (r : Nat × Nat) : Prog := .look fun s =>
  whenP (decide (r.2 < s.reg idx 0x05)) (all [setReg idx 0x05 r.2, setReg idx 0x06 s.now, setReg idx 0x07 r.1])

/-- An implausible reading counts and is reported once per site per hour. -/
def implausibleReading (i : Nat) (r : Nat × Nat) : Prog := all [
  count32 (0x4000 + i) 0x0F 1, reportLimited 0x100C r.1 hour 3 i r.1 r.2]

/-- Group `g` of an island reads as its reference sensors do, or not (R351). (DEDUCED: notes/assumptions/71.md.) -/
def groupCheck (i : Nat) (valid : List (Nat × Nat)) (refs : List Nat) (g : Nat) : Prog := .look fun s =>
  let d := meansDiffer (meanOf refs) (meanOf ((valid.filter fun r => decide (siteGroup r.1 = g)).map fun r => r.2))
  all [
    modIsland i fun x => { x with disagree := if d then setBit x.disagree g else clearBit x.disagree g },
    whenP (d && !(s.island i).disagree.testBit g) (report 0x100D 3 i i g)]

/-- The voltage that a regulator steers by: the lowest valid site reading, or the lowest of its reference sensors while a
group's sensors disagree with them (R349, R351). (DESIGN CHOICE: notes/assumptions/122.md.) -/
def State.sensedMv (s : State) (i : Nat) (valid : List (Nat × Nat)) (refs : List Nat) : Option Nat :=
  if (s.island i).disagree = 0 then (lowestReading valid).map fun x => x.2
  else refs.foldl (fun m x => some (match m with | some y => min y x | none => x)) none

/-- One sample of an island's regulator (R349, R365; the 1 mV by sample is a DESIGN CHOICE: notes/assumptions/119.md). -/
def regulatorProg (i : Nat) (r : RegulatorReading) : Prog := .look fun s =>
  let sites := (r.sites.filter fun x => decide (siteIsland x.1 = i)).map fun x => (x.1.val, x.2)
  let on := s.islandState i == 3
  let bad := sites.filter fun x => on && implausible x.2
  let valid := sites.filter fun x => !(on && implausible x.2)
  whenP (s.mainOn && s.islandUp i) (all [
    setReg (0x4000 + i) 0x08 (min 65535 r.amps),
    whenP (!r.references.isEmpty) (setReg (0x4000 + i) 0x0D (unsigned 16 (r.references.foldl (fun m x => max m x.2) (-32768)))),
    eachP sites fun x => setReg (0x3000 + x.1) 0xA0 (min 65535 x.2),
    eachP bad (implausibleReading i),
    eachP (List.range 6) (groupCheck i valid (r.references.map fun x => x.1)),
    withP (lowestReading valid) fun x => all [
      recordMinimum (0x4000 + i) x, recordMinimum 0x2200 x,
      whenP (decide (x.2 < s.reg 0x2230 0x02)) (reportLimited 0x1004 i second 3 i i (pairArg x.2 x.1))],
    whenP (!s.islandHeld i) (all [
      modIsland i fun y => { y with offsetLeft := y.offsetLeft - y.offsetLeft.sign },
      budgetStep i,
      withState fun t => .regs (rk (0x4000 + i) 0x03) (t.targetOf i)]),
    .look fun t => withP (t.sensedMv i valid (r.references.map fun x => x.1)) fun v =>
      modIsland i fun y => { y with correction := (t.reg (0x4000 + i) 0x03 : Int) - v }])

/-- REGULATOR_SAMPLE (R349). -/
def execRegulatorSample (i : Island) (r : RegulatorReading) (s : State) : Host.Outcome State Fault Refusal :=
  finish (regulatorProg i r) s

/-- The write of object 0x2200:08. -/
def minimumRecordsCommand (v : Nat) : Command where
  effect := whenP (v != 0) (all [
    clearRegs 0x2200 0x05 0x07, eachP (List.range 24) fun i => clearRegs (0x4000 + i) 0x05 0x07])

/-- RESET_MINIMUM_RECORDS (R350). -/
def execResetMinimumRecords (p : Path) (v : Nat) (s : State) : Host.Outcome State Fault Refusal :=
  finish (commandWrite p 0x2200 0x08 (minimumRecordsCommand v)) s

/-! ## Island power (R359, R360) -/

/-- The state of a tile that loses its power is lost, and its slots and registers start empty. -/
def powerDownSite (n : Nat) : Prog := .look fun s => all [
  withP (s.tileOf n) discardTile,
  wipeSite n,
  clearRegs (0x3000 + n) 0x70 0x71,
  setReg (0x3000 + n) 0x50 0]

/-- An island goes off: its slices stop and what its tiles hold is lost. (DEDUCED: notes/assumptions/72.md.) -/
def islandOff (i : Nat) : Prog := .look fun s => all [
  abortSlices (islandSites i) 2,
  dropMarigoldRun i,
  whenP (s.islandUp i) (eachP (islandSites i) powerDownSite),
  setReg (0x4000 + i) 0x01 0,
  modIsland i fun x => { dark := x.dark, owed := x.owed },
  report 0x100A 3 i i 0]

/-- The write of object 0x4000 + i:02 with value `v`. (DEDUCED: notes/assumptions/72.md.) -/
def islandCommand (i v : Nat) : Command where
  valueOk _ := decide (v < 2)
  stateOk s :=
    if v = 1 then s.mainOn && s.islandState i == 0 && !s.fieldsOff.testBit (islandField i)
    else !s.inPartition (islandRegion i) || s.islandState i == 1
  effect :=
    if v = 1 then all [setReg (0x4000 + i) 0x01 1, modIsland i fun x => { dark := x.dark, owed := x.owed }]
    else .look fun s =>
      whenP (decide (1 ≤ s.islandState i ∧ s.islandState i ≤ 3))
        (if s.islandHeld i then modIsland i fun x => { x with offHeld := true } else islandOff i)

/-- ISLAND_POWER_ON (R359). -/
def execIslandPowerOn (p : Path) (i : Island) (s : State) : Host.Outcome State Fault Refusal :=
  finish (commandWrite p (0x4000 + i) 0x02 (islandCommand i 1)) s

/-- ISLAND_POWER_OFF (R359). -/
def execIslandPowerOff (p : Path) (i : Island) (s : State) : Host.Outcome State Fault Refusal :=
  finish (commandWrite p (0x4000 + i) 0x02 (islandCommand i 0)) s

/-- The first neighbour group, if any, that does not draw less than the threshold of its limit (R360). A group that is
not listed draws nothing, and a dark group has nothing to compare. (DEDUCED: notes/assumptions/71.md.) -/
def State.busyNeighbour (s : State) (i : Nat) (draw : List GroupDraw) : Option (Nat × Nat) :=
  ((islandNeighbours i).flatMap fun j => (List.range 6).map fun g => (j, g)).find? fun x =>
    let a := ((draw.find? fun d => decide (d.island.val = x.1 ∧ d.group.val = x.2)).map fun d => d.amps10).getD 0
    !s.groupDark x.1 x.2 && !decide (a * 100 < s.reg 0x2220 0x02 * s.groupLimit x.1 x.2)

/-- Nothing but the neighbours' draw keeps a waiting island from ramping: no neighbour ramps, no lower-numbered one waits, and
at bring-up no lower-numbered island waits whose steward runs (R359, R360). -/
def State.rampTurn (s : State) (i : Nat) : Bool :=
  ((islandNeighbours i).all fun j => s.islandState j != 2 && !(s.islandState j == 1 && decide (j < i)))
    && (s.bringUpStep != 4 || (List.range i).all fun j => s.islandState j != 1 || !s.stewardUp (islandField j))

/-- A ramp starts at full or half slew. -/
def startRamp (i : Nat) (half : Bool) : Prog := .look fun s => all [
  setReg (0x4000 + i) 0x01 2,
  modIsland i fun x => { x with half := half, waitedUs := 0, slew := (if half then 5 else 10) * s.reg 0x2220 0x01 }]

/-- A waiting island has waited for the limit: with a limit of 0 ms every waiting island has. -/
def State.rampLate (s : State) (i : Nat) : Bool := decide (s.reg 0x2220 0x03 * 1000 ≤ (s.island i).waitedUs)

/-- A ramp starts at half slew, whatever the neighbours draw, and is reported with a neighbour group above the threshold,
or with 255 and 255 where none is; it keeps its turn among waiting and ramping neighbours.
(DESIGN CHOICE: notes/assumptions/71.md.) -/
def startLate (i : Nat) (draw : List GroupDraw) : Prog := .look fun s =>
  let x := (s.busyNeighbour i draw).getD (255, 255)
  all [startRamp i true, report 0x1003 3 i i (pairArg x.1 x.2)]

/-- A waiting island is checked every 10 µs. -/
def rampCheckProg (i : Nat) (draw : List GroupDraw) : Prog := .look fun s =>
  whenP (s.mainOn && s.islandState i == 1 && !s.islandHeld i)
    (if s.rampLate i && s.rampTurn i then startLate i draw
     else if s.rampTurn i && (s.busyNeighbour i draw).isNone then startRamp i false
     else modIsland i fun x => { x with waitedUs := x.waitedUs + 10 })

/-- RAMP_CHECK (R360). -/
def execRampCheck (i : Island) (draw : List GroupDraw) (s : State) : Host.Outcome State Fault Refusal :=
  finish (rampCheckProg i draw) s

/-- The wait limit of a waiting island ends. -/
def rampLimitProg (i : Nat) (draw : List GroupDraw) : Prog := .look fun s =>
  whenP (s.mainOn && s.islandState i == 1 && !s.islandHeld i && s.rampLate i && s.rampTurn i) (startLate i draw)

/-- RAMP_WAIT_LIMIT (R360). -/
def execRampWaitLimit (i : Island) (draw : List GroupDraw) (s : State) : Host.Outcome State Fault Refusal :=
  finish (rampLimitProg i draw) s

/-- An island is on. -/
def islandOn (i us : Nat) : Prog := .look fun s => all [
  setReg (0x4000 + i) 0x01 3,
  whenP (!s.islandHeld i) (withState fun t => .regs (rk (0x4000 + i) 0x03) (t.targetOf i)),
  report 0x1009 3 i i us]

/-- A ramp of so many microseconds was long enough: its current rises to 160 A at the ramp's slew and holds until the target is
reached, and the island is on 1 ms after that (R360). -/
def State.rampLong (s : State) (i us : Nat) : Bool := decide (1600 ≤ (us - 1000) * (s.island i).slew)

/-- A ramp ends once every valid reading is within 10 mV of the target. -/
def rampDoneProg (i lowest highest us : Nat) : Prog := .look fun s =>
  let t := s.targetOf i
  whenP (s.mainOn && s.islandState i == 2 && s.rampLong i us && decide (t ≤ lowest + 10 ∧ highest ≤ t + 10)) (islandOn i us)

/-- ISLAND_RAMP_DONE (R360). -/
def execIslandRampDone (i : Island) (lowest highest : Nat) (rampUs : Nat) (s : State) : Host.Outcome State Fault Refusal :=
  finish (rampDoneProg i lowest highest rampUs) s

/-! ## Thermal limits (R366, R367) -/

/-- One millisecond of the thermal cap of an island. (DEDUCED: notes/assumptions/68.md.) -/
def thermalProg (i : Nat) (hottest : Int) : Prog := .look fun s =>
  let limit : Int := s.reg 0x2300 0x01
  let x := s.island i
  .seq (setReg (0x4000 + i) 0x0D (unsigned 16 hottest))
  (whenP (s.mainOn && s.islandUp i && !s.islandHeld i) (
    if limit ≤ hottest then all [
      whenP (!x.capped) (report 0x2001 3 i i (unsigned 64 hottest)),
      modIsland i fun y => { y with capped := true, capPct := y.capPct - 5, cool := 0 }]
    else if hottest ≤ limit - 3 then
      whenP x.capped
        (if x.cool + 1 = 10 then all [
          modIsland i fun y => { y with capPct := min 100 (y.capPct + 5), cool := 0, capped := decide (y.capPct + 5 < 100) },
          whenP (decide (100 ≤ x.capPct + 5)) (report 0x2007 3 i i 0)]
         else modIsland i fun y => { y with cool := y.cool + 1 })
    else modIsland i fun y => { y with cool := 0 }))

/-- THERMAL_CAP_STEP (R366). -/
def execThermalCapStep (i : Island) (hottest : Int) (s : State) : Host.Outcome State Fault Refusal :=
  finish (thermalProg i hottest) s

/-- A sensor at or above 115 °C trips the device. (DEDUCED: notes/assumptions/75.md.) -/
def tripProg (i : Nat) (hottest : Int) : Prog := .look fun s =>
  whenP (s.mainOn && decide (115 ≤ hottest)) (all [
    switchOff 0x2002,
    eachP (List.range 24) fun j => setReg (0x4000 + j) 0x01 4,
    setReg (0x4000 + i) 0x0D (unsigned 16 hottest),
    report 0x2002 6 0 i (unsigned 64 hottest)])

/-- THERMAL_TRIP (R367). -/
def execThermalTrip (i : Island) (hottest : Int) (s : State) : Host.Outcome State Fault Refusal :=
  finish (tripProg i hottest) s

/-! ## Beat rate (R365) -/

/-- The beat rates of the islands that are on. -/
def State.beatRates (s : State) : List Nat :=
  ((List.range 24).filter fun j => s.islandState j == 3).map fun j => s.reg (0x4000 + j) 0x0C

/-- An island's reference stages have counted for 100 µs. -/
def beatRateProg (i rate : Nat) : Prog := .look fun s =>
  let before := s.reg (0x4000 + i) 0x0C
  whenP (s.mainOn && s.islandUp i) (all [
    setReg (0x4000 + i) 0x0C (min 65535 rate),
    .look fun t => all [
      setReg 0x2310 0x01 (t.beatRates.foldl min (t.beatRates.headD 0)),
      setReg 0x2310 0x02 (t.beatRates.foldl max 0)],
    whenP (decide (rate < 1400) && !decide (0 < before ∧ before < 1400)) (report 0x2008 3 i i rate)])

/-- BEAT_RATE_MEASURE (R365). -/
def execBeatRateMeasure (i : Island) (rate : Nat) (s : State) : Host.Outcome State Fault Refusal :=
  finish (beatRateProg i rate) s

/-! ## Re-plans (R371, R433) -/

/-- A number of mV rounded up to a multiple of 5. -/
def roundUp5 (v : Int) : Int := (v + 4) / 5 * 5

/-- A re-plan starts, unless one runs or the ROM table forbids it. -/
def replanBegin : Prog := .look fun s =>
  if s.controllerDown then .skip
  else if s.romTable then eachP (List.range 24) fun i => report 0x2005 3 i i 1
  else .eff (.replanning true)

/-- The write of object 0x2320:01. -/
def replanCommand (v : Nat) : Command where
  effect := whenP (v != 0) replanBegin

/-- REPLAN_START (R371). -/
def execReplanStart (p : Path) (v : Nat) (s : State) : Host.Outcome State Fault Refusal :=
  finish (commandWrite p 0x2320 0x01 (replanCommand v)) s

/-- REPLAN_PERIOD (R371): a period of 0 starts none. -/
def execReplanPeriod (s : State) : Host.Outcome State Fault Refusal :=
  finish (.look fun t => whenP (t.reg 0x2320 0x02 != 0 && t.mainOn) replanBegin) s

/-- The offset that a re-plan gives an island: its lowest margin is `m`. -/
def newOffset (t m offset : Nat) : Nat :=
  let need : Int := ((t : Int) - m) * 2
  if (offset : Int) < need then (min 60 (roundUp5 need)).toNat else offset - 5

/-- The reference-point margins of the serving sites of an island that were read (R370), in ascending site number.
(DESIGN CHOICE: notes/assumptions/123.md.) -/
def State.referenceMargins (s : State) (margins : List (Site × Nat)) (points : List (Site × Nat × Int)) (i : Nat) : List (Nat × Nat) :=
  (islandSites i).filterMap fun n =>
    match margins.find? fun x => decide (x.1.val = n), points.find? fun x => decide (x.1.val = n), (s.tileOf n).isSome with
    | some m, some p, true => some (n, min 127 (Config.referenceMargin (s.cal.section_ 0) n m.2 p.2.1 p.2.2))
    | _, _, _ => none

/-- A list of numbers with one more, ascending. -/
def insertUp (v : Nat) (xs : List Nat) : List Nat :=
  match xs with
  | [] => [v]
  | x :: xs => if v ≤ x then v :: x :: xs else x :: insertUp v xs

/-- The median of a list of numbers, the lower of the two of an even number. (DESIGN CHOICE: notes/assumptions/123.md.) -/
def medianOf (xs : List Nat) : Nat := (xs.foldr insertUp []).getD ((xs.length - 1) / 2) 0

/-- The ageing index of an island whose serving sites have the margins `ms` (R370). -/
def State.ageingOf (s : State) (ms : List (Nat × Nat)) : Nat :=
  min 255 (medianOf (ms.map fun x => Config.calibrationMargin (s.cal.section_ 1) x.1) - medianOf (ms.map fun x => x.2))

/-- The re-plan of one island whose serving sites have the margins `ms`: without a reading it has no lowest margin and keeps
its offset. (DEDUCED: notes/assumptions/73.md.) -/
def replanIsland (i : Nat) (ms : List (Nat × Nat)) : Prog := .look fun s =>
  withP (lowestReading ms) fun low =>
  let m := low.2
  let t := s.reg 0x2320 0x03
  let old := s.reg (0x4000 + i) 0x04
  let left := fun (x : IslandCore) => if s.islandUp i then x.offsetLeft + newOffset t m old - old else (0 : Int)
  if s.islandHeld i then report 0x2005 3 i i 1
  else all [
    whenP (decide (60 < roundUp5 (((t : Int) - m) * 2))) (report 0x2005 3 i i 0),
    modIsland i fun x => { x with offsetLeft := left x },
    setReg (0x4000 + i) 0x04 (newOffset t m old),
    setReg (0x4000 + i) 0x0E (s.ageingOf ms),
    withState fun u => .cal { u.cal with
      offsets := setIsland u.cal.offsets i (newOffset t m old), indexes := setIsland u.cal.indexes i (s.ageingOf ms) }]

/-- A re-plan ends with the margins that it read, island by island. -/
def replanProg (margins : List (Site × Nat)) (points : List (Site × Nat × Int)) : Prog := .look fun s =>
  whenP (s.replanning && !s.controllerDown) (all [
    eachP (List.range 24) fun i => replanIsland i (s.referenceMargins margins points i),
    .eff (.replanning false),
    setReg 0x2320 0x05 s.now,
    .look fun t => report 0x2004 6 0
      ((List.range 24).filter fun i => t.reg (0x4000 + i) 0x04 != s.reg (0x4000 + i) 0x04).length 0])

/-- REPLAN_COMPLETE (R371). -/
def execReplanComplete (margins : List (Site × Nat)) (points : List (Site × Nat × Int)) (s : State) :
    Host.Outcome State Fault Refusal := finish (replanProg margins points) s

end Sys2Proof.Machine
end

