-- ==== Sys2Proof/Machine/Findings.lean ====
section
/-! DEFINITION. Marginal findings, canary alarms, the health index and the recommendation (R369, R375, R391, R397 to
R401). -/

namespace Sys2Proof.Machine

open Sys2Proof

/-! ## Findings (R397, R398) -/

/-- Records a marginal finding: the oldest of 256 gives way. The class counts as a fault of weight 0 (Table 14-1). -/
def recordFinding (site margin temperature pattern : Nat) : Prog := .look fun s => all [
  .eff (.findings (s.findings.drop (s.findings.length - 255)
    ++ [⟨site, margin % 256, temperature % 256, pattern % 65536, true, s.now⟩])),
  report 0x380E 6 0 site pattern,
  siteFault site 6 0,
  policyFence site 6,
  whenP (s.reg 0x2500 0x05 == 1) replanBegin]

/-- Closes the open findings that a predicate names. -/
def closeFindings (which : Finding → Bool) : Prog := .look fun s => all [
  .eff (.findings (s.findings.map fun f => if f.isOpen && which f then { f with isOpen := false } else f)),
  eachP (s.findings.filter fun f => f.isOpen && which f) fun f => report 0x380F 6 0 f.site f.pattern]

/-- The write of object 0x2550:02. -/
def closeAllCommand (v : Nat) : Command where
  effect := whenP (v != 0) (closeFindings fun _ => true)

/-- CLOSE_ALL_FINDINGS (R398). -/
def execCloseAllFindings (p : Path) (v : Nat) (s : State) : Host.Outcome State Fault Refusal :=
  finish (commandWrite p 0x2550 0x02 (closeAllCommand v)) s

/-- A site reports its canary margin: below the alarm margin it is reported, once an hour, and recorded as pattern 0.
(DEDUCED: notes/assumptions/73.md.) -/
def canaryProg (n margin : Nat) : Prog := .look fun s =>
  let m := min 127 margin
  whenP (s.mainOn && s.islandUp (siteIsland n)) (all [
    setReg (0x3000 + n) 0xA1 m,
    setReg (0x3000 + n) 0xA2 (min m (s.reg (0x3000 + n) 0xA2)),
    whenP (decide (m < s.reg 0x2320 0x04) && s.limitAt (0x2003 * 2 ^ 32 + n) != s.now / hour + 1) (all [
      .eff (.limits (0x2003 * 2 ^ 32 + n) (s.now / hour + 1)),
      report 0x2003 0 n n m,
      recordFinding n 0 (s.hottest (siteIsland n)) 0])])

/-- CANARY_ALARM (R369). -/
def execCanaryAlarm (site : Site) (margin : Nat) (s : State) : Host.Outcome State Fault Refusal :=
  finish (canaryProg site margin) s

/-! ## Suspicion (R375) -/

/-- The sites whose score is not 0, ascending, with their scores. -/
def State.suspects (s : State) : List (Nat × Nat) := s.regs.filterMap fun e =>
  if e.1 % 256 = 0xB0 ∧ 0x3000 ≤ e.1 / 256 ∧ e.1 / 256 < 0x3CC0 then some (e.1 / 256 - 0x3000, e.2) else none

/-- SUSPICION_DECAY (R375): the end of an hour of device time; no management action while the controller restarts (R388). -/
def execSuspicionDecay (s : State) : Host.Outcome State Fault Refusal :=
  finish (.look fun t => whenP (!t.controllerDown) <| eachP t.suspects fun e => setScore e.1 (e.2 - t.reg 0x2530 0x02)) s

/-- The write of object 0x2530:09. -/
def clearSuspicionCommand (v : Nat) : Command where
  valueOk _ := decide (v < 3264)
  effect := setScore v 0

/-- CLEAR_SITE_SUSPICION (R375). -/
def execClearSiteSuspicion (p : Path) (v : Nat) (s : State) : Host.Outcome State Fault Refusal :=
  finish (commandWrite p 0x2530 0x09 (clearSuspicionCommand v)) s

/-- The write of object 0x2500:06. (DEDUCED: notes/assumptions/80.md.) -/
def acknowledgeCommand (v : Nat) : Command where
  effect := whenP (v != 0) (setReg 0x2500 0x07 0)

/-- ACKNOWLEDGE_DECISION (R391). -/
def execAcknowledgeDecision (p : Path) (v : Nat) (s : State) : Host.Outcome State Fault Refusal :=
  finish (commandWrite p 0x2500 0x06 (acknowledgeCommand v)) s

/-! ## The health index (R399 to R401) -/

/-- The open marginal findings. -/
def State.openFindings (s : State) : Nat := (s.findings.filter fun f => f.isOpen).length

/-- The deductions of Table 14-6. -/
def State.deductions (s : State) : Nat :=
  15 * s.health.length
  + 100 * ((List.range 8).map fun r => popCount 24 (s.reg (0x2410 + r) 0x1A)).sum
  + ((s.suspects.filter fun e => (s.tileOf e.1).isSome).map fun e => e.2).sum / 20
  + 10 * s.openFindings
  + 25 * ((List.range 24).map fun i => popCount 48 (s.reg (0x4000 + i) 0x0B)).sum
  + 200 * ((List.range 32).filter fun k => s.reg (0x4100 + k) 0x01 == 2).length
  + 200 * ((List.range 4).filter fun q => !s.dieUp q).length

/-- A site has completed a slice of a kind (0 logic, 1 memory) within the evidence window. -/
def State.sliceRecent (s : State) (n kind : Nat) : Bool :=
  let t := s.sliceTime (n * 2 + kind)
  t != 0 && decide (s.now < t - 1 + s.reg 0x2530 0x07 * hour)

/-- The confidence in per cent (R400). -/
def State.confidence (s : State) : Nat :=
  let served := (s.servedTiles 0xFF).length
  let sure := (s.sliceTimes.filter fun e => decide (e.1 % 2 = 0) && s.sliceRecent (e.1 / 2) 0 && s.sliceRecent (e.1 / 2) 1
    && (s.tileOf (e.1 / 2)).isSome).length
  if served = 0 then 0 else sure * 100 / served

/-- The recommendation for a health index (R401). -/
def State.recommend (s : State) (index : Nat) : Nat :=
  if index < 400 ∨ (List.range 8).any (fun r => decide (s.reg (0x2410 + r) 0x19 < 368)) then 3
  else if index < 700 then 2
  else if index < 900 ∨ s.candidates ≠ [] then 1
  else 0

/-- The index, the evidence, the confidence and the recommendation are computed again. -/
def healthProg : Prog := .look fun s =>
  let index := 1000 - s.deductions
  let w := s.reg 0x2530 0x07 * hour
  let e := s.evidence.filter fun t => decide (s.now < t + w)
  let code := s.recommend index
  whenP (!s.controllerDown) (all [
    setReg 0x2530 0x03 index,
    .eff (.evidence e), setReg 0x2530 0x04 (min (2 ^ 32 - 1) e.length),
    setReg 0x2530 0x05 s.confidence,
    setReg 0x2530 0x06 code,
    whenP (code != s.reg 0x2530 0x06) (report 0x3810 6 0 code (s.reg 0x2530 0x06))])

/-- HEALTH_INDEX_RECOMPUTE (R399). -/
def execHealthIndexRecompute (s : State) : Host.Outcome State Fault Refusal := finish healthProg s

end Sys2Proof.Machine
end

