-- ==== Sys2Proof/Machine/SelfTest.lean ====
section
/-! DEFINITION. Self-test slices, save areas and Marigold (chapter 15). -/

namespace Sys2Proof.Machine

open Sys2Proof

/-! ## Requests (R409, R413, Table 15-3) -/

/-- The scopes of a request: the number of units of each code, for the device only number 0. -/
def scopeSize (code : Nat) : Nat := match code with
  | 0 => 3264 | 1 => 24 | 2 => 12 | 3 => 8 | _ => 1

/-- The sites of a scope, ascending. -/
def scopeSites (code number : Nat) : List Nat := match code with
  | 0 => [number]
  | 1 => islandSites number
  | 2 => (List.range 3264).filter fun n => decide (siteField n = number)
  | 3 => (List.range 3264).filter fun n => decide (siteRegion n = number)
  | _ => List.range 3264

/-- The kinds of slice that a request word asks for. -/
def requestKinds (code : Nat) : List SliceKind := match code with
  | 1 => [.logic] | 2 => [.memory] | 3 => [.logic, .memory] | _ => []

/-- Makes a slice due on a site, or brings the deadline of the one that is due already forward. -/
def addDue (ds : List DueSlice) (site : Nat) (k : SliceKind) (deadline : Nat) : List DueSlice :=
  if ds.any fun d => decide (d.site = site ∧ d.kind = k) then
    ds.map fun d => if d.site = site ∧ d.kind = k then { d with deadline := min d.deadline deadline } else d
  else ds ++ [⟨site, k, deadline, false, none⟩]

/-- The write of object 0x2602:01. -/
def requestCommand (w : Nat) : Command where
  valueOk _ := requestKinds (bits w 63 61) != [] && decide (bits w 60 58 < 5)
    && decide (bits w 57 46 < scopeSize (bits w 60 58))
  refused _ := report 0x9004 6 0 (pairArg (bits w 60 58) (bits w 57 46))
    (Config.selfTestRejectReason (if requestKinds (bits w 63 61) = [] ∨ 5 ≤ bits w 60 58 then 0 else 1))
  effect := .look fun s =>
    let deadline := s.now + bits w 31 0 * 1000000
    .eff (.due ((scopeSites (bits w 60 58) (bits w 57 46)).foldl (fun ds n =>
      (requestKinds (bits w 63 61)).foldl (fun ds k => addDue ds n k deadline) ds) s.due))

/-- A request word with its kind field set. -/
def requestWord (kind w : Nat) : Nat := place kind 61 + w % 2 ^ 61

/-- SELF_TEST_LOGIC (R409). -/
def execSelfTestLogic (p : Path) (w : Nat) (s : State) : Host.Outcome State Fault Refusal :=
  finish (commandWrite p 0x2602 0x01 (requestCommand (requestWord 1 w))) s

/-- SELF_TEST_MEMORY (R409). -/
def execSelfTestMemory (p : Path) (w : Nat) (s : State) : Host.Outcome State Fault Refusal :=
  finish (commandWrite p 0x2602 0x01 (requestCommand (requestWord 2 w))) s

/-- SELF_TEST_LOGIC_MEMORY (R409). -/
def execSelfTestLogicMemory (p : Path) (w : Nat) (s : State) : Host.Outcome State Fault Refusal :=
  finish (commandWrite p 0x2602 0x01 (requestCommand (requestWord 3 w))) s

/-- The write of object 0x2602:02. -/
def cancelCommand (v : Nat) : Command where
  effect := whenP (v != 0) (cancelDue 0)

/-- CANCEL_SLICES (R413). -/
def execCancelSlices (p : Path) (v : Nat) (s : State) : Host.Outcome State Fault Refusal :=
  finish (commandWrite p 0x2602 0x02 (cancelCommand v)) s

/-! ## Save areas (R405, R406) -/

/-- The designation of an island. -/
def State.saveWord (s : State) (i : Nat) : Nat := s.reg 0x2601 (i + 1)

/-- Two ranges of slots overlap. -/
def rangesMeet (a n b m : Nat) : Bool := decide (a < b + m ∧ b < a + n)

/-- A designation overlaps an enabled ring or another island's area. -/
def State.saveOverlaps (s : State) (i w : Nat) : Bool :=
  let t := sIndex (bits w 27 16)
  s.ringsOn.any (fun e => decide (ringTile e.1 = t) && rangesMeet (rdSlot e.2.desc) (rdSlots e.2.desc) (saveSlot w) 16384)
    || (List.range 24).any fun j => decide (j ≠ i) && saveValid (s.saveWord j)
      && decide (bits (s.saveWord j) 27 16 = bits w 27 16) && rangesMeet (saveSlot (s.saveWord j)) 16384 (saveSlot w) 16384

/-- A slice runs in an island. -/
def State.islandSlicing (s : State) (i : Nat) : Bool := s.slices.any fun r => decide (siteIsland r.site = i)

/-- The write of object 0x2601:i + 1. The conditions on the tile are those of a valid designation.
(DEDUCED: notes/assumptions/78.md.) -/
def saveAreaCommand (i v : Nat) : Command where
  valueOk _ :=
    let l := bits v 27 16
    decide (v < 2 ^ 32) && (!saveValid v || decide (l < 3072 ∧ tileType l = 1 ∧ bits v 2 0 ≠ 7
      ∧ tileRow l / 8 * 4 + tileCol l / 16 = i))
  stateOk s := !s.islandSlicing i && (!saveValid v || ((s.siteOf (bits v 27 16)).isSome && !s.saveOverlaps i v))
  refused _ := report 0x9005 6 0 i 0xFF
  effect := setReg 0x2601 (i + 1) (v &&& 0x8FFF0007)
  setting := true

/-- SAVE_AREA_WRITE (R405). -/
def execSaveAreaWrite (p : Path) (i : Island) (v : Nat) (s : State) : Host.Outcome State Fault Refusal :=
  finish (commandWrite p 0x2601 (i + 1) (saveAreaCommand i v)) s

/-! ## Slices (R402 to R416) -/

/-- A tile holds no state of a context (R407). -/
def State.holdsNothing (s : State) (n : Nat) : Bool :=
  decide (s.reg (0x3000 + n) 0x70 = 0) && match s.tileOf n with
    | none => true
    | some l => !((List.range 32).any fun k => (s.cellAt (l * 32 + k)).bound)
      && !(decide (tileType l = 1) && (List.range 16).any fun k => rdEnabled (s.ring (sIndex l * 16 + k)).desc)

/-- The compartments of an island that no running slice holds. -/
def State.freeCompartments (s : State) (i : Nat) : List Nat :=
  (List.range 4).filter fun k => !(s.slices.any fun r => decide (siteIsland r.site = i ∧ r.compartment = some k))

/-- A section release has reached a tile, which switches first (R411). -/
def State.releaseCame (s : State) (n : Nat) : Bool :=
  s.delivered.any fun p => decide (p.dst = n ∧ p.cls = 0 ∧ p.typ = 0x06)

/-- The first reason of Table 15-4 that holds a due slice of a site back; 0 when it may start. `powered` says that the
power manager has reserved its power (R364). A site whose island is not on waits for it (reason 3).
(DEDUCED: notes/assumptions/78.md.) -/
def State.holdReason (s : State) (n : Nat) (powered : Bool) : Nat :=
  let i := siteIsland n
  let needs := !s.holdsNothing n
  if (match s.runningAt n with | some r => !r.done | none => false) || s.slicing n || s.releaseCame n then 1
  else if (s.mtile n).dispute.isSome || s.votes.any (fun v => decide (v.referee = n)) then 2
  else if s.islandState i != 3 || s.siteDark n || (islandNeighbours i).any (fun j => s.islandState j == 2) then 3
  else if !powered then 4
  else if 4 ≤ (s.slices.filter fun r => decide (siteIsland r.site = i)).length ∨ (needs ∧ s.freeCompartments i = []) then 5
  else if !s.stewardUp (siteField n) || s.islandHeld i then 6
  else if needs && !saveValid (s.saveWord i) then 7
  else if (s.mari i).isSome then 8
  else 0

/-- A due slice of the same island that was requested earlier could start. -/
def State.turnTaken (s : State) (n : Nat) (k : SliceKind) : Bool :=
  (s.due.takeWhile fun d => !decide (d.site = n ∧ d.kind = k)).any fun d =>
    decide (siteIsland d.site = siteIsland n) && decide (s.holdReason d.site d.power.isSome = 0)

/-- The reservation of a slice of a site, 1.2 times its tile's rated power: from the headroom of its island's budget or, failing
that, from its pool; none while neither has it (R364). (DESIGN CHOICE: notes/assumptions/110.md.) -/
def State.reservationFor (s : State) (n : Nat) : Option Reservation :=
  let i := siteIsland n
  let need := ratedPower n * 12 / 10
  if need + s.sliceReserved i false ≤ 100 * ((s.island i).budgetW - (s.island i).measured) then some ⟨need, false⟩
  else if need ≤ s.poolLeft i then some ⟨need, true⟩
  else none

/-- The power manager reserves the power of the due slices that nothing else holds back, in request order (R364). -/
def reserveSlices : Prog := .look fun s => eachP s.due fun d => .look fun t =>
  whenP (d.power.isNone && decide (t.holdReason d.site true = 0)) (
    withP (t.reservationFor d.site) fun r =>
      .eff (.due (t.due.map fun e => if e.site = d.site ∧ e.kind = d.kind then { e with power := some r } else e)))

/-- BUDGET_PERIOD (R357, R358, R364): the reservations of slices come before new loans. -/
def execBudgetPeriod (m : PowerReadings) (s : State) : Host.Outcome State Fault Refusal :=
  finish (all [budgetProg m, .look fun t => whenP (t.mainOn && !t.controllerDown) reserveSlices, lendAll m]) s

/-- A due slice starts, with the power that is reserved for it. -/
def sliceStartProg (n : Nat) (k : SliceKind) : Prog := .look fun s =>
  withP (s.due.find? fun d => decide (d.site = n ∧ d.kind = k)) fun d =>
    whenP (s.mainOn && decide (s.holdReason n d.power.isSome = 0) && !s.turnTaken n k) (all [
      .eff (.due (s.due.filter fun d => !decide (d.site = n ∧ d.kind = k))),
      .eff (.slices (s.slices ++
        [⟨n, k, if s.holdsNothing n then none else (s.freeCompartments (siteIsland n)).head?, d.power⟩]))])

/-- SLICE_START (R410). -/
def execSliceStart (site : Site) (kind : SliceKind) (s : State) : Host.Outcome State Fault Refusal :=
  finish (sliceStartProg site kind) s

/-- A completed slice or pattern run counts as evidence, and its site's counters follow (R400, R416).
(DEDUCED: notes/assumptions/79.md.) -/
def countSlice (n : Nat) (pass : Bool) : Prog := all [
  count32 (0x3000 + n) 0xC2 1,
  addEvidence,
  whenP (!pass) (all [count32 (0x3000 + n) 0xC3 1, count64 0x2610 0x03 1])]

/-- A failed slice of a site: a class 5 fault unless the site is fenced (R416). -/
def sliceFailed (n block : Nat) : Prog := .look fun s => all [
  report 0x9001 0 n n block,
  whenP (!s.isFenced n) (siteFault n 5 1000)]

/-- The result of a slice that ran to its end or its budget is logged. -/
def logSlice (x : HeldResult) : Prog := .look fun s =>
  let n := x.report.site.val
  all [
    appendResultAt x.time x.report x.outcome 0,
    whenP (decide (x.outcome < 2)) (all [
      countSlice n (x.outcome == 0),
      .eff (.sliceTimes (n * 2 + (x.report.kind - 1)) (x.time + 1)),
      whenP (x.outcome == 1) (sliceFailed n x.report.block)]),
    .eff (.heldResults (s.heldResults.filter fun y => decide (y ≠ x)))]

/-- Logs a result, or holds it while the steward or the controller is stopped (Table 15-5). -/
def sliceResult (x : HeldResult) : Prog := .look fun s =>
  if s.controllerDown || !s.stewardUp (siteField x.report.site) then .eff (.heldResults (s.heldResults ++ [x]))
  else logSlice x

/-- A running slice ends by itself with a report; a done tile that it kept from being done is done again (R411). -/
def sliceEndProg (n : Nat) (r : SliceReport) : Prog := .look fun s =>
  withP (s.slices.find? fun x => decide (x.site = n)) fun x => whenP (decide (r.site.val = n)) (all [
    .eff (.slices (s.slices.filter fun y => decide (y.site ≠ n))),
    eachP r.unfixable (poisonRestored n x.kind),
    sliceResult ⟨s.now, if r.pass then 0 else 1,
      { r with kind := sliceKindCode x.kind, block := if r.pass then 0 else r.block, pattern := 0 }⟩,
    tellDone n])

/-- SLICE_END (R415). -/
def execSliceEnd (site : Site) (r : SliceReport) (s : State) : Host.Outcome State Fault Refusal :=
  finish (sliceEndProg site r) s

/-- A running slice reaches its budget: it is restored and incomplete. -/
def sliceBudgetProg (site : Site) (e : BudgetEnd) : Prog := .look fun s =>
  withP (s.slices.find? fun x => decide (x.site = site.val)) fun x => all [
    .eff (.slices (s.slices.filter fun y => decide (y.site ≠ site.val))),
    eachP e.unfixable (poisonRestored site x.kind),
    report 0x9003 0 site site e.phase,
    sliceResult ⟨s.now, 2,
      { site := site, kind := sliceKindCode x.kind, temperature := s.hottest (siteIsland site) }⟩,
    tellDone site]

/-- SLICE_BUDGET_EXPIRE (R404). -/
def execSliceBudgetExpire (site : Site) (phase : BudgetEnd) (s : State) : Host.Outcome State Fault Refusal :=
  finish (sliceBudgetProg site phase) s

/-- A due slice has been held past its deadline: reported once with the reason in effect.
(DEDUCED: notes/assumptions/78.md.) -/
def sliceOverdueProg (n : Nat) (k : SliceKind) : Prog := .look fun s =>
  withP (s.due.find? fun d => decide (d.site = n ∧ d.kind = k)) fun d =>
    let why := s.holdReason n d.power.isSome
    whenP (!d.reported && decide (d.deadline ≤ s.now) && decide (why ≠ 0)) (all [
      .eff (.due (s.due.map fun e => if e = d then { e with reported := true } else e)),
      report 0x9002 6 0 n why])

/-- SLICE_OVERDUE (R412). -/
def execSliceOverdue (site : Site) (kind : SliceKind) (s : State) : Host.Outcome State Fault Refusal :=
  finish (sliceOverdueProg site kind) s

/-! ## Marigold (R418 to R420) -/

/-- The temperature steps of object 0x2630:02, up to the first byte of 0. -/
def marigoldSteps (w : Nat) : List Nat := (toBytes 4 w |>.map (·.toNat)).takeWhile fun t => decide (t ≠ 0)

/-- Why Marigold may not start on an island, numbered for Config.selfTestRejectReason (R418). -/
def State.marigoldRefusal (s : State) (i : Nat) : Option Nat :=
  if s.islandState i != 3 then some 2
  else if s.inPartition (islandRegion i) then some 3
  else if (s.mari i).isSome then some 4
  else none

/-- The islands that a mask names. -/
def maskIslands (v : Nat) : List Nat := (List.range 24).filter v.testBit

/-- The steps at the head of a run that are too hot are skipped (R419). (DEDUCED: notes/assumptions/79.md.) -/
def skipHot (i : Nat) : Prog := .look fun s =>
  withP (s.mari i) fun r =>
    let hot := r.stepsLeft.takeWhile fun t => decide (s.reg 0x2300 0x01 ≤ t + 3)
    all [
      eachP hot fun t => report 0x9008 3 i i t,
      .eff (.marigold i (some { r with stepsLeft := r.stepsLeft.drop hot.length, reached := false, margin := 0 }))]

/-- The write of object 0x2630:01. -/
def marigoldCommand (v : Nat) : Command where
  stateOk s := (maskIslands v).all fun i => (s.marigoldRefusal i).isNone
  refused _ := .look fun s =>
    withP ((maskIslands v).find? fun i => (s.marigoldRefusal i).isSome) fun i =>
      report 0x9004 6 0 (pairArg 1 i) (Config.selfTestRejectReason ((s.marigoldRefusal i).getD 2))
  effect := eachP (maskIslands v) fun i => .look fun s => all [
    .eff (.marigold i (some { stepsLeft := marigoldSteps (s.reg 0x2630 0x02) })),
    report 0x9007 3 i i 0,
    skipHot i]

/-- MARIGOLD_START (R418). -/
def execMarigoldStart (p : Path) (v : Nat) (s : State) : Host.Outcome State Fault Refusal :=
  finish (commandWrite p 0x2630 0x01 (marigoldCommand v)) s

/-- The write of object 0x2630:07. -/
def marigoldStopCommand (v : Nat) : Command where
  effect := eachP (maskIslands v) fun i => .look fun s =>
    withP (s.mari i) fun r => .eff (.marigold i (some { r with stopping := true }))

/-- MARIGOLD_STOP (R418). -/
def execMarigoldStop (p : Path) (v : Nat) (s : State) : Host.Outcome State Fault Refusal :=
  finish (commandWrite p 0x2630 0x07 (marigoldStopCommand v)) s

/-- Marigold goes on in an island: its field's steward runs and its actions are not held (R23, R388). -/
def State.mariGoes (s : State) (i : Nat) : Bool := s.stewardUp (islandField i) && !s.islandHeld i

/-- The run of an island that waits for its heat. -/
def State.heating (s : State) (i : Nat) : Option (MariRun × Nat) :=
  match s.mari i with
  | some r => if !s.mariGoes i then none else match r.stepsLeft with
    | t :: _ => if r.reached || r.stopping then none else some (r, t)
    | [] => none
  | none => none

/-- The run of an island goes on with its next temperature step. -/
def nextStep (i : Nat) : Prog := .look fun s => withP (s.mari i) fun r =>
  .seq (.eff (.marigold i (some { r with stepsLeft := r.stepsLeft.drop 1, reached := false, margin := 0 }))) (skipHot i)

/-- MARIGOLD_HEAT_TIMEOUT (R419). -/
def execMarigoldHeatTimeout (i : Island) (s : State) : Host.Outcome State Fault Refusal :=
  finish (.look fun t => withP (t.heating i) fun x => .seq (report 0x9008 3 i i x.2) (nextStep i)) s

/-- A pattern is still to run on a site at the step and margin of a run. -/
def runOwed (r : MariRun) (t n p : Nat) : Bool :=
  !(r.fails.any fun f => decide (f.site = n ∧ f.pattern = p ∧ f.temperature = t))
    && !(r.passes.any fun f => decide (f.site = n ∧ f.pattern = p ∧ f.temperature = t ∧ f.margin = r.margin))

/-- The patterns of a mask (object 0x2630:05). -/
def maskPatterns (m : Nat) : List Nat := (List.range 7).filterMap fun k => if m.testBit k then some (k + 1) else none

/-- A run has a pattern left at its step and margin. -/
def State.marginOpen (s : State) (i t : Nat) (r : MariRun) : Bool :=
  (islandSites i).any fun n => !s.siteDark n && (maskPatterns (s.reg 0x2630 0x05)).any (runOwed r t n)

/-- The run goes on to the next margin that has a pattern left, or to the next temperature step. -/
def nextMargin (i t fuel : Nat) : Prog :=
  match fuel with
  | 0 => nextStep i
  | k + 1 => .look fun s => withP (s.mari i) fun r => whenP (!s.marginOpen i t r) (
      let m := r.margin + max 1 (s.reg 0x2630 0x03)
      if s.reg 0x2630 0x04 < m ∨ s.baseTarget i < 620 + m then nextStep i
      else .seq (.eff (.marigold i (some { r with margin := m }))) (nextMargin i t k))

/-- MARIGOLD_HEAT_REACHED (R419). -/
def execMarigoldHeatReached (i : Island) (s : State) : Host.Outcome State Fault Refusal :=
  finish (.look fun t => withP (t.heating i) fun x => .seq
    (.eff (.marigold i (some { x.1 with reached := true, margin := 0, ran := x.1.ran ++ [x.2] })))
    (nextMargin i x.2 101)) s

/-- The turn of a pattern on a site: patterns ascending, and of one pattern the sites ascending, 4 at a time (R419). -/
def State.patternTurn (s : State) (i t : Nat) (r : MariRun) (n p : Nat) : Bool :=
  let owed := fun (q : Nat) => (islandSites i).filter fun m => !s.siteDark m && runOwed r t m q
  runOwed r t n p && ((maskPatterns (s.reg 0x2630 0x05)).takeWhile fun q => decide (q ≠ p)).all (fun q => (owed q).isEmpty)
    && ((owed p).take 4).contains n

/-- One pattern has run on one site, on power reserved as for any slice (R364). (DEDUCED: notes/assumptions/79.md.) -/
def patternProg (i : Nat) (x : SliceReport) : Prog := .look fun s =>
  withP (s.mari i) fun r => withP r.stepsLeft.head? fun t =>
    let n := x.site.val
    let one : MariResult := ⟨n, x.pattern, t, r.margin, x.block⟩
    whenP (r.reached && !r.stopping && s.mariGoes i && (s.reservationFor n).isSome && decide (siteIsland n = i) && !s.siteDark n
        && (maskPatterns (s.reg 0x2630 0x05)).contains x.pattern && s.patternTurn i t r n x.pattern) (all [
      appendResult { x with kind := 3, block := if x.pass then 0 else x.block } (if x.pass then 0 else 1) r.margin,
      countSlice n x.pass,
      .eff (.marigold i (some (if x.pass then { r with passes := r.passes ++ [one] }
        else { r with fails := r.fails ++ [one] }))),
      whenP x.pass (closeFindings fun f =>
        decide (f.site = n ∧ f.pattern = x.pattern ∧ f.margin ≤ r.margin ∧ f.temperature ≤ t)),
      nextMargin i t 101])

/-- MARIGOLD_PATTERN_RUN (R419). -/
def execMarigoldPatternRun (i : Island) (r : SliceReport) (s : State) : Host.Outcome State Fault Refusal :=
  finish (patternProg i r) s

/-- The pairs of site and pattern that failed in a run. -/
def failedPairs (r : MariRun) : List (Nat × Nat) := (r.fails.map fun f => (f.site, f.pattern)).eraseDups

/-- The failures of a pair. -/
def pairFails (r : MariRun) (p : Nat × Nat) : List MariResult :=
  r.fails.filter fun f => decide ((f.site, f.pattern) = p)

/-- A pair failed at margin 0 at every step that ran. -/
def functional (r : MariRun) (p : Nat × Nat) : Bool :=
  r.ran.all fun t => (pairFails r p).any fun f => decide (f.temperature = t ∧ f.margin = 0)

/-- The failure of a pair at the smallest margin, and of those the lowest step. -/
def smallestFail (r : MariRun) (p : Nat × Nat) : Option MariResult :=
  (pairFails r p).foldl (fun b f => match b with
    | none => some f
    | some g => if f.margin < g.margin ∨ (f.margin = g.margin ∧ f.temperature < g.temperature) then some f else some g) none

/-- The classification of R420. (DEDUCED: notes/assumptions/79.md.) -/
def classify (r : MariRun) : Prog := eachP (failedPairs r) fun p => withP (smallestFail r p) fun f =>
  if functional r p then sliceFailed f.site f.block else recordFinding f.site f.margin f.temperature f.pattern

/-- The run of an island has no step left, or was stopped: what failed until then is classified (R420). -/
def marigoldEndProg (i : Nat) : Prog := .look fun s =>
  withP (s.mari i) fun r => whenP (s.mariGoes i) (
    if r.stopping then .seq (dropMarigoldRun i) (classify r)
    else whenP r.stepsLeft.isEmpty (all [
      .eff (.marigold i none),
      classify r,
      report 0x9009 3 i i ((failedPairs r).filter fun p => !functional r p).length]))

/-- MARIGOLD_END (R420). -/
def execMarigoldEnd (i : Island) (s : State) : Host.Outcome State Fault Refusal := finish (marigoldEndProg i) s

end Sys2Proof.Machine
end

