-- ==== Sys2Proof/Machine/Healing.lean ====
section
/-! DEFINITION. Fence and release requests, partitions, errors in the management plane's tables, votes, and the stops and
restarts of field stewards and of the Kilhild controller (R44 to R51, R239, R377 to R388, R430, R454). -/

namespace Sys2Proof.Machine

open Sys2Proof

/-! ## Fencing and release requests (R45, R46) -/

/-- The write of object 0x2420:01: a row of Table 14-1 of weight 0. (DEDUCED: notes/assumptions/120.md.) -/
def fenceCommand (v : Nat) : Command where
  valueOk _ := decide (v < 3264)
  effect := all [addEvidence, setReg (0x3000 + v) 0xB4 0x01, wantFence ⟨v, 0x01, none⟩]

/-- FENCE_SITE (R45). -/
def execFenceSite (p : Path) (v : Nat) (s : State) : Host.Outcome State Fault Refusal :=
  finish (commandWrite p 0x2420 0x01 (fenceCommand v)) s

/-- The write of object 0x2420:02. -/
def releaseCommand (v : Nat) : Command where
  valueOk s := decide (v < 3264) && !s.fuseSites.contains v
  refused _ := whenP (decide (v < 3264)) (report 0x3007 6 0 v 0)
  effect := .look fun s => whenP (s.health.any (fun h => decide (h.site = v)) && !s.releases.contains v)
    (.eff (.releases (s.releases ++ [v])))

/-- RELEASE_SITE (R46). -/
def execReleaseSite (p : Path) (v : Nat) (s : State) : Host.Outcome State Fault Refusal :=
  finish (commandWrite p 0x2420 0x02 (releaseCommand v)) s

/-! ## Partitions (R51, R359, R418, R436) -/

/-- A mask may be written to partition entry `k` in the present state. -/
def State.maskFits (s : State) (k mask : Nat) : Bool :=
  ((List.range 8).all fun j => j == k || (s.reg 0x2430 (j + 1) &&& mask) == 0)
    && (mask == s.reg 0x2430 (k + 1)
      || !(List.range 64).any fun c => s.ctxState c != 0 && s.reg (0x2700 + c) 0x03 == k)
    && ((List.range 24).all fun i => !mask.testBit (islandRegion i)
      || (s.islandState i != 0 && s.islandState i != 4 && (s.mari i).isNone))
    && !s.selfCal

/-- The write of object 0x2430:k + 1. -/
def partitionCommand (k mask : Nat) : Command where
  valueOk _ := mask == 0 || isRectangle mask
  stateOk s := s.maskFits k mask
  refused _ := report 0x3001 6 0 k mask
  effect := setReg 0x2430 (k + 1) mask
  setting := true

/-- PARTITION_WRITE (R51). -/
def execPartitionWrite (p : Path) (k : Fin 8) (mask : Nat) (s : State) : Host.Outcome State Fault Refusal :=
  finish (commandWrite p 0x2430 (k + 1) (partitionCommand k mask)) s

/-! ## Errors in remap and route tables (R44, R239, R385) -/

/-- An uncorrectable error in the controller's master (holder 0) or in the copy of field `holder − 1`.
(DEDUCED: notes/assumptions/49.md.) -/
def remapErrorProg (r holder : Nat) (both : Bool) : Prog :=
  if holder = 0 then all [report 0x3009 6 0 r 0, whenP both (partitionReset r 0)]
  else whenP ((fieldRegions (holder - 1)).contains r) (all [report 0x3009 4 (holder - 1) r holder, partitionReset r 0])

/-- REMAP_TABLE_ERROR (R44). -/
def execRemapTableError (r : Region) (holder : Fin 13) (both : Bool) (s : State) : Host.Outcome State Fault Refusal :=
  finish (remapErrorProg r holder both) s

/-- ROUTE_TABLE_ERROR (R239). -/
def execRouteTableError (site : Site) (s : State) : Host.Outcome State Fault Refusal :=
  finish (all [report 0x5009 0 site site 0, partitionReset (siteRegion site) 2]) s

/-- A partition reset that does not wait has ended: the structure is rebuilt. -/
def partResetDone (us : Nat) : Prog := .look fun s =>
  withP (s.partResets.find? fun e => decide (e / 2048 = 0)) fun e => whenP (!s.controllerDown) (all [
    .eff (.partResets (s.partResets.erase e)),
    routesWritten,
    report 0xC00A 6 0 (e % 256) us])

/-- PARTITION_RESET_COMPLETE (R454). -/
def execPartitionResetComplete (tookUs : Nat) (s : State) : Host.Outcome State Fault Refusal :=
  finish (partResetDone tookUs) s

/-! ## Votes (R377 to R382) -/

/-- The referee of a region, when its steward runs and no slice runs on it (R380, R382, Table 15-5). -/
def State.refereeUp (s : State) (r : Nat) : Option Nat :=
  match s.referee r with
  | some n => if s.stewardUp (siteField n) && !s.slicing n then some n else none
  | none => none

/-- The regions that lend a referee to a region, in the order of R380. -/
def lendingRegions (r : Nat) : List Nat :=
  ((List.range 8).filter fun q => decide (q / 4 = r / 4 ∧ q ≠ r)) ++ (List.range 8).filter fun q => decide (q / 4 ≠ r / 4)

/-- The referee for a dispute of a site, and whether it is borrowed. (DEDUCED: notes/assumptions/77.md.) -/
def State.refereeFor (s : State) (site : Nat) : Option (Nat × Bool) :=
  match s.refereeUp (siteRegion site) with
  | some n => some (n, false)
  | none => ((lendingRegions (siteRegion site)).findSome? s.refereeUp).map fun n => (n, true)

/-- A dispute raised earlier goes first on the same referee. -/
def State.voteBehind (s : State) (site referee : Nat) : Bool :=
  (s.votesWaiting.takeWhile fun n => decide (n ≠ site)).any fun n =>
    s.stewardUp (siteField n) && (match s.refereeFor n with
      | some x => decide (x.1 = referee)
      | none => false)

/-- The verdict reaches the disputing tile, which applies it one beat later (R102, R378). -/
def deliverVerdict (site : Nat) (v : Verdict) : Prog := modM site fun m => { m with
  dispute := m.dispute.map fun d => { d with verdict := some v } }

/-- An unresolved verdict: event 0x3804 names 0xFFFF where no region has a referee.
(DEDUCED: notes/assumptions/77.md.) -/
def unresolvedVote (site : Nat) (referee : Option Nat) : Prog := all [
  deliverVerdict site .unresolved,
  count64 0x2540 0x04 1,
  count16 (0x3000 + site) 0xB3 1,
  withP referee fun n => count16 (0x3000 + n) 0xB3 1,
  report 0x3804 6 0 site (referee.getD 0xFFFF)]

/-- A waiting vote starts. -/
def voteStartProg (site : Nat) : Prog := .look fun s =>
  let rest := s.votesWaiting.filter fun n => decide (n ≠ site)
  whenP (s.votesWaiting.contains site && (s.mtile site).dispute.isSome && !s.controllerDown && s.stewardUp (siteField site))
    (match s.refereeFor site with
     | none => all [.eff (.votesWaiting rest), unresolvedVote site none]
     | some (n, borrowed) =>
       whenP (!(s.votes.any fun v => decide (v.referee = n)) && !s.voteBehind site n) (all [
         .eff (.votesWaiting rest),
         .eff (.votes (s.votes ++ [⟨site, n, borrowed⟩])),
         count64 0x2540 0x01 1,
         whenP borrowed (all [count64 0x2540 0x05 1, report 0x3805 6 0 (siteRegion site) (siteRegion n)]),
         report 0x3803 6 0 site n]))

/-- VOTE_START (R377). -/
def execVoteStart (site : Site) (s : State) : Host.Outcome State Fault Refusal := finish (voteStartProg site) s

/-- The bit faults of a referee as those of the main array of a tile: block sums by row × 64 + block. -/
def refereeUpsets (o : RefereeOutcome) (col : Nat) : List Upset :=
  (o.sumUpsets.map fun e => { row := e.1 / 64, col := col, block := e.1 % 64, mainSum := e.2 })
    ++ o.accUpsets.map fun e => { row := e.1 / 64, col := col, block := e.1 % 64, mainAcc := e.2 }

/-- The referee's value of one compared row, under R79. -/
def refereeRow (d : Dispute) (o : RefereeOutcome) (r : DisputeRow) : CellOut :=
  cellStep d.words (refereeUpsets o d.col) r.row d.col r.prior (r.aBlocks.zip r.bBlocks) fun _ => false

/-- The referee's block sums and accumulator equal recorded ones bit for bit, a NaN as its canonical encoding (R100, R377). -/
def sameValues (c : CellOut) (sums : List F32) (acc : F32) : Bool :=
  c.mainSums.map canonNan == sums.map canonNan && canonNan c.mainAcc == canonNan acc

/-- The verdict of a comparison (R378). A referee that halts or is halted compares nothing (R105, R382).
(DEDUCED: notes/assumptions/77.md.) -/
def verdictOf (d : Dispute) (o : RefereeOutcome) (halted : Bool) : Verdict :=
  let rows := d.rows.filter fun r => r.compared
  if o.sequencerMismatch || halted then .unresolved
  else if rows.all fun r => sameValues (refereeRow d o r) r.mainSums r.mainAcc then .main
  else if rows.all fun r => sameValues (refereeRow d o r) r.checkSums r.checkAcc then .checker
  else .unresolved

/-- The referee has compared. -/
def voteVerdictProg (site : Nat) (o : RefereeOutcome) : Prog := .look fun s =>
  withP (s.votes.find? fun v => decide (v.site = site)) fun v => withP (s.mtile site).dispute fun d =>
    whenP (!s.controllerDown && s.stewardUp (siteField site) && s.stewardUp (siteField v.referee)) (all [
      .eff (.votes (s.votes.filter fun w => decide (w.site ≠ site))),
      match verdictOf d o (s.mtile v.referee).halted with
      | .main => all [
          deliverVerdict site .main, count64 0x2540 0x02 1, count16 (0x3000 + site) 0xB2 1, siteFault site 0 150]
      | .checker => all [
          deliverVerdict site .checker, count64 0x2540 0x03 1, count16 (0x3000 + site) 0xB1 1, siteFault site 0 300]
      | .unresolved => unresolvedVote site (some v.referee),
      whenP o.sequencerMismatch (sequencerMismatch v.referee 0)])

/-- VOTE_VERDICT (R378). -/
def execVoteVerdict (site : Site) (outcome : RefereeOutcome) (s : State) : Host.Outcome State Fault Refusal :=
  finish (voteVerdictProg site outcome) s

/-! ## Field stewards (R386, R387, R430) -/

/-- The automatic restarts of a field in the last hour. State holds a restart by command under the field + 16. -/
def State.autoRestarts (s : State) (f : Nat) : Nat :=
  (s.restartTimes.filter fun e => decide (e.1 = f ∧ s.now < e.2 + hour)).length

/-- A restart of a steward begins. -/
def beginRestart (f key : Nat) : Prog := .look fun s => all [
  setReg (0x4080 + f) 0x21 2,
  .eff (.restartTimes ((key, s.now) :: s.restartTimes.filter fun e => decide (s.now < e.2 + hour)))]

/-- The islands of a field. -/
def fieldIslands (f : Nat) : List Nat := (List.range 24).filter fun i => decide (islandField i = f)

/-- Bring-up runs. -/
def State.bringingUp (s : State) : Bool := decide (s.bringUpStep < 12) && s.mainOn

/-- A stopped steward may be restarted by the controller itself (R387). -/
def State.mayRestart (s : State) (f : Nat) : Bool := s.reg 0x2520 0x01 == 1 && decide (s.autoRestarts f < s.reg 0x2520 0x03)

/-- The controller restarts a stopped steward, or asks for a decision; during bring-up the field's islands then stay
off until the next cold reset (R430). -/
def tryRestart (f : Nat) : Prog := .look fun s =>
  if s.mayRestart f then beginRestart f f
  else all [
    decisionNeeded 2 f 1,
    whenP s.bringingUp (.seq (.eff (.fieldsOff (setBit s.fieldsOff f))) (eachP (fieldIslands f) fun i =>
      whenP (decide (1 ≤ s.islandState i ∧ s.islandState i ≤ 3)) (islandOff i)))]

/-- A steward's pair disagrees: the votes of a referee that it serves go on as if the region had none (R382). -/
def stewardStop (f : Nat) : Prog := .look fun s =>
  whenP (s.stewardUp f) (all [
    setReg (0x4080 + f) 0x21 1,
    setReg (0x4080 + f) 0x20 1,
    reportRegions 0x380B 4 f f (regionMask (fieldRegions f)),
    reportRegions 0x1008 4 f f (regionMask (fieldRegions f)),
    eachP ((s.votes.filter fun v => decide (siteField v.referee = f)).map fun v => v.referee).eraseDups restartVotes,
    stopSelfCal 3,
    whenP (!s.controllerDown) (tryRestart f)])

/-- STEWARD_DISAGREE (R386). -/
def execStewardDisagree (f : FieldNo) (s : State) : Host.Outcome State Fault Refusal := finish (stewardStop f) s

/-- The write of object 0x2520:02. (DEDUCED: notes/assumptions/80.md.) -/
def restartCommand (v : Nat) : Command where
  valueOk _ := decide (v < 12)
  effect := .look fun s => whenP (s.reg (0x4080 + v) 0x21 == 1) (all [
    beginRestart v (v + 16),
    whenP ((List.range 12).all fun f => f == v || s.reg (0x4080 + f) 0x21 != 1)
      (setReg 0x2500 0x07 (clearBit (s.reg 0x2500 0x07) 1))])

/-- RESTART_STEWARD (R387). -/
def execRestartSteward (p : Path) (v : Nat) (s : State) : Host.Outcome State Fault Refusal :=
  finish (commandWrite p 0x2520 0x02 (restartCommand v)) s

/-- The held fences whose stewards all run enter the controller's order. -/
def resumeFences : Prog := .look fun s =>
  let ok := fun (f : FenceReq) => (siteFields f.site).all s.stewardUp
  all [
    eachP (s.heldFences.filter ok) fun f => withState fun t => .fences (insertFence f t.fences),
    .eff (.heldFences (s.heldFences.filter fun f => !ok f)),
    setReg 0x2420 0x03 (s.heldFences.filter fun f => !ok f).length]

/-- The results that the monitors of running stewards hold are logged. -/
def logHeldResults : Prog := .look fun s =>
  eachP (s.heldResults.filter fun x => s.stewardUp (siteField x.report.site)) logSlice

/-- A steward has restarted. -/
def stewardRestarted (f : Nat) : Prog := .look fun s =>
  whenP (s.reg (0x4080 + f) 0x21 == 2 && !s.controllerDown) (all [
    setReg (0x4080 + f) 0x21 0,
    setReg (0x4080 + f) 0x20 0,
    count32 (0x4080 + f) 0x22 1,
    resumeFences,
    eachP (fieldIslands f) fun i => whenP (s.island i).offHeld (islandOff i),
    eachP ((s.idle.filter fun e => e.2 == 2 && decide (siteField e.1 = f) && !s.offerHeld e.1).map fun e => e.1) fun n => .eff (.idle n 1),
    logHeldResults,
    report 0x380C 4 f f (s.restartTimes.filter fun e => decide (e.1 % 16 = f ∧ s.now < e.2 + hour)).length])

/-- STEWARD_RESTART_COMPLETE (R387). -/
def execStewardRestartComplete (f : FieldNo) (s : State) : Host.Outcome State Fault Refusal :=
  finish (stewardRestarted f) s

/-! ## The Kilhild controller (R388) -/

/-- CONTROLLER_DISAGREE (R388). -/
def execControllerDisagree (s : State) : Host.Outcome State Fault Refusal :=
  finish (.look fun t => whenP t.booted (.eff (.controllerDown true))) s

/-- The controller has restarted: the held events are logged in the order they were raised, then event 0x380D.
(DEDUCED: notes/assumptions/80.md.) -/
def controllerBack : Prog := .look fun s =>
  whenP s.controllerDown (all [
    .eff (.controllerDown false),
    .eff (.heldEvents []),
    eachP s.heldEvents logEvent,
    report 0x380D 6 0 0 0,
    logHeldResults,
    .eff (.heldPolicies []),
    eachP (s.heldPolicies.filter fun e => s.isCandidate e.1 || e.2 == 6) fun e => policyFence e.1 e.2,
    eachP ((List.range 12).filter fun f => s.reg (0x4080 + f) 0x21 == 1) fun f => .look fun t =>
      whenP (!(s.reg 0x2500 0x07).testBit 1 || t.mayRestart f) (tryRestart f)])

/-- CONTROLLER_RESTART_COMPLETE (R388). -/
def execControllerRestartComplete (s : State) : Host.Outcome State Fault Refusal := finish controllerBack s

end Sys2Proof.Machine
end

