-- ==== Sys2Proof/Machine/EventLog.lean ====
section
/-! DEFINITION. The event log, the error register, the error history and the EMCY inhibit (R450, R470 to R472). -/

namespace Sys2Proof.Machine

open Sys2Proof

/-- The entries that events make, with rising sequence numbers. -/
def entriesFrom (seq : Nat) (es : List Event) : List LogEntry :=
  match es with
  | [] => []
  | e :: es => ⟨seq % 2 ^ 32, e⟩ :: entriesFrom (seq + 1) es

/-- Every raised event reaches flash, the oldest entries giving way. State holds the log newest first. -/
def flushLog : Prog := .look fun s => all [
  count64 0x2F00 0x03 (s.log.length + s.raised.length - 65536),
  .eff (.log ((entriesFrom s.logSeq s.raised).reverse ++ s.log)),
  .eff (.logSeq ((s.logSeq + s.raised.length) % 2 ^ 32)),
  .eff (.raised [])]

/-- EVENT_LOG_FLUSH (R450). -/
def execEventLogFlush (s : State) : Host.Outcome State Fault Refusal :=
  finish (.look fun t => whenP (t.booted && !t.controllerDown) flushLog) s

/-- The EMCY error reset message (R471). -/
def sendErrorReset : Prog := .look fun s => whenP s.canSends (sendEmcy 0 0 0 0 0 0)

/-- A bit of the error register clears, bit 0 with the last one. -/
def clearErrorBit (b : Nat) : Prog := .look fun s =>
  let r := clearBit (s.reg 0x1001 0x00) b
  let r' := if r = 1 then 0 else r
  whenP (s.booted && decide (0 < b) && (s.reg 0x1001 0x00).testBit b) (all [
    setReg 0x1001 0x00 r',
    whenP (decide (r' = 0)) (if s.emcyBusy then .eff (.emcyResetOwed true) else sendErrorReset)])

/-- ERROR_REGISTER_CLEAR (R470): 60 s after the last event of the classes of a bit. -/
def execErrorRegisterClear (bitNo : Fin 8) (s : State) : Host.Outcome State Fault Refusal :=
  finish (clearErrorBit bitNo) s

/-- EMCY_INHIBIT_END (R471): an owed error reset is sent when the register still reads 0, and dropped otherwise. -/
def execEmcyInhibitEnd (s : State) : Host.Outcome State Fault Refusal :=
  finish (.look fun t => whenP t.emcyBusy (all [
    .eff (.emcyBusy false),
    .eff (.emcyResetOwed false),
    whenP (t.emcyResetOwed && t.reg 0x1001 0x00 == 0) sendErrorReset])) s

/-- The write of object 0x1003:00. -/
def historyCommand (v : Nat) : Command where
  valueOk _ := v == 0
  effect := .eff (.errorHistory [])

/-- ERROR_HISTORY_CLEAR (R469). -/
def execErrorHistoryClear (p : Path) (v : Nat) (s : State) : Host.Outcome State Fault Refusal :=
  finish (commandWrite p 0x1003 0x00 (historyCommand v)) s

end Sys2Proof.Machine
end

