-- ==== Sys2Proof/Machine/Resets.lean ====
section
/-! DEFINITION. The six reset kinds, what each keeps, and the supply and reset pins (R441 to R447, R453, R478, R480,
Tables 17-1, 17-2 and 17-5). -/

namespace Sys2Proof.Machine

open Sys2Proof

/-! ## Which reset runs (R441) -/

/-- The width of the widest reset that runs or waits; 0 for none. -/
def State.runningWidth (s : State) : Nat :=
  max (match s.reset_ with | some r => r.width | none => 0)
    (max (match s.resetWaiting with | some r => r.width | none => 0)
      (max (if s.partResets.isEmpty then 0 else 3)
        (if s.ctxs.any fun e => e.2.resetWaiting then 2 else 0)))

/-- The event of a request that a reset of the same or a wider kind turns away. -/
def resetRejected (kind reason : Nat) : Prog := report 0xC00B 6 0 kind reason

/-! ## What is kept (R444, Table 17-2) -/

/-- An rw object that module flash keeps (Table 17-2, R468). (DEDUCED: notes/assumptions/30.md.) -/
def flashKept (idx sub : Nat) : Bool :=
  (match objRow idx sub with | some r => decide (r.acc = .rw) | none => false)
  && decide ((0x2000 ≤ idx ∧ idx < 0x2700) ∨ (0x2900 ≤ idx ∧ idx < 0x3000) ∨ (0x4000 ≤ idx ∧ idx < 0x4300)
      ∨ idx = 0x1017 ∨ idx = 0x2E31)

/-- What else outlasts every reset: suspicion, the count of bring-ups and failed phases (R352, R375, R422). The ageing values are
in the calibration set (R431). (DEDUCED: notes/assumptions/30.md.) -/
def alwaysKept (idx sub : Nat) : Bool :=
  flashKept idx sub || decide (0x3000 ≤ idx ∧ idx < 0x3CC0 ∧ sub = 0xB0) || decide (idx = 0x20F0 ∧ sub = 0x04)
    || decide (0x4000 ≤ idx ∧ idx < 0x4018 ∧ sub = 0x0B)

/-- What the management plane and the HBM supplies keep across a warm full reset besides (R442; DEDUCED, notes/assumptions/30.md). -/
def warmKept (idx sub : Nat) : Bool :=
  alwaysKept idx sub
    || [0x1001, 0x2010, 0x20F8, 0x2100, 0x2F10].contains idx
    || decide ((idx = 0x2030 ∧ sub = 0x03) ∨ (idx = 0x20F0 ∧ sub = 0x03) ∨ (idx = 0x2200 ∧ 0x02 ≤ sub ∧ sub ≤ 0x07)
      ∨ (idx = 0x2320 ∧ sub = 0x05) ∨ (0x2410 ≤ idx ∧ idx < 0x2418) ∨ (idx = 0x2420 ∧ sub = 0x03)
      ∨ (idx = 0x2500 ∧ (sub = 0x07 ∨ sub = 0x08)) ∨ idx = 0x2530 ∨ (idx = 0x2610 ∧ sub = 0x02) ∨ (idx = 0x2A10 ∧ sub = 0x01)
      ∨ (idx = 0x2E30 ∧ (sub = 0x02 ∨ sub = 0x03)) ∨ (idx = 0x2E40 ∧ (sub = 0x01 ∨ sub = 0x04 ∨ sub = 0x05))
      ∨ (0x3000 ≤ idx ∧ idx < 0x3CC0 ∧ (sub = 0xB4 ∨ sub = 0xC0 ∨ sub = 0xC1))
      ∨ (0x4000 ≤ idx ∧ idx < 0x4018 ∧ ((0x04 ≤ sub ∧ sub ≤ 0x07) ∨ sub = 0x0D ∨ sub = 0x0E))
      ∨ (0x4100 ≤ idx ∧ idx < 0x4120 ∧ (sub ≤ 0x04 ∨ sub = 0x09 ∨ sub = 0x0A)))

/-- The counts that no object shows begin again (Table 17-2; DESIGN CHOICE, notes/assumptions/106.md). -/
def zeroCounts : Prog := all [.eff (.dropMaskDrops 0 everyKey), .eff (.dropSlotFixes 0 everyKey), .eff (.retiredDrops 0)]

/-- Returns every scalar that a predicate names to its default. -/
def resetRegs (which : Nat → Nat → Bool) : Prog := .look fun s =>
  eachP ((s.regs.filter fun e => which (e.1 / 256) (e.1 % 256)).map fun e => e.1) fun k => .eff (.dropRegs k (k + 1))

/-- The state of the grid and of every context begins anew (the init rows of Table 17-2). -/
def gridInit : Prog := all [
  dropNetwork,
  .eff (.dropMem 0x040000000000 0x040180000000), .eff (.dropMem 0x050000000000 0x050078000000),
  .eff (.dropTags 0 everyKey), .eff (.dropPoisonWords 0 everyKey), .eff (.dropAcc 0 everyKey), .eff (.dropVreg 0 everyKey),
  .eff (.dropMtiles 0 everyKey), .eff (.dropStiles 0 everyKey), .eff (.dropFtiles 0 everyKey), .eff (.dropBond 0 everyKey),
  .eff (.dropRunning 0 everyKey), .eff (.dropPlans 0 everyKey), .eff (.dropCtxs 0 everyKey), .eff (.dropSnaps 0 everyKey),
  .eff (.dropCells 0 everyKey), .eff (.dropWaiters 0 everyKey), .eff (.dropFmap 0 everyKey), 
  .look fun s => eachP (s.rings.map fun e => e.1) fun r => modRing r Ring.off,
  .eff (.dropIdle 0 everyKey), .eff (.dropOfferHold 0 everyKey), .eff (.dropMicrocode 0 everyKey),
  .eff (.entryWaits []), .eff (.onceUsed []), .eff (.votesWaiting []), .eff (.votes []), .eff (.injectStop 0),
  .look fun s => eachP (s.xtiles.map fun e => e.1) fun x => modX x fun y => { orphan := y.orphan, rerouted := y.rerouted },
  resetRegs fun idx sub => decide (0x2700 ≤ idx ∧ idx < 0x2740)
    || (decide (0x3000 ≤ idx ∧ idx < 0x3CC0) && [0x50, 0x70, 0x71, 0x8A].contains sub)]

/-! ## Rebuilding the remap tables (R46, R50) -/

/-- The health cause of a site. -/
def State.healthCause (s : State) (n : Nat) : Option Nat := (s.health.find? fun h => decide (h.site = n)).map fun h => h.cause

/-- The placement state that the fuses and the health record give a site; 0 for a site that neither names (R50). -/
def State.recordedState (s : State) (n : Nat) : Nat :=
  match s.healthCause n with
  | some 7 => 5
  | some _ => if s.fuseSites.contains n then 3 else 4
  | none => if s.fuseSites.contains n then 3 else 0

/-- Pending releases take effect: their health entries go, and their scores with them (R46, R375). A fence that was not
persisted takes an entry that this frees and is lost otherwise (R49). -/
def applyReleases : Prog := .look fun s => all [
  eachP s.releases fun n => setScore n 0,
  .eff (.health (let kept := s.health.filter fun h => !s.releases.contains h.site
    kept ++ s.unpersisted.take (256 - kept.length))),
  .eff (.unpersisted []), .eff (.releases [])]

/-- The fenced mask of a course from the fuses and the health record. -/
def State.recordedMask (s : State) (r k : Nat) : Nat :=
  ((s.fuseSites ++ s.health.map fun h => h.site).filter fun n =>
    decide (siteRegion n = r ∧ courseOf (siteRow n) = k)).foldl (fun m n => setBit m (sitePierLocal n)) 0

/-- The X-tiles at link-dead sites are orphaned, and one whose site is link-dead no more is not (R295). -/
def refreshOrphans (dead : List Nat) : Prog := .look fun s => eachP (List.range 128) fun x =>
  if s.fencedState (xSite x) = 5 then orphanX x
  else whenP (dead.contains (xSite x) && (s.xtile x).orphan) (modX x fun y => { y with orphan := false, rerouted := false })

/-- Builds every remap table from the union of the fuses and the health record with the pending releases applied; a
course whose entry changes counts in its region's generation. Only bring-up reports the courses that are degraded and the
regions without a referee. (DEDUCED: notes/assumptions/19.md.) -/
def rebuildRemap (bringUp : Bool) : Prog := .seq applyReleases (.look fun s =>
  let named := (s.fuseSites ++ s.health.map fun h => h.site).eraseDups
  let dead := (s.fencedAs.filter fun e => decide (e.2 = 5)).map fun e => e.1
  all [
    .eff (.dropFencedAs 0 everyKey), .eff (.dropRouteState 0 everyKey),
    eachP named fun n => all [
      .eff (.fencedAs n (s.recordedState n)),
      .eff (.routeState n (if s.recordedState n = 5 then 2 else 1)),
      .eff (.candidates n false)],
    eachP (List.range 8) fun r => all [
      eachP (List.range 24) fun k =>
        whenP (s.fenceMask r k != s.recordedMask r k) (all [
          setReg (0x2410 + r) (k + 1) (courseEntry (s.recordedMask r k)),
          whenP (!bringUp) (bumpGeneration r)]),
      refreshRegion r,
      whenP bringUp (.look fun t => all [
        eachP ((List.range 24).filter fun k => decide (2 ≤ popCount 17 (t.fenceMask r k))) fun k =>
          report 0x3003 6 0 r (r / 4 * 24 + k),
        whenP (t.referee r).isNone (report 0x300B 6 0 r 0)])],
    refreshOrphans dead])

/-! ## Compute reset (R453) -/

/-- The captures in progress end, their slots incomplete, and a flash copy in progress is discarded (R451, R452). -/
def stopDumps : Prog := all [
  endCaptures,
  .eff (.dumpCopying none)]

/-- Every context that runs dies. -/
def killAll (cause : Nat) : Prog := eachP (List.range 64) fun c => killContext c cause

/-- What resets of compute width and wider stop before the grid begins anew. (DEDUCED: notes/assumptions/76.md.) -/
def stopWork (cause : Nat) : Prog := all [
  .eff (.partResets []), stopDumps, killAll cause, endTests 1, cancelDue 1, gridInit]

/-- The memory lintels close. -/
def closeMemoryLintels : Prog := eachP (List.range 128) fun x => modLintel x fun l => { l with closed := true }

/-- The memory lintels whose sides are out of reset open again. -/
def openMemoryLintels : Prog := eachP (List.range 128) fun x => modLintel x fun l =>
  { l with closed := l.coreReset || l.clockedReset }

/-- A compute reset runs to the beginning of its microcode broadcast. -/
def computeStart (r : ResetRun) : Prog := all [
  .eff (.reset_ (some r)),
  stopWork 0xC006, closeMemoryLintels, selfRefresh, rebuildRemap false, routesWritten, broadcastMicrocode]

/-- The stacks are trained again from saved settings (R306, Table 17-5). (DEDUCED: notes/assumptions/84.md.) -/
def retrainStacks : Prog := .look fun s => eachP (List.range 32) fun k =>
  whenP (s.reg (0x4100 + k) 0x01 == 1) (all [
    setReg (0x4100 + k) 0x02 (if s.romTable then 6400 else s.reg 0x2D00 0x01),
    setReg (0x4100 + k) 0x03 (if s.romTable then 3 else 1)])

/-- A site can hold microcode now: it serves, its island is on and its phase group is not dark, and its field's steward runs
(R359, R386, R430). -/
def State.takesMicrocode (s : State) (n : Nat) : Bool :=
  s.lineTarget n && s.islandUp (siteIsland n) && !s.siteDark n && s.stewardUp (siteField n)

/-- Every site that can hold microcode has the whole image (R428, R429). -/
def State.microcodeThere (s : State) : Bool := s.microcode.all fun e => e.2.left == 0 || !s.takesMicrocode e.1

/-- The sites whose image failed its CRC check (R426). -/
def State.microcodeFailed (s : State) : List Nat := (s.microcode.filter fun e => e.2.failed).map fun e => e.1

/-- A compute reset ends, its microcode broadcast complete (R428, R453). -/
def computeDone (ms : Nat) : Prog := .look fun s =>
  withP s.reset_ fun r => whenP (r.width == 4 && !s.controllerDown && s.microcodeThere) (all [
    .eff (.reset_ none),
    leaveSelfRefresh,
    openMemoryLintels,
    whenP r.retrain retrainStacks,
    report 0xC007 6 0 ms (if r.retrain then 1 else 0)])

/-- COMPUTE_RESET_COMPLETE (R453). -/
def execComputeResetComplete (tookMs : Nat) (s : State) : Host.Outcome State Fault Refusal :=
  finish (computeDone tookMs) s

/-! ## Warm full reset (R442) -/

/-- The settings return to their defaults at the next warm or cold reset after a restore (R468). -/
def applyRestore : Prog := .look fun s =>
  whenP s.restoreDefaults (all [resetRegs flashKept, .eff (.restoreDefaults false)])

/-- Every domain but the management plane, HBM and VDDP loses power. -/
def dropPower : Prog := all [
  .eff (.mainOn false), linksDown,
  .eff (.dropPairs 0 everyKey), .eff (.dropLintels 0 everyKey), .eff (.dropDieModules 0 everyKey), .eff (.loans []), .eff (.replanning false),
  .look fun s => eachP (s.islands.map fun e => e.1) fun i => modIsland i fun x => { dark := x.dark, owed := x.owed },
  .look fun s => eachP (s.xtiles.map fun e => e.1) fun x => .eff (.xtiles x {})]

/-- A warm full reset begins at step 3 of bring-up. -/
def warmStart (r : ResetRun) : Prog := all [
  .eff (.reset_ (some r)),
  stopWork 0xC008, .eff (.dropRings 0 everyKey), selfRefresh, dropPower,
  resetRegs fun idx sub => !warmKept idx sub,
  zeroCounts,
  applyRestore,
  .look fun s => whenP (decide (s.nmt = .operational)) (.eff (.nmt .preOperational)),
  rebuildRemap false,
  routesWritten,
  resumeFences,
  setReg 0x20F0 0x01 0x03]

/-! ## Cold reset (R441, R442) -/

/-- The fences of dark groups that have not ended: the groups stay dark through every reset, so their sites are still to be fenced
(R352, R354). (DEDUCED: notes/assumptions/84.md.) -/
def State.powerFences (s : State) : List FenceReq :=
  ((s.fence.toList.map fun f => f.req) ++ s.fences ++ s.heldFences).filter fun f => decide (f.cause = 0x02)

/-- A cold reset begins at step 1 of bring-up: what is not in module flash is lost.
(DEDUCED: notes/assumptions/84.md.) -/
def coldStart (r : ResetRun) : Prog := .look fun s => all [
  stopWork 0xC009, dropPower, .eff (.dropRings 0 everyKey),
  .eff (.dropMem 0 0x020000000000), .eff (.dropPoisonLines 0 everyKey), .eff (.dropHbm 0 everyKey),
  .eff (.dropSelectors 0 everyKey), .eff (.dropWindows 0 everyKey), .eff (.dropDictSnaps 0 everyKey),
  .eff (.dropLimits 0 everyKey), .eff (.dropSliceTimes 0 everyKey), .eff (.dropCan 0 everyKey),
  .eff (.dropFencedAs 0 everyKey), .eff (.dropRouteState 0 everyKey),
  .eff (.fences (s.powerFences)), .eff (.heldFences []), .eff (.fence none), .eff (.fieldsOff 0),
  .eff (.policyTimes []), .eff (.restartTimes []), .eff (.evidence []), .eff (.findings []), .eff (.resultLog []),
  .eff (.heldResults []), .eff (.errorHistory []), .eff (.controllerDown false), .eff (.heldEvents []),
  .eff (.heldPolicies []),
  .eff (.dumps [{}, {}, {}, {}]), .eff (.msixWaiting []), .eff (.input {}),
  .eff (.emcyBusy false), .eff (.emcyResetOwed false),
  .eff (.slew 0), .eff (.oscillator 0), .eff (.ppsNext 0),
  .eff (.booted false), .eff (.recovery false), .eff (.nmt .initialising),
  withP s.calNext fun c => all [.eff (.cal c), .eff (.calNext none)],
  resetRegs fun idx sub => !alwaysKept idx sub,
  zeroCounts,
  applyRestore,
  .eff (.resetWaiting none), .eff (.reset_ (some r)),
  setReg 0x2F10 0x04 6, setReg 0x2F10 0x05 r.cause]

/-! ## Requests (R441, R443) -/

/-- A reset of compute width or wider starts. -/
def startReset (r : ResetRun) : Prog := .seq (.eff (.resetWaiting none))
  (match r.width with
   | 6 => coldStart r
   | 5 => warmStart r
   | _ => computeStart r)

/-- The acceptance event of a reset of compute width or wider. -/
def resetEvent (r : ResetRun) : Prog :=
  match r.width with
  | 6 => report 0xC009 6 0 r.cause 0
  | 5 => report 0xC008 6 0 r.cause 0
  | _ => report 0xC006 6 0 r.cause (if r.retrain then 1 else 0)

/-- Notes an accepted reset in object 0x2F10. -/
def noteReset (width cause : Nat) : Prog := all [
  setReg 0x2F10 0x04 width, setReg 0x2F10 0x05 cause, count32 0x2F10 0x06 1]

/-- A reset is accepted: it starts at once, or once the fence that runs is complete.
(DEDUCED: notes/assumptions/76.md.) (DEDUCED: notes/assumptions/84.md.) -/
def acceptReset (r : ResetRun) : Prog := .look fun s => all [
  resetEvent r,
  noteReset r.width r.cause,
  if s.fence.isSome then .eff (.resetWaiting (some r)) else startReset r]

/-- Every reference sensor reads below 85 °C, when an island is tripped (R367). -/
def State.coolEnough (s : State) : Bool :=
  !((List.range 24).any fun i => s.islandState i == 4)
    || (List.range 24).all fun i => decide (s.reg (0x4000 + i) 0x0D < 85 ∨ 32768 ≤ s.reg (0x4000 + i) 0x0D)

/-- A reset of a width can start from the present bring-up state: a halted or recovering device takes a cold reset only,
and a compute reset needs a ready device (R367, R424, R427). (DEDUCED: notes/assumptions/83.md.) -/
def State.resetFits (s : State) (width : Nat) : Bool :=
  let code := s.reg 0x20F0 0x01
  match width with
  | 6 => true
  | 5 => code != 0x0D && code != 0x0F && s.coolEnough
  | _ => s.ready

/-- The write of object 0x2F10:01. -/
def resetCommand (v : Nat) : Command where
  valueOk _ := decide (1 ≤ v ∧ v ≤ 4)
  stateOk s := decide (s.runningWidth < min 6 (7 - min v 3)) && s.resetFits (7 - min v 3)
  refused code := .look fun s =>
    whenP (code == abortState && decide (7 - min v 3 ≤ s.runningWidth)) (resetRejected (7 - min v 3) 0)
  effect := acceptReset { width := 7 - min v 3, cause := 1, retrain := v == 4 }

/-- RESET_COLD (R442). -/
def execResetCold (p : Path) (s : State) : Host.Outcome State Fault Refusal :=
  finish (commandWrite p 0x2F10 0x01 (resetCommand 1)) s

/-- RESET_WARM_FULL (R442). -/
def execResetWarmFull (p : Path) (s : State) : Host.Outcome State Fault Refusal :=
  finish (commandWrite p 0x2F10 0x01 (resetCommand 2)) s

/-- RESET_COMPUTE (R453). -/
def execResetCompute (p : Path) (s : State) : Host.Outcome State Fault Refusal :=
  finish (commandWrite p 0x2F10 0x01 (resetCommand 3)) s

/-- RESET_COMPUTE_RETRAIN (R453). -/
def execResetComputeRetrain (p : Path) (s : State) : Host.Outcome State Fault Refusal :=
  finish (commandWrite p 0x2F10 0x01 (resetCommand 4)) s

/-- A warm full reset that no command asks for. -/
def warmRequest (cause : Nat) : Prog := .look fun s =>
  whenP (s.booted && s.resetFits 5)
    (if s.runningWidth < 5 then acceptReset { width := 5, cause := cause }
     else whenP (s.runningWidth == 5) (resetRejected 5 0))

/-! ## Supplies and pins (R441, R477, R478, R480) -/

/-- AUX_SUPPLY_RISE (R441). -/
def execAuxSupplyRise (s : State) : Host.Outcome State Fault Refusal :=
  finish (.look fun t => whenP (!t.auxOk) (all [
    .eff (.auxOk true), startReset { width := 6, cause := 0 }, report 0xC009 6 0 0 0])) s

/-- The auxiliary supply falls: a switch-off of every domain, and the waiting log entries are written on the hold-up. -/
def auxFail : Prog := .look fun s =>
  whenP s.auxOk (all [
    switchOff 0x1006,
    .eff (.reset_ none), .eff (.resetWaiting none), .eff (.fence none),
    whenP (s.booted && !s.controllerDown) flushLog,
    .eff (.auxOk false), .eff (.booted false), .eff (.recovery false), .eff (.controllerDown false), .eff (.heldEvents []),
    .eff (.heldPolicies [])])

/-- AUX_SUPPLY_FAIL (R478). -/
def execAuxSupplyFail (s : State) : Host.Outcome State Fault Refusal := finish auxFail s

/-- HRESET_N_LOW (R480): a low level shorter than 100 ns starts nothing. (DEDUCED: notes/assumptions/83.md.) -/
def execHresetNLow (ns : Nat) (s : State) : Host.Outcome State Fault Refusal :=
  finish (.look fun t => whenP (decide (100 ≤ ns) && t.auxOk) (all [
    .eff (.hresetLow true),
    whenP (t.runningWidth != 6) (warmRequest 2)])) s

/-- HRESET_N_RISE (R480). -/
def execHresetNRise (s : State) : Host.Outcome State Fault Refusal := finish (.eff (.hresetLow false)) s

/-- INPUT_VOLTAGE_SAMPLE (R355, Table 17-1): once the input has been good for 1 s after a switch-off, main power returns
by a warm full reset of the device's own. (DEDUCED: notes/assumptions/74.md.) -/
def execInputVoltageSample (mV powerW : Nat) (s : State) : Host.Outcome State Fault Refusal :=
  finish (.seq (inputProg mV powerW)
    (.look fun t => whenP (t.inputBack t.input) (warmRequest 3))) s

/-! ## Context reset (R447) -/

/-- A context reset whose packets are gone, or whose wait is over, ends. (DEDUCED: notes/assumptions/102.md.) -/
def contextResetDone (c : Nat) : Prog := .seq (freeContext c) (report 0xC004 7 c c 0)

/-- A context reset begins: the context dies, and is free at once when no flag packet of its is in flight.
(DEDUCED: notes/assumptions/102.md.) -/
def contextResetStart (c : Nat) : Prog := all [
  killContext c 0xC004,
  modCtx c fun x => { x with resetWaiting := true },
  .look fun s => whenP (s.reg (0x2700 + c) 0x0A == 0) (contextResetDone c)]

/-- The write of object 0x2F10:02. -/
def contextResetCommand (v : Nat) : Command where
  valueOk _ := decide (v < 64)
  stateOk s := s.ctxState v != 0 && decide (s.runningWidth < 2)
  refused code := .look fun s => whenP (code == abortState && decide (2 ≤ s.runningWidth)) (resetRejected 2 0)
  effect := .look fun s => all [
    noteReset 2 1,
    if s.fence.isSome then modCtx v fun x => { x with resetWaiting := true } else contextResetStart v]

/-- CONTEXT_RESET (R447). -/
def execContextReset (p : Path) (v : Nat) (s : State) : Host.Outcome State Fault Refusal :=
  finish (commandWrite p 0x2F10 0x02 (contextResetCommand v)) s

/-- CONTEXT_RESET_WAIT_END (R447). -/
def execContextResetWaitEnd (c : Ctx) (s : State) : Host.Outcome State Fault Refusal :=
  finish (.look fun t => whenP ((t.ctx c).resetWaiting && t.ctxState c == 2 && t.fence.isNone) (contextResetDone c)) s

/-! ## Tile reset (R443) -/

/-- The write of object 0x2F10:03. -/
def tileResetCommand (v : Nat) : Command where
  valueOk _ := decide (v < 3264)
  stateOk s := !s.isFenced v && decide (s.runningWidth < 1)
  refused code := .look fun s => whenP (code == abortState) (resetRejected 1 (if 0 < s.runningWidth then 0 else 1))
  effect := all [noteReset 1 1, resetTile v 0 0xC005]

/-- TILE_RESET (R443). -/
def execTileReset (p : Path) (v : Nat) (s : State) : Host.Outcome State Fault Refusal :=
  finish (commandWrite p 0x2F10 0x03 (tileResetCommand v)) s

end Sys2Proof.Machine
end

