-- ==== Sys2Proof/Machine/Fence.lean ====
section
/-! DEFINITION. A fence during operation, from its start to the replay or the death of the contexts that it stopped
(R45, R46, R239, R392 to R395, R443, Table 14-3). -/

namespace Sys2Proof.Machine

open Sys2Proof

/-! ## The start: sections stopped, state migrated, the remap entry changed -/

/-- The sites of a region. -/
def regionSites (r : Nat) : List Nat := (List.range 3264).filter fun n => decide (siteRegion n = r)

/-- The running contexts with a section running in a region, each with whether a released switch was under way. -/
def State.fenceStops (s : State) (r : Nat) : List (Nat × Bool) :=
  ((s.sectionCtxs (regionSites r)).filter s.ctxRuns).map fun c => (c, match (s.ctx c).switch with
    | some w => w.released
    | none => false)

/-- The sites of a site's region course. -/
def courseSites (n : Nat) : List Nat := (List.range 17).map fun p => siteRow n * 68 + sitePier n / 17 * 17 + p

/-- A fence request still has something to do (R46). -/
def State.fenceUsable (s : State) (f : FenceReq) : Bool :=
  if s.isFenced f.site then decide (f.cause = 0x07 ∧ s.fencedState f.site ≠ 5) else true

/-- The words of a tile that the migration could not correct become poisoned by the copy (R393). -/
def poisonMoved (ecc : SiteEcc) (n : Nat) : Prog := .look fun s => withP (s.tileOf n) fun l =>
  eachP (badWordsOf ecc n) fun w => match tileType l with
    | 0 => whenP (decide (w < 65536)) (.eff (.poisonWords (storeAddr (mIndex l) 0 / 8 + w) true))
    | 1 => whenP (decide (w < 524288)) (.eff (.tags (sIndex l * 65536 + w / 8) 2))
    | _ => .skip

/-- The fence of a request begins: its course's slices restore, its tiles move to other sites. -/
def fenceBegin (f : FenceReq) (ecc : SiteEcc) : Prog := .look fun s =>
  let dead := f.cause == 0x07
  let stopped := s.fenceStops (siteRegion f.site)
  all [
    restoreSlices (courseSites f.site) ecc,
    abortSlices (courseSites f.site) 0,
    eachP stopped fun e => stopSections e.1,
    eachP ((courseSites f.site).filter fun n => decide (f.site ≤ n) && !s.slicing n) (poisonMoved ecc),
    fenceNow f.site (if dead then 5 else 4) (s.siteDark f.site),
    whenP dead (eachP ((List.range 128).filter fun x => decide (xSite x = f.site)) orphanX),
    .eff (.injectStop (s.partitionOf (siteRegion f.site))),
    .eff (.fence (some { req := f, linkDead := dead, stopped := stopped }))]

/-- The controller takes the next fence action in its order: one that lost a steward meanwhile is held, one with nothing
left to do is dropped. -/
def fenceStartProg (ecc : SiteEcc) : Prog := .look fun s =>
  whenP (s.ready && s.fence.isNone && !s.controllerDown && s.reset_.isNone && s.resetWaiting.isNone)
    (match s.fences with
     | [] => .skip
     | f :: rest => .seq (.eff (.fences rest))
       (match (siteFields f.site).find? fun g => !s.stewardUp g with
        | some g => holdFence f g
        | none => whenP (s.fenceUsable f) (fenceBegin f ecc)))

/-- FENCE_START (R392). -/
def execFenceStart (ecc : SiteEcc) (s : State) : Host.Outcome State Fault Refusal := finish (fenceStartProg ecc) s

/-! ## Route tables (R239) -/

/-- An ordered packet of a partition whose injection is stopped is still in a router's input; an ejection queue is the
endpoint's. -/
def State.orderedLeft (s : State) : Bool := s.net.any fun e => decide (e.1 / 4 % 16 ≠ 5) && e.2.any s.injectStopped

/-- The route tables take the fenced site in, and injection resumes. -/
def routeUpdateProg : Prog := .look fun s =>
  withP s.fence fun f => whenP (!f.routed && !s.orderedLeft && !s.controllerDown) (all [
    .eff (.routeState f.req.site (if f.linkDead then 2 else 1)),
    routesWritten,
    .eff (.injectStop 0),
    .eff (.fence (some { f with routed := true }))])

/-- ROUTE_TABLE_UPDATE (R239). -/
def execRouteTableUpdate (s : State) : Host.Outcome State Fault Refusal := finish routeUpdateProg s

/-! ## Replay (R389, R394, R395) -/

/-- A replay fails and the context dies: reason 1 for an image, 2 for the limit.
(DEDUCED: notes/assumptions/76.md.) -/
def replayFails (c reason : Nat) : Prog := all [
  count32 0x2510 0x03 1, report 0x380A 7 c c reason, killContext c 0x380A]

/-- The footprints of the sections of a context that were running or armed. -/
def State.liveFeet (s : State) (c : Nat) : List Footprint :=
  ((s.runFoot c).toList ++ (if (s.ctx c).armDesc.isSome then (s.ctx c).armFoot.toList else [])).eraseDups

/-- A slot's image read again: loadable, rejected with an event, its second argument and its site, or not readable. -/
inductive Reloaded where
  | good (xs : List LoadTile)
  | rejected (code arg2 site : Nat)
  | unread

/-- The image that filled a slot with a footprint, as it can be read and loaded again now. -/
def State.reloaded (s : State) (c : Nat) (f : Footprint) : Reloaded :=
  let ok := fun (n : Nat) => decide (f.image % 64 = 0 ∧ f.image + n ≤ hbmEnd) && !touchesDump f.image n
    && s.hbmServes f.image n && !s.rangeBad f.image n
  let head := s.bytesAt f.image 64
  if !ok 64 then .unread
  else if !s.imageHeadOk c head then .rejected 0x6002 0xFFFF 0xFFF
  else if !ok (imLength head) then .unread
  else match s.checkImage c f.slot (s.bytesAt f.image (imLength head)) with
    | .good _ _ _ xs => .good xs
    | .bad code a n => .rejected code a n

/-- The loader reports an image that it rejects at a replay as at a load (R224). -/
def reportReload (c : Nat) (x : Reloaded) : Prog :=
  match x with
  | .rejected code a n => .seq (reportRejected c code a n) (count64 0x2B00 0x03 1)
  | _ => .skip

/-- The tiles of a footprint's slot in a region are loaded again, with the region's new generation. -/
def reloadTiles (c r : Nat) (f : Footprint) (xs : List LoadTile) : Prog :=
  eachP (xs.filter fun x => decide (tileRegion x.tile = r)) fun x => .look fun s => withP (s.siteOf x.tile) fun n => all [
    .eff (.plans (x.tile * 4 + f.slot) (some ⟨c, s.reg (0x2410 + r) 0x1B, f.section_, x.plan, x.u2, 0, 0, false⟩)),
    setSlotState n f.slot 2]

/-- The slots of a context that a section switch had armed are loaded slots again. -/
def disarm (c : Nat) : Prog := .look fun s => eachP (s.liveFeet c) fun f =>
  eachP f.tiles fun l => withP (s.siteOf l) fun n => whenP (s.slotState n f.slot == 3) (setSlotState n f.slot 2)

/-- The message that a ring engine was placing or taking in a ring is discarded (R395).
(DEDUCED: notes/assumptions/81.md.) -/
def discardMessage (r : Nat) : Prog := .look fun s => .seq
  (withP (s.stile (ringTile r)).message fun m => whenP (m.ring == r) (packetDone m.packet))
  (dropRingWork r)

/-- Restores the boundary snapshot of a context: its cells, its rings and their slots, and each ring's status word, which names
the restored head, tail and count (R269).
(DEDUCED: notes/assumptions/81.md.) -/
def restoreSnapshot (c : Nat) : Prog := .look fun s => withP (s.snapOf c) fun x => all [
  eachP x.cells fun e => whenP ((s.cellAt e.1).bound && (s.cellAt e.1).ctx == c)
    (modCell e.1 fun y => { y with value := e.2 }),
  eachP x.rings fun e => whenP (rdEnabled (s.ring e.1).desc && rdCtx (s.ring e.1).desc == c)
    (.seq (discardMessage e.1) (modRing e.1 fun y => { y with
      head := e.2.1, tail := e.2.2.1, placed := e.2.2.2.1, credits := e.2.2.2.2, gate := none, busy := none })),
  eachP x.tags fun e => .eff (.tags e.1 e.2),
  eachP x.rings fun e => whenP (rdEnabled (s.ring e.1).desc && rdCtx (s.ring e.1).desc == c) (writeStatus e.1 {})]

/-- The running section of a context is armed again; where a released switch was under way, the next section is. -/
def restart (c : Nat) (released : Bool) : Prog := .look fun s =>
  withP (if released then (s.ctx c).armFoot else s.runFoot c) fun f => armSlot c f.slot f (!released)

/-- The replay of one stopped context. (DEDUCED: notes/assumptions/81.md.) -/
def replayProg (c r : Nat) (released : Bool) : Prog := .look fun s =>
  if !decide ((s.ctx c).replaysDone < s.reg 0x2510 0x04) then replayFails c 2
  else .seq (disarm c) (.look fun t =>
    let hit := (t.liveFeet c).filter fun f => f.tiles.any fun l => decide (tileRegion l = r)
    let loads := hit.map fun k => (k, t.reloaded c k)
    let good := loads.filterMap fun e => match e.2 with
      | .good xs => some (e.1, xs)
      | _ => none
    if good.length < loads.length then all [eachP loads fun e => reportReload c e.2, replayFails c 1]
    else all [
      eachP good fun e => reloadTiles c r e.1 e.2,
      restoreSnapshot c,
      modCtx c fun x => { x with replaysDone := x.replaysDone + 1 },
      count64 0x2510 0x02 1,
      report 0x3809 7 c c (t.reg (0x2700 + c) 0x30),
      restart c released])

/-- What happens to a context that a fence stopped (Table 14-2). -/
def afterFence (r : Nat) (e : Nat × Bool) : Prog := .look fun s =>
  whenP (s.ctxRuns e.1)
    (if s.reg 0x2500 0x01 == 2 && (s.reg 0x2510 0x01).testBit e.1 then replayProg e.1 r e.2 else killContext e.1 0x3002)

/-! ## The end (R392, R443) -/

/-- The resets that waited for the fence start. -/
def startWaiting : Prog := .look fun s =>
  match s.resetWaiting with
  | some r => startReset r
  | none => all [
      .eff (.partResets (s.partResets.filter fun e => decide (e / 2048 = 0))),
      eachP (s.partResets.filter fun e => decide (e / 2048 ≠ 0)) fun e => runPartReset (e % 256) (e / 256 % 8),
      eachP ((List.range 64).filter fun c => (s.ctx c).resetWaiting && s.ctxState c != 0) contextResetStart]

/-- A section switch that has not been released and whose next slot the fence made invalid fails (R43, R223).
(DEDUCED: notes/assumptions/81.md.) -/
def failInvalidSwitch (c : Nat) : Prog := .look fun s =>
  withP (s.ctx c).switch fun w => whenP (s.ctxRuns c && !w.released) (withP (s.invalidNext w) (failSwitch c w))

/-- A fence waits with its end for a stopped steward: of the fields whose courses it changes, and where a replay loads slots, of
the region's (R23, R47). -/
def State.fenceHeld (s : State) (f : FenceRun) : Bool :=
  let up := fun (g : Nat) => s.stewardUp g
  !(siteFields f.req.site).all up
    || (f.stopped.any (fun e => (s.reg 0x2510 0x01).testBit e.1) && !(regionFields (siteRegion f.req.site)).all up)

/-- The fence is complete: health record, event 0x3002, and the contexts that it stopped. -/
def fenceCompleteProg : Prog := .look fun s =>
  withP s.fence fun f => whenP (f.routed && !s.controllerDown && !s.fenceHeld f) (all [
    .eff (.fence none),
    writeHealth f.req.site f.req.cause,
    report 0x3002 6 0 f.req.site f.req.cause,
    reportDark (siteIsland f.req.site),
    eachP f.stopped (afterFence (siteRegion f.req.site)),
    eachP (List.range 64) failInvalidSwitch,
    startWaiting])

/-- FENCE_COMPLETE (R392). -/
def execFenceComplete (s : State) : Host.Outcome State Fault Refusal := finish fenceCompleteProg s

end Sys2Proof.Machine
end

