-- ==== Sys2Proof/Machine/BringUp.lean ====
section
/-! DEFINITION. Bring-up, the licence, the calibration set and self-calibration (chapter 16). -/

namespace Sys2Proof.Machine

open Sys2Proof

/-! ## The licence (R28 to R30, R438 to R440) -/

/-- The state code of a licence record (object 0x2010:04): 1 valid, 2 format, 3 serial, 4 signature.
(DEDUCED: notes/assumptions/86.md.) -/
def State.licenceCode (s : State) (bs : List Byte) : Nat :=
  let w := fun (i : Nat) => ofBytes ((bs.drop (8 * i)).take 8)
  let tier := bits (w 0) 47 40
  if bits (w 0) 63 48 ≠ 1 ∨ (tier ≠ 1 ∧ tier ≠ 2) ∨ bits (w 0) 39 0 ≠ 0 ∨ w 3 ≠ 0 ∨ bs.length ≠ 128 then 2
  else if w 1 ≠ s.fuseSerial then 3
  else if !Config.signatureVerifies bs then 4
  else 1

/-- The tier that a licence record names. -/
def licenceTier (bs : List Byte) : Nat := bits (ofBytes (bs.take 8)) 47 40

/-- A tier enables an Ethernet port (Table 01-8). -/
def tierHasPort (tier e : Nat) : Bool := tier == 2 || (tier == 1 && decide (e % 4 < 2))

/-- The stored licence is read, and its tier comes into effect. (DEDUCED: notes/assumptions/86.md.) -/
def readLicence : Prog := .look fun s =>
  let code := if s.licence.isEmpty then 0 else s.licenceCode s.licence
  let tier := if code = 1 then licenceTier s.licence else 0
  all [
    setReg 0x2010 0x02 tier,
    setReg 0x2010 0x03 (licenceTier s.licence),
    setReg 0x2010 0x04 code,
    eachP (List.range 16) fun e => setReg (0x2E20 + e) 0x01
      (if !tierHasPort tier e then 2 else if s.reg (0x2E20 + e) 0x02 = 0 then 3 else 0)]

/-- The check of the stored licence in step 2 (R440). -/
def checkLicence : Prog := .seq readLicence (.look fun s =>
  match s.reg 0x2010 0x04 with
  | 0 => report 0xB003 6 0 0 0
  | 1 => .skip
  | code => report 0xB004 6 0 code 0)

/-- The write of a whole licence record (R439). -/
def licenceCommand (bs : List Byte) : Command where
  valueOk s := s.licenceCode bs == 1
  refused _ := .look fun s => report 0xB004 6 0 (s.licenceCode bs) 0
  effect := all [
    .eff (.licence bs),
    setReg 0x2010 0x03 (licenceTier bs), setReg 0x2010 0x04 1,
    report 0xB005 6 0 (licenceTier bs) 0]

/-- The write of object 0x2010:05. -/
def licenceRemoveCommand (v : Nat) : Command where
  effect := whenP (v != 0) (all [.eff (.licence []), setReg 0x2010 0x03 0, setReg 0x2010 0x04 0])

/-- LICENCE_REMOVE (R439). -/
def execLicenceRemove (p : Path) (v : Nat) (s : State) : Host.Outcome State Fault Refusal :=
  finish (commandWrite p 0x2010 0x05 (licenceRemoveCommand v)) s

/-! ## The calibration set (R431 to R435) -/

/-- The set is read in step 2. (DEDUCED: notes/assumptions/85.md.) -/
def readCal : Prog := all [showCal, showAgeing, .look fun s =>
  whenP (!s.cal.usable) (report 0xB006 6 0 (15 - s.cal.valid % 16) 0)]

/-- The set may be replaced or erased now (R434). -/
def State.calFree (s : State) : Bool := s.allFree && s.ready && s.reset_.isNone && !s.selfCal

/-- The reason of a refusal of a write to the set, numbered for Config.calRejectReason. -/
def State.calRefusal (s : State) (bs : Option (List Byte)) : Nat :=
  match bs with
  | some b => match s.setOf b with
    | none => 4
    | some c => if c.serial ≠ s.fuseSerial then 3 else if c.valid ≠ 15 then 4
      else if !s.allFree then 0 else if s.selfCal then 2 else 1
  | none => if !s.allFree then 0 else if s.selfCal then 2 else 1

/-- The write of object 0x2100:01. -/
def calWriteCommand (bs : List Byte) : Command where
  valueOk s := match s.setOf bs with
    | some c => decide (c.serial = s.fuseSerial ∧ c.valid = 15)
    | none => false
  stateOk s := s.calFree
  refused _ := .look fun s => report 0xB00F 6 0 (Config.calRejectReason (s.calRefusal (some bs))) 0
  effect := all [withState fun s => .calNext (s.setOf bs), report 0xB00B 6 0 3 15]

/-- A set image has a length that object 0x2100:01 accepts (Table 18-5). -/
def calLengthOk (n : Nat) : Bool := decide (64 ≤ n ∧ n ≤ 2 ^ 22)

/-- CALIBRATION_SET_WRITE (R434). -/
def execCalibrationSetWrite (p : Path) (bytes : List Byte) (s : State) : Host.Outcome State Fault Refusal :=
  finish (domainWrite p 0x2100 0x01 (calLengthOk bytes.length) (calWriteCommand bytes)) s

/-- The write of object 0x2100:05. (DEDUCED: notes/assumptions/85.md.) -/
def calEraseCommand (v : Nat) : Command where
  stateOk s := v == 0 || s.calFree
  refused _ := .look fun s => report 0xB00F 6 0 (Config.calRejectReason (s.calRefusal none)) 0
  effect := whenP (v != 0) (all [.eff (.calNext (some { origin := 3, valid := 0 })), report 0xB00B 6 0 3 15])

/-- CALIBRATION_ERASE (R434). -/
def execCalibrationErase (p : Path) (v : Nat) (s : State) : Host.Outcome State Fault Refusal :=
  finish (commandWrite p 0x2100 0x05 (calEraseCommand v)) s

/-- The identity and pin rate of every stack, as they are now (Table 16-5). -/
def State.stackRecords (s : State) : List (Nat × Nat) :=
  (List.range 32).map fun k => (s.reg (0x4100 + k) 0x0A, s.reg (0x4100 + k) 0x02)

/-- A training record is written to the set by the device (R435). -/
def autoSave (section_ : Nat) : Prog := .look fun s =>
  whenP (s.reg 0x2100 0x04 == 1 && s.cal.usable) (all [
    .eff .draw,
    .eff (.cal { s.cal with
      image := calReplaced s.cal.image s.fuseSerial 4 s.now section_ (Config.calibrationImage s.free), written := s.now, origin := 4, valid := setBit s.cal.valid section_,
      training := if section_ = 2 then s.stackRecords else s.cal.training }),
    showCal,
    report 0xB00B 6 0 4 (2 ^ section_)])

/-! ## Self-calibration (R436, R437) -/

/-- Why self-calibration may not start, numbered for Config.calRejectReason; none when it may. -/
def State.selfCalRefusal (s : State) : Option Nat :=
  if !s.allFree then some 0
  else if (List.range 8).any fun k => s.reg 0x2430 (k + 1) != 0 then some 5
  else if !s.slices.isEmpty || s.marigold.any fun e => e.2.isSome then some 6
  else if (List.range 24).any fun i => !s.islandUp i then some 7
  else if !s.ready || s.reset_.isSome then some 1
  else none

/-- Self-calibration starts, or is refused. -/
def selfCalStart : Prog := .look fun s =>
  match s.selfCalRefusal with
  | some why => report 0xB00F 6 0 (Config.calRejectReason why) 0
  | none => whenP (!s.selfCal) (all [.eff (.selfCal true), report 0xB00C 6 0 0 0])

/-- Bring-up runs, so a write that has no meaning before ready is stored (R423). -/
def State.beforeReady (s : State) : Bool := s.reset_.isSome && decide (1 ≤ s.reg 0x20F0 0x01 ∧ s.reg 0x20F0 0x01 ≤ 11)

/-- The write of object 0x2110:01: before ready it is stored, and acts at ready (R423, R436). -/
def selfCalCommand (v : Nat) : Command where
  stateOk s := v == 0 || s.beforeReady || s.selfCal || s.selfCalRefusal.isNone
  refused _ := .look fun s => report 0xB00F 6 0 (Config.calRejectReason (s.selfCalRefusal.getD 1)) 0
  effect := .look fun s => whenP (v != 0)
    (if s.beforeReady then withState fun t => .reset_ (t.reset_.map fun r => { r with selfCal := true }) else selfCalStart)

/-- SELF_CALIBRATION_START (R436). -/
def execSelfCalibrationStart (p : Path) (v : Nat) (s : State) : Host.Outcome State Fault Refusal :=
  finish (commandWrite p 0x2110 0x01 (selfCalCommand v)) s

/-- The write of object 0x2110:03. -/
def selfCalStopCommand (v : Nat) : Command where
  effect := whenP (v != 0) (stopSelfCal 0)

/-- A cause stops the run: a command, or a reset, a switch-off, a stopped steward or a cold island that is there. -/
def stopFor (cause : StopCause) : Prog := .look fun s =>
  match cause with
  | .command p v => commandWrite p 0x2110 0x03 (selfCalStopCommand v)
  | .reset => whenP (s.reset_.isSome || s.resetWaiting.isSome) (stopSelfCal 1)
  | .protection => whenP (!s.mainOn) (stopSelfCal 2)
  | .steward => whenP ((List.range 12).any fun f => !s.stewardUp f) (stopSelfCal 3)
  | .heat => stopSelfCal 4

/-- SELF_CALIBRATION_STOP (R437). -/
def execSelfCalibrationStop (cause : StopCause) (s : State) : Host.Outcome State Fault Refusal :=
  finish (stopFor cause) s

/-- A self-calibration ends and its set takes effect at once. (DEDUCED: notes/assumptions/65.md.) -/
def selfCalDone (sections : List (List Byte)) : Prog := .look fun s =>
  whenP (s.selfCal && !s.controllerDown) (all [
    .eff (.selfCal false), .eff .draw,
    .eff (.cal {
      image := calImage s.fuseSerial 2 s.now sections
      serial := s.fuseSerial, written := s.now, origin := 2, valid := 15,
      training := (List.range 32).map fun k => (s.reg (0x4100 + k) 0x0A, s.reg 0x2D00 0x01) }),
    .eff (.calNext none), .eff (.phyStale 0),
    showCal,
    eachP (List.range 24) fun i => all [setReg (0x4000 + i) 0x04 0, setReg (0x4000 + i) 0x0E 0],
    eachP (List.range 32) fun k => whenP (s.reg (0x4100 + k) 0x01 == 1) (all [
      setReg (0x4100 + k) 0x02 (s.reg 0x2D00 0x01), setReg (0x4100 + k) 0x03 2]),
    report 0xB00B 6 0 2 15,
    report 0xB00D 6 0 24 0])

/-- SELF_CALIBRATION_COMPLETE (R436). -/
def execSelfCalibrationComplete (sections : List (List Byte)) (s : State) : Host.Outcome State Fault Refusal :=
  finish (selfCalDone sections) s

/-! ## Steps 1 to 3 (R421 to R425) -/

/-- The object that a bring-up step reads as it stands when the step begins (R423): the pin rate, the memory test mode, the
bring-up self-test mode. -/
def State.stepObject (s : State) (step : Nat) : Nat :=
  match step with
  | 7 => s.reg 0x2D00 0x01 | 8 => s.reg 0x2D00 0x02 | 9 => s.reg 0x2600 0x01 | _ => 0

/-- The step in progress ends and the next begins. -/
def nextBringUp (step : Nat) : Prog := .seq (setReg 0x20F0 0x01 step)
  (withState fun t => .reset_ (t.reset_.map fun r => { r with latched := t.stepObject step }))

/-- The object of the step in progress as it stood when the step began. -/
def State.latched (s : State) : Nat := match s.reset_ with
  | some r => r.latched
  | none => 0

/-- A JTAG access that was started before service began answers that it was never applied (R485). -/
def endJtagWait : Prog := .look fun s => whenP (s.dr == jtagBusy) (.eff (.dr (place abortState 64)))

/-- The controller boots from a copy. -/
def boot (k : Nat) : Prog := .look fun s => all [
  .eff (.booted true),
  endJtagWait,
  setReg 0x2030 0x03 k,
  .eff (.nodeId (s.reg 0x2E30 0x01)),
  .eff (.nmt .preOperational),
  .eff (.emit .nmtBoot),
  report 0xB001 6 0 k (s.copy k).version,
  nextBringUp 2]

/-- Step 1: the copy that object 0x2030:02 names, else the other, else firmware recovery. -/
def stepBoot : Prog := .look fun s =>
  let k := s.reg 0x2030 0x02 % 2
  if (s.copy k).good then boot k
  else if (s.copy (1 - k)).good then all [boot (1 - k), report 0xB002 6 0 k 0]
  else all [
    .eff (.recovery true),
    endJtagWait,
    setReg 0x2030 0x03 0xFF,
    .eff (.nodeId (s.reg 0x2E30 0x01)),
    .eff (.nmt .preOperational),
    .eff (.emit .nmtBoot),
    report 0xB002 6 0 k 0, report 0xB002 6 0 (1 - k) 0, report 0xB010 6 0 0 0,
    .eff (.reset_ none),
    nextBringUp 0x0F]

/-- Step 2: fuses, health record, calibration set, licence, remap tables. -/
def stepRecords (r : StepReport) : Prog := all [
  whenP (!r.healthOk) (all [.eff (.health []), report 0xB011 6 0 0 0]),
  readCal,
  checkLicence,
  rebuildRemap true,
  reroute,
  nextBringUp 3]

/-- A warm full reset waits for HRESET_N to rise (R480). -/
def State.pinHolds (s : State) : Bool := s.hresetLow && match s.reset_ with
  | some r => r.width == 5
  | none => false

/-- Step 3: the input is good and main power comes on; every island waits to ramp (R359), but for those of a field that the last
cold reset left out (R430). -/
def stepPower (r : StepReport) : Prog := .look fun s =>
  whenP (decide (40000 ≤ r.inputMv ∧ r.inputMv ≤ 60000) && !s.pinHolds) (all [
    .eff (.mainOn true),
    setReg 0x2200 0x02 r.inputMv,
    whenP (s.runningWidth == 5) readLicence,
    eachP ((List.range 24).filter fun i => !s.fieldsOff.testBit (islandField i)) fun i => all [
      setReg (0x4000 + i) 0x01 1,
      withState fun t => .islands i { dark := (t.island i).dark, owed := (t.island i).owed }],
    nextBringUp 4])

/-! ## Steps 4 to 8 -/

/-- Step 4: every island is on, but for those that a command switched off and those of a field whose steward stays stopped
(R359, R430). -/
def stepIslands : Prog := .look fun s =>
  whenP ((List.range 24).all fun i => !s.stewardUp (islandField i) || s.islandState i == 0 || s.islandState i == 3) (.seq
    (eachP ((List.range 24).filter fun i => !s.stewardUp (islandField i) && s.islandState i != 0) islandOff)
    (nextBringUp 5))

/-- Step 5: dies and host links. (DEDUCED: notes/assumptions/82.md.) -/
def stepDies (r : StepReport) : Prog := all [
  eachP r.silentDies fun q => all [setReg (0x4200 + q.val) 0x01 2, report 0xB009 6 0 q 0],
  eachP r.hostLinks fun h => linkUp h.1 h.2.1 h.2.2,
  nextBringUp 6]

/-- Step 6: the PHYs take their saved record, or are trained in full at a cold reset and saved. -/
def stepPhys (r : StepReport) : Prog := .look fun s =>
  .seq (whenP (s.runningWidth == 6) (.seq
      (whenP (r.phyTrained || s.romTable || !s.cal.valid.testBit 3 || s.phyStale != 0) (autoSave 3))
      (.eff (.phyStale 0))))
    (nextBringUp 7)

/-- The pin rates of Table 11-1 below a rate, down to `reached`, highest first. -/
def stepsDown (rate reached : Nat) : List Nat :=
  [7200, 6400].filter fun r => decide (r < rate ∧ reached ≤ r)

/-- A stack trains at a cold reset (R304, R305). -/
def trainStack (t : StackReport) : Prog := .look fun s =>
  let k := t.stack.val
  let want := s.latched
  let online := fun (rate source : Nat) => all [
    setReg (0x4100 + k) 0x01 1, setReg (0x4100 + k) 0x02 rate, setReg (0x4100 + k) 0x03 source]
  let offline := all [setReg (0x4100 + k) 0x01 2, report 0x4807 5 k k 0]
  let full := fun (reason : Nat) => all [
    report 0x4808 5 k k reason,
    setReg (0x4100 + k) 0x03 2,
    eachP (stepsDown want t.rate) fun r => report 0x480D 5 k k r,
    if [6400, 7200, 8000].contains t.rate && decide (t.rate ≤ want) then online t.rate 2 else offline]
  all [
    setReg (0x4100 + k) 0x0A t.identity,
    if s.romTable then (if t.rate = 0 then offline else online 6400 3)
    else if !s.cal.valid.testBit 2 then full 0
    else if some t.identity ≠ s.cal.training[k]?.map (·.1) then full 1
    else if some want ≠ s.cal.training[k]?.map (·.2) then full 2
    else online want 1]

/-- Every online stack was trained from saved settings. -/
def State.allSaved (s : State) : Bool := (List.range 32).all fun k => s.reg (0x4100 + k) 0x03 == 1

/-- Full training of some stack has left every online stack at the set rate (R435). -/
def State.trainingSaves (s : State) : Bool :=
  (List.range 32).any (fun k => s.reg (0x4100 + k) 0x03 == 2)
    && (List.range 32).all fun k => s.reg (0x4100 + k) 0x01 != 1 || s.reg (0x4100 + k) 0x02 == s.latched

/-- Step 7: HBM is trained at the rate that the step began with, from saved settings at a warm full reset, which leaves out
step 8 (R306, R423, R442). -/
def stepMemory (r : StepReport) : Prog := .look fun s =>
  if s.runningWidth = 5 then all [
    leaveSelfRefresh,
    .look fun t => eachP (List.range 32) fun k => whenP (t.reg (0x4100 + k) 0x01 == 1)
      (.seq (setReg (0x4100 + k) 0x02 (if t.romTable then 6400 else t.latched)) (setReg (0x4100 + k) 0x03 (if t.romTable then 3 else 1))),
    nextBringUp 9]
  else all [
    eachP r.trained trainStack,
    eachP ((List.range 32).filter fun k => !(r.trained.any fun t => t.stack.val == k)) fun k => all [
      setReg (0x4100 + k) 0x01 2, report 0x4807 5 k k 0],
    .look fun t => whenP t.trainingSaves (autoSave 2),
    nextBringUp 8]

/-- The mode of the bring-up memory test: 1 quick, 2 full, 0 none. -/
def State.testMode (s : State) : Nat :=
  match s.latched with
  | 0 => if s.allSaved then 1 else 2
  | 1 => 1
  | 2 => 2
  | _ => 0

/-- Step 8: the memory test. -/
def stepTest (r : StepReport) : Prog := .look fun s =>
  .seq (whenP (s.testMode != 0) (memoryTested s.testMode r.findings)) (nextBringUp 9)

/-! ## Steps 9 to 11 (R417, R426 to R429) -/

/-- A site is fenced at bring-up: 0 silent, 1 slice, 2 microcode. -/
def bringUpFence (n why : Nat) : Prog := .look fun s =>
  whenP (!s.isFenced n) (all [
    fenceNow n 4 false,
    .eff (.routeState n 1),
    routesWritten,
    writeHealth n 0x08,
    count16 0x20F0 0x02 1,
    report 0xB007 6 0 n why])

/-- A site's bring-up slice has failed: the fault counts against the site, which is fenced at every healing level.
(DEDUCED: notes/assumptions/82.md.) -/
def bringUpFailure (n block : Nat) : Prog := .look fun s => all [
  report 0x9001 0 n n block,
  whenP (!s.isFenced n) (all [
    addEvidence,
    setReg (0x3000 + n) 0xB4 0x08,
    setScore n (min 1000 (s.reg (0x3000 + n) 0xB0 + 1000)),
    whenP (decide (s.reg (0x3000 + n) 0xB0 < s.reg 0x2530 0x01)) (report 0x3801 6 0 n 0x08),
    bringUpFence n 1])]

/-- The bring-up slice of one kind on one site: it fails where the report names it, with what it found (R417, Table 15-6). -/
def bringUpSlice (r : StepReport) (kind n : Nat) : Prog := .look fun s =>
  let bad := r.failedSlices.find? fun f => decide (f.site.val = n ∧ f.kind = kind)
  if h : n < 3264 then all [
    appendResult { bad.getD { site := ⟨n, h⟩, pass := true } with kind := kind, temperature := s.hottest (siteIsland n) }
      (if bad.isSome then 1 else 0) 0,
    countSlice n bad.isNone,
    .eff (.sliceTimes (n * 2 + (kind - 1)) (s.now + 1)),
    withP bad fun f => bringUpFailure n f.block]
  else .skip

/-- Step 9: the slices that object 0x2600:01 selected when the step began on every site of an island that is on, dark groups
apart. (DEDUCED: notes/assumptions/82.md.) -/
def stepSlices (r : StepReport) : Prog := .look fun s =>
  let sites := (List.range 3264).filter fun n => s.islandUp (siteIsland n) && !s.siteDark n
  all [
    whenP (decide (1 ≤ s.latched)) (eachP sites (bringUpSlice r 1)),
    whenP (decide (2 ≤ s.latched)) (eachP sites (bringUpSlice r 2)),
    nextBringUp 10]

/-- Step 10: the topology is compared; a wrong number or type halts the bring-up. -/
def stepTopology (r : StepReport) : Prog :=
  match r.mismatch with
  | some m => all [report 0xB008 6 0 m.1 m.2, .eff (.reset_ none), nextBringUp 0x0D]
  | none => all [
      eachP r.silentSites fun n => bringUpFence n 0,
      eachP r.wrongDies fun q => .seq (report 0xB009 6 0 q 1) (withState fun s => .phyStale (setBit s.phyStale q)),
      broadcastMicrocode,
      nextBringUp 11]

/-- The device is ready (R422, R429). -/
def declareReady (r : StepReport) : Prog := .look fun t => all [
  .eff (.reset_ none),
  nextBringUp 0x0C,
  setReg 0x20F0 0x03 (min r.ms (2 ^ 32 - 1)),
  count32 0x20F0 0x04 1,
  .look fun s => report 0xB00A 6 0 r.ms (s.reg 0x2100 0x02),
  .look fun s => whenP (decide (s.nmt = .preOperational)) (.eff (.nmt .operational)),
  whenP (match t.reset_ with | some run => run.selfCal | none => false) selfCalStart]

/-- Step 11: the sites whose microcode failed its check are fenced, the sites that serve from then on are sent the image, and
when every serving site has its microcode the device is ready (R426, R428, R429). -/
def stepReady (r : StepReport) : Prog := .look fun s =>
  let failed := ((r.failedMicrocode.map fun n => n.val) ++ s.microcodeFailed).filter fun n => (s.tileOf n).isSome
  .seq (eachP failed fun n => bringUpFence n 2) (.look fun t =>
    let fresh := (failed.flatMap fun n => coursePart (siteRow n) 0 67).eraseDups.filter fun n => t.lineTarget n && !s.lineTarget n
    .seq (seedSites fresh) (.look fun u => whenP u.microcodeThere (declareReady r)))

/-- The step in progress ends with a report. Nothing ends while a steward restarts (R430) or the controller does. -/
def bringUpProg (r : StepReport) : Prog := .look fun s =>
  let busy := s.controllerDown || (List.range 12).any fun f => s.reg (0x4080 + f) 0x21 == 2
  whenP (s.auxOk && decide (5 ≤ s.runningWidth) && s.reset_.isSome && !busy)
    (match s.reg 0x20F0 0x01 with
     | 1 => stepBoot
     | 2 => stepRecords r
     | 3 => stepPower r
     | 4 => stepIslands
     | 5 => stepDies r
     | 6 => stepPhys r
     | 7 => stepMemory r
     | 8 => stepTest r
     | 9 => stepSlices r
     | 10 => stepTopology r
     | 11 => stepReady r
     | _ => .skip)

/-- BRING_UP_STEP_END (R421). -/
def execBringUpStepEnd (r : StepReport) (s : State) : Host.Outcome State Fault Refusal := finish (bringUpProg r) s

end Sys2Proof.Machine
end

