-- ==== Sys2Proof/Machine/Dumps.lean ====
section
/-! DEFINITION. Watchdog expiry, the stop point and the blocked channels (R206, R275, R448, R449), and the dumps
(R451, R452). -/

namespace Sys2Proof.Machine

open Sys2Proof

/-! ## The stop point (R206) -/

/-- A waiting place: its kind in Table 17-4 (1 join or merge, 2 link schedule, 3 engine input), the site, the element, link
or engine input, and the channel waited on. -/
structure StopPoint where
  kind : Nat := 0
  site : Nat := 0xFFFF
  num : Nat := 0
  chan : Nat := 0
  deriving DecidableEq, Repr

/-- The tile plan of the section that stands on a site. -/
def State.standingPlan (s : State) (n : Nat) : Option TilePlan :=
  match s.runningAt n, s.tileOf n with
  | some r, some l => (s.planAt (l * 4 + r.slot)).map (·.plan)
  | _, _ => none

/-- The number and entry of the route of a plan that ends at a place. -/
def routeTo (p : TilePlan) (kind num in_ : Nat) : Option (Nat × Route) :=
  ((p.routes.zip (List.range p.routes.length)).find? fun e =>
    decide (e.1.dstKind = kind ∧ e.1.dstNum = num ∧ e.1.dstIn = in_)).map fun e => (e.2, e.1)

/-- The channel that a place waits on: that of the inbound link which its route comes from, 0 for a route from within the
tile. -/
def waitedChannel (p : TilePlan) (kind num in_ : Nat) : Nat :=
  match routeTo p kind num in_ with
  | some (_, r) => if r.srcKind < 4 then r.srcNum else 0
  | none => 0

/-- An input queue of an element is full. -/
def ElemState.someFull (e : ElemState) : Bool := (e.ins.any fun q => decide (4 ≤ q.length)) || decide (4 ≤ e.ctl.length)

/-- The empty data input, or 4 for the control input, that a join or a merge needs first. -/
def ElemState.starved (e : ElemState) (w : Elem) : Option Nat :=
  match w.kind with
  | 2 => (List.range w.ways).find? fun i => (e.ins.getD i []).isEmpty
  | 4 => match e.ctl.head? with
    | none => some 4
    | some k =>
      let i := if k.poison then 0 else k.value
      if i < w.ways && (e.ins.getD i []).isEmpty then some i else none
  | _ => none

/-- The first join or merge of a tile that waits beside a full queue. -/
def State.stoppedElem (s : State) (n : Nat) (p : TilePlan) : Option StopPoint :=
  (List.range p.elems.length).findSome? fun i =>
    match p.elems[i]? with
    | none => none
    | some w =>
      let e := (s.bondOf n).elems.getD i {}
      if e.someFull then (e.starved w).map fun k =>
        ⟨1, n, i, if k = 4 then waitedChannel p 6 i 0 else waitedChannel p 5 i k⟩
      else none

/-- The first link of a tile whose schedule waits on an empty channel beside a channel backed up to a full queue. -/
def State.stoppedLink (s : State) (n : Nat) (p : TilePlan) : Option StopPoint :=
  (List.range 4).findSome? fun d =>
    match s.scheduleEntry n d p with
    | none => none
    | some e =>
      let feeds := (p.routes.zip (List.range p.routes.length)).filter fun x => decide (x.1.dstKind = d)
      let empty := feeds.any fun x => decide (x.1.dstNum = e.chan) && (s.queueOf n x.2).isEmpty
      let full := feeds.any fun x => decide (x.1.dstNum ≠ e.chan ∧ 0 < x.1.entries ∧ x.1.entries ≤ (s.queueOf n x.2).length)
      if empty && full && ((s.bondOf n).stages.getD d none).isNone then some ⟨2, n, d, e.chan⟩ else none

/-- The first engine input of a tile that waits on an empty route. -/
def State.stoppedInput (s : State) (n : Nat) (p : TilePlan) : Option StopPoint :=
  (List.range 4).findSome? fun k =>
    match routeTo p 4 k 0 with
    | none => none
    | some (ri, _) =>
      if s.inputWanted n k p && ((s.bondOf n).engineIn.getD k []).isEmpty && (s.queueOf n ri).isEmpty then
        some ⟨3, n, k, waitedChannel p 4 k 0⟩
      else none

/-- The stop point of a context's running section: the three kinds in order, tiles in ascending logical tile number.
(DEDUCED: notes/assumptions/87.md.) -/
def State.stopPoint (s : State) (c : Nat) : StopPoint :=
  let sites := (List.range 3072).filterMap fun l => match s.siteOf l with
    | some n => if (s.sectionSites c).contains n then some n else none
    | none => none
  let look := fun (f : Nat → TilePlan → Option StopPoint) =>
    sites.findSome? fun n => match s.standingPlan n with
      | some p => f n p
      | none => none
  ((look s.stoppedElem).or ((look s.stoppedLink).or (look s.stoppedInput))).getD {}

/-- A channel whose send ring holds a complete message and lacks credits (R275). -/
def State.channelBlocked (s : State) (r : Nat) : Bool :=
  match s.headHeader r with
  | some w => let l := headerLength w
    decide (0 < l ∧ (s.ring r).credits < messageSlots l) && s.headComplete r l
  | none => false

/-! ## Dumps (R451) -/

/-- The slot that the dump engine takes: the empty slot of lowest number, else the unlocked slot whose capture ended
longest ago. (DEDUCED: notes/assumptions/88.md.) -/
def State.dumpSlot (s : State) : Option Nat :=
  let at_ := fun k => s.dumps.getD k {}
  match (List.range 4).find? fun k => decide ((at_ k).state = 0) with
  | some k => some k
  | none =>
    let old := (List.range 4).filter fun k => decide (2 ≤ (at_ k).state) && !(s.reg 0x2F20 0x04).testBit k
    old.find? fun k => old.all fun j => decide ((at_ k).since ≤ (at_ j).since)

/-- Replaces a dump slot. -/
def setDump (k : Nat) (d : DumpSlot) : Prog := withState fun s => .dumps (s.dumps.set k d)

/-- The bytes of a dump (Table 17-4): the 64 header bytes with the CRC over the whole, then `body`. -/
def dumpBytes (c cause tiles time section_ : Nat) (p : StopPoint) (body : List Byte) : List Byte :=
  let head := fun crc => toBytes 8 (place 1 48 + place cause 44 + place c 38 + tiles) ++ toBytes 8 time
    ++ toBytes 8 (place (p.site % 4096) 52 + place p.kind 48 + place p.num 40 + place p.chan 34)
    ++ toBytes 8 (place section_ 48) ++ toBytes 8 (64 + body.length) ++ toBytes 8 0 ++ toBytes 8 0 ++ toBytes 8 crc
  head (crc32 (head 0 ++ body)) ++ body

/-- The logical tiles of a context's footprint. -/
def State.footprintOf (s : State) (c : Nat) : List Nat := ((s.ctx c).foot.flatMap fun f => f.tiles).eraseDups

/-- A capture begins in slot `k`. (DEDUCED: notes/assumptions/88.md.) -/
def startCapture (k c cause : Nat) (p : StopPoint) : Prog := .look fun s =>
  let bs := dumpBytes c cause (s.footprintOf c).length s.now (s.reg (0x2700 + c) 0x30) p (Config.dumpBody s.free)
  all [setDump k { state := 1, ctx := c, watchdog := decide (cause = 1), bytes := bs }, .eff .draw]

/-- A dump of a context is wanted (R451). `otherwise` follows when nothing is captured. -/
def captureDump (c cause : Nat) (p : StopPoint) (otherwise : Prog) : Prog := .look fun s =>
  match s.dumpSlot with
  | some k => startCapture k c cause p
  | none => all [report 0xC00C 6 0 c 0, otherwise]

/-! ## WATCHDOG_EXPIRY (R449) -/

/-- A capture that a watchdog asked for runs for a context. -/
def State.dyingByWatchdog (s : State) (c : Nat) : Bool := s.dumps.any fun d => d.watchdog && decide (d.ctx = c)

/-- The watchdog of a context counts and has reached its interval (R448). -/
def State.watchdogDue (s : State) (c beats : Nat) : Bool :=
  s.ctxRuns c && !(s.ctx c).active.isEmpty && !s.dyingByWatchdog c
    && decide (s.reg (0x2700 + c) 0x35 ≠ 0 ∧ s.reg (0x2700 + c) 0x35 ≤ beats)

/-- The watchdog of a context expires after `beats` beats without progress. -/
def watchdogProg (c beats : Nat) : Prog := .look fun s => whenP (s.watchdogDue c beats) (
  let p := s.stopPoint c
  all [
    setReg (0x2700 + c) 0x36 beats,
    setReg (0x2700 + c) 0x3A p.site,
    count32 (0x2700 + c) 0x3C 1,
    report 0xC001 7 c c p.site,
    whenP (p.kind != 0) (report 0x600C 7 c c (pairArg p.site (pairArg p.num p.chan))),
    eachP ((s.channels c).map fun e => e.1) fun r =>
      whenP (s.channelBlocked r) (report 0x800F 7 c r (rdPartner (s.ring r).desc)),
    captureDump c 1 p (killContext c 0xC001)])

/-- WATCHDOG_EXPIRY (R449). -/
def execWatchdogExpiry (c : Ctx) (beats : Nat) (s : State) : Host.Outcome State Fault Refusal :=
  finish (watchdogProg c beats) s

/-! ## CAPTURE (R451) -/

/-- Object 0x2F20:06. -/
def captureCommand (v : Nat) : Command where
  valueOk := fun _ => decide (v < 64)
  stateOk := fun s => s.ctxState v == 2
  effect := captureDump v 2 {} .skip

/-- CAPTURE (R451). -/
def execCapture (p : Path) (v : Nat) (s : State) : Host.Outcome State Fault Refusal :=
  finish (commandWrite p 0x2F20 0x06 (captureCommand v)) s

/-! ## DUMP_CAPTURE_COMPLETE, DUMP_FLASH_COPY_COMPLETE, EMPTY_SLOT (R449, R452) -/

/-- A capture ends; its copy to flash begins, and a context whose watchdog expired dies.
(DEDUCED: notes/assumptions/88.md.) -/
def captureEndProg (k : Nat) : Prog := .look fun s =>
  let d := s.dumps.getD k {}
  whenP (d.state == 1) (all [
    setDump k { d with state := 2, since := s.now, watchdog := false },
    setReg (0x2700 + d.ctx) 0x3B k,
    report 0xC002 6 0 d.ctx (pairArg k 2),
    .eff (.dumpCopying (some d.bytes)),
    whenP d.watchdog (killContext d.ctx 0xC001)])

/-- DUMP_CAPTURE_COMPLETE (R452). -/
def execDumpCaptureComplete (k : Fin 4) (s : State) : Host.Outcome State Fault Refusal := finish (captureEndProg k) s

/-- The flash copy of a dump is complete. -/
def flashCopyProg : Prog := .look fun s => withP s.dumpCopying fun bs => all [
  .eff (.dumpFlash bs), .eff (.dumpCopying none)]

/-- DUMP_FLASH_COPY_COMPLETE (R452). -/
def execDumpFlashCopyComplete (s : State) : Host.Outcome State Fault Refusal := finish flashCopyProg s

/-- The dump slot that a path selects. -/
def State.selectedDump (s : State) (p : Path) : Nat := s.selectorAt (pathNo p * 2 ^ 32 + rk 0x2F20 0x01)

/-- Object 0x2F20:05. A slot in capture is not emptied. (DEDUCED: notes/assumptions/88.md.) -/
def emptySlotCommand (p : Path) (v : Nat) : Command where
  stateOk := fun s => decide (v = 0) || (s.dumps.getD (s.selectedDump p) {}).state != 1
  effect := .look fun s => whenP (v != 0) (setDump (s.selectedDump p) {})

/-- EMPTY_SLOT (R452). -/
def execEmptySlot (p : Path) (v : Nat) (s : State) : Host.Outcome State Fault Refusal :=
  finish (commandWrite p 0x2F20 0x05 (emptySlotCommand p v)) s

end Sys2Proof.Machine
end

