-- ==== Sys2Proof/Machine/Reads.lean ====
section
/-! DEFINITION. What the dictionary reads: scalars that another part of the state holds, selectors, domains, and the
snapshots of a path (R455, R460, R464 to R466, chapter 18). -/

namespace Sys2Proof.Machine

open Sys2Proof

/-! ## Selectors (R465) -/

/-- An object that each access path has a copy of. -/
def isSelector (idx sub : Nat) : Bool :=
  decide ((idx = 0x2810 ∧ (sub = 0x01 ∨ sub = 0x02)) ∨ (0x2840 ≤ idx ∧ idx < 0x2880 ∧ sub = 0x02)
    ∨ (idx = 0x2900 ∧ sub = 0x01) ∨ (idx = 0x2F20 ∧ sub = 0x01) ∨ (0x4200 ≤ idx ∧ idx < 0x4204 ∧ sub = 0x05))

/-- A path's copy of a selector. -/
def State.selector (s : State) (p : Path) (idx sub : Nat) : Nat := s.selectorAt (pathNo p * 2 ^ 32 + rk idx sub)

/-! ## Scalars that another part of the state holds -/

/-- The waiters on a cell, oldest first (R281). -/
def State.cellWaiters (s : State) (k : Nat) : List Waiter :=
  (s.waitersAt (k / 32)).filter fun w => match s.findCell (k / 32) w.ctx w.handle with
    | some own => (waitCells own w.mask).contains (k % 32)
    | none => false

/-- The cell that a path's flag selectors name; none for an invalid entry (R288). -/
def State.selectedCell (s : State) (p : Path) : Option Nat :=
  let w := s.entryAt (s.selector p 0x2810 0x01 * 4096 + s.selector p 0x2810 0x02)
  if fmValid w then some (fmKey w) else none

/-- The cell state word (Table 10-9). -/
def State.cellWord (s : State) (k : Nat) : Nat :=
  let x := s.cellAt k
  place (if x.value then 1 else 0) 63 + place (if x.bound then 1 else 0) 62 + place x.ctx 56 + place x.gen 52
    + place x.index 40 + place (s.cellWaiters k).length 36 + place x.lastEp 24 + place x.lastCtx 18

/-- The flag and ring reads (R288). -/
def State.flagValue (s : State) (p : Path) (idx sub : Nat) : Nat :=
  if idx = 0x2810 then match s.selectedCell p with
    | some k => if sub = 0x03 then s.cellWord k else ((s.cellWaiters k).map fun w => w.ep).headD 0xFFFF
    | none => if sub = 0x03 then 0 else 0xFFFF
  else
    let x := s.ring (s.selector p 0x2900 0x01)
    match sub with
    | 0x02 => x.desc
    | 0x03 => statusWord x
    | 0x04 => x.messages
    | 0x05 => x.senderStall
    | 0x06 => x.receiverStall
    | 0x07 => x.rejected
    | _ => x.credits

/-- The slots of S-tile `t` whose tag is poisoned. -/
def State.poisonedSlots (s : State) (t : Nat) : Nat :=
  (s.tags.filter fun e => decide (e.1 / 65536 = t ∧ e.2 = 2)).length

/-- The per-site values that other state holds. -/
def State.siteValue (s : State) (n sub : Nat) : Nat :=
  match sub with
  | 0x01 => siteType n
  | 0x02 => s.placement n
  | 0x03 => (s.tileOf n).getD 0xFFFF
  | 0x59 => match s.tileOf n with
    | some l => if siteType n = 1 then s.poisonedSlots (sIndex l) else 0
    | none => 0
  | 0xB5 => min 255 (s.findings.filter fun f => f.isOpen && decide (f.site = n)).length
  | 0xC4 => (if s.due.any fun d => decide (d.site = n ∧ d.kind = .logic) then 1 else 0)
      + (if s.due.any fun d => decide (d.site = n ∧ d.kind = .memory) then 2 else 0)
  | _ => s.reg (0x3000 + n) sub

/-- The orphaned X-tiles of a stack, and the substitute of the lowest (object 0x4100 + s:0B). -/
def State.orphanWord (s : State) (st : Nat) : Nat :=
  let os := (List.range 4).filter fun k => (s.xtile (4 * st + k)).orphan
  regionMask os + match os.head? with
    | some k => place ((s.substitute (4 * st + k)).getD 0 % 4) 4
    | none => 0

/-- The islands that Marigold runs on (object 0x2630:06). -/
def State.marigoldMask (s : State) : Nat := regionMask ((List.range 24).filter fun i => (s.mari i).isSome)

/-- The state codes of the dump slots (object 0x2F20:03). -/
def State.dumpStates (s : State) : Nat :=
  (List.range 4).foldl (fun m k => m + place (s.dumps.getD k {}).state (4 * k)) 0

/-- The value of a scalar now, for a path. A constant of the object tables is its default. -/
def State.objValue (s : State) (p : Path) (idx sub : Nat) : Nat :=
  let fixed := match objRow idx sub with
    | some r => if r.acc = .const then r.dflt else if r.acc = .wo then 0 else s.reg idx sub
    | none => 0
  if isSelector idx sub then s.selector p idx sub
  else if idx = 0x1003 then (if sub = 0 then s.errorHistory.length else s.errorHistory.getD (sub - 1) 0)
  else if sub = 0 then (if idx = 0x1001 ∨ idx = 0x1017 then s.reg idx 0 else fixed)
  else if idx = 0x2810 ∨ idx = 0x2900 then s.flagValue p idx sub
  else if 0x2840 ≤ idx ∧ idx < 0x2880 then s.entryAt ((idx - 0x2840) * 4096 + s.selector p idx 0x02)
  else if 0x3000 ≤ idx ∧ idx < 0x3CC0 then s.siteValue (idx - 0x3000) sub
  else if 0x4100 ≤ idx ∧ idx < 0x4120 then
    (if sub = 0x08 then (s.retired.filter fun e => decide ((interleave e.1).1 = idx - 0x4100)).length
     else if sub = 0x0B then s.orphanWord (idx - 0x4100) else fixed)
  else if 0x4200 ≤ idx ∧ idx < 0x4204 then
    (if sub = 0x07 then ((List.range 256).filter fun i => (s.pair (256 * (idx - 0x4200) + i)).state == 2).length else fixed)
  else if 0x2E20 ≤ idx ∧ idx < 0x2E30 then (if sub = 0x03 then s.fuseMacs.getD (idx - 0x2E20) 0 % 2 ^ 48 else fixed)
  else if idx = 0x2000 then
    (match sub with
     | 0x01 => s.fuseSerial
     | 0x04 => s.fuseSites.length
     | 0x02 => fixed
     | _ => s.fuseDies.getD (sub - 5) 0)
  else if idx = 0x1018 ∧ sub = 0x04 then s.fuseSerial % 2 ^ 32
  else if idx = 0x2110 ∧ sub = 0x02 then (if s.selfCal then 1 + Config.freeNat s.free % 7 else 0)
  else if idx = 0x2500 ∧ sub = 0x08 then min 255 s.policyLastHour
  else if idx = 0x2530 ∧ sub = 0x04 then s.evidenceCount
  else if idx = 0x2530 ∧ sub = 0x08 then s.openFindings
  else if idx = 0x2602 ∧ sub = 0x03 then s.due.length
  else if idx = 0x2630 ∧ sub = 0x06 then s.marigoldMask
  else if idx = 0x29E0 ∧ sub = 0x06 then (s.tags.filter fun e => decide (e.2 = 2)).length
  else if idx = 0x2C30 ∧ sub = 0x03 then ((List.range 64).filter fun c => s.reg (0x2700 + c) 0x20 == 1).length
  else if idx = 0x2D00 ∧ sub = 0x0B then s.retired.length
  else if idx = 0x2E40 ∧ sub = 0x08 then Config.idcode.toNat
  else if idx = 0x2F00 ∧ sub = 0x02 then s.log.length
  else if idx = 0x2F20 ∧ sub = 0x03 then s.dumpStates
  else fixed

/-! ## Domains -/

/-- The 32 bytes of a log entry (Table 17-3). -/
def logBytes (e : LogEntry) : List Byte :=
  toBytes 8 e.ev.time ++ toBytes 8 (place e.ev.code 48 + place e.ev.kind 44 + place e.ev.num 32 + e.seq)
    ++ toBytes 8 e.ev.arg1 ++ toBytes 8 e.ev.arg2

/-- The held entries at or after the read start, ascending (R450). -/
def State.logDomain (s : State) : List Byte :=
  (s.log.reverse.filter fun e =>
    decide ((e.seq + 2 ^ 32 - s.reg 0x2F00 0x04) % 2 ^ 32 < 2 ^ 31)).flatMap logBytes

/-- The 16 bytes of a marginal finding (Table 14-5). -/
def findingBytes (f : Finding) : List Byte :=
  toBytes 8 (place f.site 52 + place f.margin 44 + place f.temperature 36 + place f.pattern 20 + (if f.isOpen then 1 else 0))
    ++ toBytes 8 f.time

/-- The bytes of "Scainlia". -/
def deviceName : List Byte := [0x53, 0x63, 0x61, 0x69, 0x6E, 0x6C, 0x69, 0x61]

/-- The bytes of "TMH-8A-2048". -/
def partNumber : List Byte := [0x54, 0x4D, 0x48, 0x2D, 0x38, 0x41, 0x2D, 0x32, 0x30, 0x34, 0x38]

/-- The bytes of a domain now, for a path. -/
def State.objBytes (s : State) (p : Path) (idx sub : Nat) : List Byte :=
  if idx = 0x1008 then deviceName
  else if idx = 0x1009 then [0x41, 0x32]
  else if idx = 0x100A then Config.versionString ((s.firmware.map fun f => f.version).getD (s.reg 0x2030 0x03) 0)
  else if idx = 0x2000 then partNumber
  else if idx = 0x2010 then s.licence
  else if idx = 0x2100 then (s.calNext.getD s.cal).image
  else if idx = 0x2550 then s.findings.flatMap findingBytes
  else if idx = 0x2610 then s.resultLog.reverse.flatMap fun ws => ws.flatMap (toBytes 8)
  else if 0x2840 ≤ idx ∧ idx < 0x2880 then (List.range 4096).flatMap fun i => toBytes 8 (s.entryAt ((idx - 0x2840) * 4096 + i))
  else if idx = 0x2D10 then s.retired.flatMap fun e => toBytes 8 (place e.2 56 + e.1)
  else if 0x2E20 ≤ idx ∧ idx < 0x2E30 then toBytes 16 (s.reg idx 0x05)
  else if idx = 0x2F00 then s.logDomain
  else if idx = 0x2F20 then (if sub = 0x07 then s.dumpFlash else (s.dumps.getD (s.selectedDump p) {}).bytes)
  else if 0x4200 ≤ idx ∧ idx < 0x4204 then (s.pair (s.selectedPair p (idx - 0x4200))).words.flatMap (toBytes 8)
  else []

/-! ## Reads -/

/-- Why a read is refused, 0 when it is not (Table 18-2). `slot` is set for a read through a scalar slot.
(DESIGN CHOICE: notes/assumptions/57.md.) -/
def State.readCode (s : State) (idx sub : Nat) (slot : Bool) : Nat :=
  if s.controllerDown then abortBusy
  else if !indexExists idx then abortIndex
  else match objRow idx sub with
    | none => abortSub
    | some r =>
      if r.size = 0 && slot then abortDomain
      else if !s.available idx sub false then abortState
      else 0

/-- The value that a path reads: of its snapshot while it has one (R466). -/
def State.pathValue (s : State) (p : Path) (idx sub : Nat) : Nat :=
  match s.dictSnap (pathNo p) with
  | some d => if d.index = idx ∧ sub ≠ 0 then
      match d.vals.find? fun e => decide (e.1 = sub) with
      | some e => e.2
      | none => s.objValue p idx sub
    else s.objValue p idx sub
  | none => s.objValue p idx sub

/-- The values that a snapshot of an object holds. -/
def State.snapshotOf (s : State) (p : Path) (idx : Nat) : List (Nat × Nat) :=
  (List.range 256).filterMap fun sub => match objRow idx sub with
    | some r => if r.size = 0 ∨ r.acc = .wo ∨ !s.available idx sub false then none else some (sub, s.objValue p idx sub)
    | none => none

/-- The bytes that a path reads: a scalar in its type's size, or a domain. -/
def State.pathBytes (s : State) (p : Path) (idx sub : Nat) : List Byte :=
  match objRow idx sub with
  | some r => if r.acc = .wo then List.replicate r.size 0
    else if r.size = 0 then s.objBytes p idx sub else toBytes r.size (s.pathValue p idx sub)
  | none => []

/-- The 64 bits of a scalar's BAR0 slot: zero-extended, or sign-extended for an INTEGER (R459). -/
def slotValue (idx sub v : Nat) : Nat :=
  match objRow idx sub with
  | some r => if r.isInt && v.testBit (8 * r.size - 1) then v + (2 ^ 64 - 2 ^ (8 * r.size)) else v
  | none => v

/-- A read by a path: refused with its code, or answered. A read of subindex 0 latches a snapshot. -/
def readObject (p : Path) (idx sub : Nat) (slot : Bool) (reply : Nat → State → Prog) : Prog := .look fun s =>
  let c := s.readCode idx sub slot
  if c ≠ 0 then all [recordAbort p idx sub c, reply c s]
  else all [
    reply 0 s,
    whenP (decide (idx = 0x2110)) (.eff .draw),
    whenP (sub == 0) (.eff (.dictSnaps (pathNo p) (some { index := idx, vals := s.snapshotOf p idx })))]

end Sys2Proof.Machine
end

