-- ==== Sys2Proof/Machine/DictCommands.lean ====
section
/-! DEFINITION. Writes of any dictionary object (R456 to R461, R465, R468), the domain windows, and the paths of CAN and
JTAG (R462, R463, R485). -/

namespace Sys2Proof.Machine

open Sys2Proof

/-! ## Settings -/

/-- The values that the tables of chapters 02 to 17 and R321, R328 accept for a setting. Every other scalar takes any
value of its type. (DEDUCED: notes/assumptions/89.md.) -/
def settingAccepts (idx sub v : Nat) : Bool :=
  match idx, sub with
  | 0x2030, 0x02 | 0x2100, 0x04 | 0x2210, 0x01 | 0x2500, 0x05 | 0x2520, 0x01 | 0x2800, 0x02 | 0x2C10, 0x01 => decide (v ≤ 1)
  | 0x2200, 0x01 => decide (3000 ≤ v ∧ v ≤ 12500)
  | 0x2220, 0x01 => decide (1 ≤ v ∧ v ≤ 40)
  | 0x2220, 0x02 | 0x2630, 0x04 => decide (v ≤ 100)
  | 0x2230, 0x01 => decide (650 ≤ v ∧ v ≤ 850)
  | 0x2230, 0x03 => decide (620 ≤ v ∧ v ≤ 750)
  | 0x2300, 0x01 => decide (70 ≤ v ∧ v ≤ 105)
  | 0x2500, 0x01 | 0x2600, 0x01 => decide (v ≤ 2)
  | 0x2500, 0x04 => decide (v ≤ 30)
  | 0x2530, 0x01 => decide (1 ≤ v ∧ v ≤ 1000)
  | 0x2530, 0x07 => decide (1 ≤ v ∧ v ≤ 8760)
  | 0x2630, 0x03 => decide (1 ≤ v ∧ v ≤ 50)
  | 0x2A00, 0x03 => decide (v ≤ 15)
  | 0x2D00, 0x01 => decide (v = 6400 ∨ v = 7200 ∨ v = 8000)
  | 0x2D00, 0x02 => decide (v ≤ 3)
  | 0x2E10, 0x04 => decide (v % bar4Size = 0)
  | 0x2E10, 0x05 => decide (v % 2 ^ 31 = 0)
  | 0x2E30, 0x01 => decide (1 ≤ v ∧ v ≤ 127)
  | 0x2E40, 0x02 => decide (v ≤ 15 ∨ v = 0xFF)
  | _, _ => if 0x2700 ≤ idx ∧ idx < 0x2740 then
      (if sub = 0x03 then decide (v ≤ 7) else if sub = 0x05 then decide (4 ≤ v ∧ v ≤ 16) else true)
    else true

/-- A setting may be written in this state: the objects of a context only while it is free (R253), a PTP port only when it
is licensed (R343). -/
def State.settingFree (s : State) (idx sub v : Nat) : Bool :=
  if 0x2700 ≤ idx ∧ idx < 0x2740 ∧ 0x03 ≤ sub ∧ sub ≤ 0x07 then s.ctxState (idx - 0x2700) == 0
  else if idx = 0x2E40 ∧ sub = 0x02 then decide (v = 0xFF) || s.reg (0x2E20 + v) 0x01 != 2
  else true

/-- What a setting does besides: an Ethernet port that is disabled goes down, one that is enabled may come up (R329). -/
def settingEffect (idx sub v : Nat) : Prog := .look fun s =>
  whenP (decide (0x2E20 ≤ idx ∧ idx < 0x2E30 ∧ sub = 0x02) && s.reg idx 0x01 != 2)
    (if v = 0 then all [ethDown (idx - 0x2E20), setReg idx 0x01 3]
     else whenP (s.reg idx 0x01 == 3) (setReg idx 0x01 0))

/-- A write of an rw scalar that only holds a setting. The armed-class mask keeps its seven bits (R9).
(DEDUCED: notes/assumptions/51.md.) (DEDUCED: notes/assumptions/89.md.) -/
def settingCommand (idx sub v : Nat) : Command where
  valueOk _ := settingAccepts idx sub v
  stateOk s := s.settingFree idx sub v
  effect := .seq (setReg idx sub (if idx = 0x2500 ∧ sub = 0x02 then v % 2 ^ 7 else v)) (settingEffect idx sub v)
  setting := true

/-- The highest value of a selector. -/
def selectorLimit (idx sub : Nat) : Nat :=
  if idx = 0x2810 then (if sub = 0x01 then 63 else 4095)
  else if idx = 0x2900 then 12287 else if idx = 0x2F20 then 3 else if 0x4200 ≤ idx then 255 else 4095

/-- A write of a path's copy of a selector (R465). -/
def selectorCommand (p : Path) (idx sub v : Nat) : Command where
  valueOk _ := decide (v ≤ selectorLimit idx sub)
  effect := .eff (.selectors (pathNo p * 2 ^ 32 + rk idx sub) v)
  setting := true

/-- RESTORE_DEFAULTS: object 0x1011:01 (R468). -/
def restoreCommand (v : Nat) : Command where
  valueOk _ := decide (v = 0x64616F6C)
  stateOk s := s.allFree
  effect := .eff (.restoreDefaults true)

/-- RESTORE_DEFAULTS (R468). -/
def execRestoreDefaults (p : Path) (v : Nat) (s : State) : Host.Outcome State Fault Refusal :=
  finish (commandWrite p 0x1011 0x01 (restoreCommand v)) s

/-! ## Clearing counters (R84) -/

/-- The counters that each clear object clears: a predicate on object and subindex.
(DEDUCED: notes/assumptions/90.md.) -/
def clearsOf (idx i sub : Nat) : Bool :=
  let site := decide (0x3000 ≤ i ∧ i < 0x3CC0)
  match idx with
  | 0x2C02 => decide (i = 0x2C01 ∨ i = 0x2C20 ∨ (i = 0x2C30 ∧ sub = 0x02))
      || (site && decide ((0x20 ≤ sub ∧ sub ≤ 0x24) ∨ (0x30 ≤ sub ∧ sub ≤ 0x3A) ∨ (0x40 ≤ sub ∧ sub ≤ 0x48) ∨ (0x60 ≤ sub ∧ sub ≤ 0x65)))
  | 0x29E1 => decide (i = 0x29E0 ∧ (sub = 0x04 ∨ sub = 0x05)) || (site && decide (0x51 ≤ sub ∧ sub ≤ 0x58))
  | 0x2B00 => decide (i = 0x2B00 ∧ (sub = 0x02 ∨ sub = 0x03)) || decide (0x2700 ≤ i ∧ i < 0x2740 ∧ (sub = 0x33 ∨ sub = 0x34))
      || (site && decide (0x72 ≤ sub ∧ sub ≤ 0x7A))
  | 0x2A00 => decide (i = 0x2A00 ∧ (sub = 0x07 ∨ sub = 0x08)) || (site && decide (0x80 ≤ sub ∧ sub ≤ 0x89))
  | 0x2800 => decide (i = 0x2800 ∧ sub = 0x04) || decide (0x2700 ≤ i ∧ i < 0x2740 ∧ (sub = 0x0B ∨ sub = 0x0C))
      || (site && decide (0x90 ≤ sub ∧ sub ≤ 0x94))
  | 0x2D00 => decide (i = 0x2D00 ∧ (sub = 0x09 ∨ sub = 0x0A)) || decide (0x4100 ≤ i ∧ i < 0x4120 ∧ (sub = 0x05 ∨ sub = 0x06))
  | 0x2E00 => decide ((i = 0x2E00 ∧ (sub = 0x03 ∨ sub = 0x04)) ∨ (i = 0x2E10 ∧ (sub = 0x08 ∨ sub = 0x09)) ∨ (i = 0x2E30 ∧ sub = 0x04))
      || decide (0x2E20 ≤ i ∧ i < 0x2E30 ∧ 0x06 ≤ sub ∧ sub ≤ 0x0A)
      || decide (0x4200 ≤ i ∧ i < 0x4204 ∧ (sub = 0x02 ∨ sub = 0x03 ∨ sub = 0x04 ∨ sub = 0x08))
  | 0x2200 => decide (i = 0x2210 ∧ (sub = 0x05 ∨ sub = 0x06)) || decide (0x4000 ≤ i ∧ i < 0x4018 ∧ (sub = 0x0F ∨ sub = 0x10))
      || (site && sub == 0xA2)
  | 0x2540 => decide ((i = 0x2540 ∧ 0x01 ≤ sub ∧ sub ≤ 0x05) ∨ (i = 0x2510 ∧ (sub = 0x02 ∨ sub = 0x03)))
      || (site && decide (0xB1 ≤ sub ∧ sub ≤ 0xB3))
  | _ => decide (i = 0x2610 ∧ sub = 0x03) || (site && (sub == 0xC2 || sub == 0xC3))

/-- The channel and ring counters begin again (Table 10-10). (DEDUCED: notes/assumptions/90.md.) -/
def clearRings : Prog := .look fun s => eachP (s.rings.map fun e => e.1) fun r => modRing r fun x =>
  { x with messages := 0, senderStall := 0, receiverStall := 0, rejected := 0 }

/-- The counts that no object shows are cleared with the counters of their chapters: dropped inputs of a mask (R141),
corrected errors in plan slots (R218), writes to retired granules (R309). (DESIGN CHOICE: notes/assumptions/106.md.) -/
def clearCounts (idx : Nat) : Prog :=
  match idx with
  | 0x2C02 => .eff (.dropMaskDrops 0 everyKey)
  | 0x2B00 => .eff (.dropSlotFixes 0 everyKey)
  | 0x2D00 => .eff (.retiredDrops 0)
  | _ => .skip

/-- The write of the clear object of index `idx`: zero has no effect. -/
def clearCommand (idx v : Nat) : Command where
  effect := whenP (v != 0) (all [resetRegs (clearsOf idx), whenP (idx == 0x2800) clearRings, clearCounts idx])

/-- CLEAR_ARITHMETIC_COUNTERS (R84, R145). -/
def execClearArithmeticCounters (p : Path) (v : Nat) (s : State) : Host.Outcome State Fault Refusal :=
  finish (commandWrite p 0x2C02 0x01 (clearCommand 0x2C02 v)) s

/-- CLEAR_SCRATCHPAD_COUNTERS (R84). -/
def execClearScratchpadCounters (p : Path) (v : Nat) (s : State) : Host.Outcome State Fault Refusal :=
  finish (commandWrite p 0x29E1 0x01 (clearCommand 0x29E1 v)) s

/-- CLEAR_BOND_COUNTERS (R225). -/
def execClearBondCounters (p : Path) (v : Nat) (s : State) : Host.Outcome State Fault Refusal :=
  finish (commandWrite p 0x2B00 0x04 (clearCommand 0x2B00 v)) s

/-- CLEAR_MORTAR_COUNTERS (R251). -/
def execClearMortarCounters (p : Path) (v : Nat) (s : State) : Host.Outcome State Fault Refusal :=
  finish (commandWrite p 0x2A00 0x06 (clearCommand 0x2A00 v)) s

/-- CLEAR_SYNC_COUNTERS (R289). -/
def execClearSyncCounters (p : Path) (v : Nat) (s : State) : Host.Outcome State Fault Refusal :=
  finish (commandWrite p 0x2800 0x05 (clearCommand 0x2800 v)) s

/-- CLEAR_HBM_COUNTERS (R84). -/
def execClearHbmCounters (p : Path) (v : Nat) (s : State) : Host.Outcome State Fault Refusal :=
  finish (commandWrite p 0x2D00 0x08 (clearCommand 0x2D00 v)) s

/-- CLEAR_PORT_COUNTERS (R84). -/
def execClearPortCounters (p : Path) (v : Nat) (s : State) : Host.Outcome State Fault Refusal :=
  finish (commandWrite p 0x2E00 0x02 (clearCommand 0x2E00 v)) s

/-- CLEAR_POWER_COUNTERS (R373). -/
def execClearPowerCounters (p : Path) (v : Nat) (s : State) : Host.Outcome State Fault Refusal :=
  finish (commandWrite p 0x2200 0x0A (clearCommand 0x2200 v)) s

/-- CLEAR_VOTE_COUNTERS (R84). -/
def execClearVoteCounters (p : Path) (v : Nat) (s : State) : Host.Outcome State Fault Refusal :=
  finish (commandWrite p 0x2540 0x06 (clearCommand 0x2540 v)) s

/-- CLEAR_SELF_TEST_COUNTERS (R84). -/
def execClearSelfTestCounters (p : Path) (v : Nat) (s : State) : Host.Outcome State Fault Refusal :=
  finish (commandWrite p 0x2600 0x05 (clearCommand 0x2600 v)) s

/-! ## Every scalar and every domain -/

/-- The command that a write of a scalar is: that of its own row where it has one. -/
def scalarCommand (p : Path) (idx sub v : Nat) : Command :=
  if isSelector idx sub then selectorCommand p idx sub v
  else match idx, sub with
  | 0x1003, _ => historyCommand v
  | 0x1011, _ => restoreCommand v
  | 0x2010, _ => licenceRemoveCommand v
  | 0x2100, 0x05 => calEraseCommand v
  | 0x2110, 0x01 => selfCalCommand v
  | 0x2110, _ => selfCalStopCommand v
  | 0x2200, 0x08 => minimumRecordsCommand v
  | 0x2320, 0x01 => replanCommand v
  | 0x2420, 0x01 => fenceCommand v
  | 0x2420, _ => releaseCommand v
  | 0x2430, _ => partitionCommand (sub - 1) v
  | 0x2500, 0x06 => acknowledgeCommand v
  | 0x2520, 0x02 => restartCommand v
  | 0x2530, 0x09 => clearSuspicionCommand v
  | 0x2550, _ => closeAllCommand v
  | 0x2601, _ => saveAreaCommand (sub - 1) v
  | 0x2602, 0x01 => requestCommand v
  | 0x2602, _ => cancelCommand v
  | 0x2630, 0x01 => marigoldCommand v
  | 0x2630, 0x07 => marigoldStopCommand v
  | 0x2900, _ => ringCommand p v
  | 0x2D00, 0x07 => memoryTestCommand v
  | 0x2E10, 0x01 => activePortCommand v
  | 0x2F10, 0x01 => resetCommand v
  | 0x2F10, 0x02 => contextResetCommand v
  | 0x2F10, _ => tileResetCommand v
  | 0x2F20, 0x05 => emptySlotCommand p v
  | 0x2F20, 0x06 => captureCommand v
  | 0x29E1, _ => clearCommand 0x29E1 v
  | 0x2C02, _ => clearCommand 0x2C02 v
  | 0x2200, 0x0A => clearCommand 0x2200 v
  | 0x2540, _ => clearCommand 0x2540 v
  | 0x2600, 0x05 => clearCommand 0x2600 v
  | 0x2800, 0x05 => clearCommand 0x2800 v
  | 0x2A00, 0x06 => clearCommand 0x2A00 v
  | 0x2B00, 0x04 => clearCommand 0x2B00 v
  | 0x2D00, 0x08 => clearCommand 0x2D00 v
  | 0x2E00, 0x02 => clearCommand 0x2E00 v
  | _, _ =>
    if 0x2700 ≤ idx ∧ idx < 0x2740 ∧ sub = 0x02 then
      (if v = 1 then openCommand (idx - 0x2700) else if v = 2 then closeCommand p (idx - 0x2700)
       else badContextCommand (idx - 0x2700) v)
    else if 0x2700 ≤ idx ∧ idx < 0x2740 ∧ sub = 0x20 then executionModeCommand (idx - 0x2700) v
    else if 0x2840 ≤ idx ∧ idx < 0x2880 then entryCommand p (idx - 0x2840) v
    else if 0x4000 ≤ idx ∧ idx < 0x4018 then islandCommand (idx - 0x4000) v
    else settingCommand idx sub v

/-- The firmware copy that was not booted; in recovery, the one that object 0x2030:02 names. -/
def State.spareCopy (s : State) : Nat := if s.recovery then s.reg 0x2030 0x02 % 2 else 1 - s.reg 0x2030 0x03 % 2

/-- Replaces the spare firmware copy. (DEDUCED: notes/assumptions/93.md.) -/
def setSpare (f : Firmware) : Prog := withState fun s => .firmware (s.firmware.set s.spareCopy f)

/-- The write of object 0x2030:01 (R461). (DEDUCED: notes/assumptions/93.md.) -/
def firmwareCommand (bs : List Byte) : Command where
  valueOk _ := Config.digestChecks bs
  effect := setSpare { image := bs, good := true, version := Config.firmwareVersion bs }

/-- The command that a write of a domain is. -/
def domainCommand (p : Path) (idx : Nat) (bs : List Byte) : Command :=
  if idx = 0x2010 then licenceCommand bs
  else if idx = 0x2030 then firmwareCommand bs
  else if idx = 0x2100 then calWriteCommand bs
  else if 0x2840 ≤ idx ∧ idx < 0x2880 then mapCommand p (idx - 0x2840) bs
  else if 0x4200 ≤ idx ∧ idx < 0x4204 then pairRecordCommand p (idx - 0x4200) bs
  else { effect := setReg idx 0x05 (ofBytes bs), setting := true }

/-- The lengths that a writable domain accepts (Table 18-5). -/
def domainLength (idx n : Nat) : Bool :=
  if idx = 0x2010 then n == 128
  else if idx = 0x2030 then decide (64 ≤ n ∧ n ≤ 2 ^ 24 ∧ n % 64 = 0)
  else if idx = 0x2100 then calLengthOk n
  else if 0x2840 ≤ idx ∧ idx < 0x2880 then n == 32768
  else if 0x4200 ≤ idx ∧ idx < 0x4204 then n == 64
  else n == 16

/-- Why a write is refused before its value is looked at, 0 when it is not (Table 18-2). `slot` is set for a write through
a scalar slot. (DEDUCED: notes/assumptions/10.md.) -/
def writeCode (idx sub n : Nat) (slot : Bool) : Nat :=
  if !indexExists idx then abortIndex
  else match objRow idx sub with
    | none => abortSub
    | some r =>
      if r.size = 0 && slot then abortDomain
      else if r.acc = .const ∨ r.acc = .ro then abortAccess
      else if (if r.size = 0 then domainLength idx n else n == r.size) then 0
      else abortLength

/-- A write of `n` bytes by a path. -/
def writeObject (p : Path) (idx sub n : Nat) (bs : Unit → List Byte) (slot : Bool) : Prog := .look fun s =>
  whenP (s.serves p) (
    let c := if s.controllerDown then abortBusy else writeCode idx sub n slot
    if c ≠ 0 then refuseAccess p idx sub c
    else match objRow idx sub with
      | some r => commandWrite p idx sub (if r.size = 0 then domainCommand p idx (bs ()) else scalarCommand p idx sub (ofBytes (bs ())))
      | none => .skip)

/-- REGISTER_WRITE (R456, R459): a write of `size` bytes at the first byte of a scalar's slot. -/
def execRegisterWrite (p : Path) (idx sub size v : Nat) (s : State) : Host.Outcome State Fault Refusal :=
  finish (writeObject p idx sub size (fun _ => toBytes size v) true) s

/-! ## Snapshots (R466) -/

/-- The read of subindex 0 of an object by a path. (DEDUCED: notes/assumptions/94.md.) -/
def latchProg (p : Path) (idx : Nat) : Prog := .look fun s =>
  whenP (s.serves p) (readObject p idx 0 true fun c t => answer p c (if c = 0 then t.pathValue p idx 0 else 0))

/-- SNAPSHOT_LATCH (R466). -/
def execSnapshotLatch (p : Path) (idx : Nat) (s : State) : Host.Outcome State Fault Refusal := finish (latchProg p idx) s

/-- SNAPSHOT_EXPIRE (R466). -/
def execSnapshotExpire (p : Path) (s : State) : Host.Outcome State Fault Refusal :=
  finish (.eff (.dictSnaps (pathNo p) none)) s

/-! ## The domain window (R460, R461) -/

/-- The index and subindex that a window selects. -/
def Window.idx (w : Window) : Nat := bits w.selector 31 16
/-- The subindex that a window selects. -/
def Window.sub (w : Window) : Nat := bits w.selector 15 8

/-- The size of the staging buffer: that of the selected scalar's type, or the longest domain accepted. -/
def stageSize (idx sub : Nat) : Nat :=
  match objRow idx sub with
  | none => 0
  | some r =>
    if r.size ≠ 0 then r.size
    else if r.acc = .const ∨ r.acc = .ro then 0
    else if idx = 0x2010 then 128 else if idx = 0x2030 then 2 ^ 24 else if idx = 0x2100 then 2 ^ 22
    else if 0x2840 ≤ idx ∧ idx < 0x2880 then 32768 else if 0x4200 ≤ idx then 64 else 16

/-- An access to BAR2 that the standby port turns away (R324); JTAG and CAN have no standby. -/
def State.standby (s : State) (p : Path) : Option Nat :=
  match p with
  | .host0 => if s.isActivePort 0 then none else some 0
  | .host1 => if s.isActivePort 1 then none else some 1
  | _ => none

/-- A write in BAR2 at `off` by a path with a window. -/
def windowWriteProg (p : Path) (off : Nat) (act : Prog) : Prog := .look fun s =>
  whenP (s.serves p && p != .canA && p != .canB) (match s.standby p with
    | some h => standbyRefused h 2 off
    | none => act)

/-- The selector is written: the staging buffer is filled with zeros, the spare firmware copy with it when it is the
buffer. (DEDUCED: notes/assumptions/92.md.) -/
def selectDomain (p : Path) (v : Nat) : Prog :=
  let w := v % 2 ^ 32 - v % 2 ^ 8
  all [
    modWindow (pathNo p) fun x => { x with selector := w, staging := [] },
    whenP (decide (bits w 31 8 = 0x203001)) (setSpare { good := false })]

/-- DOMAIN_SELECT (R460). -/
def execDomainSelect (p : Path) (v : Nat) (s : State) : Host.Outcome State Fault Refusal :=
  finish (windowWriteProg p 0x80000 (selectDomain p v)) s

/-- A buffer of at most `cap` bytes, zero beyond what it holds, with bytes stored at `pos`. -/
def stageWrite (buf : List Byte) (pos : Nat) (bs : List Byte) (cap : Nat) : List Byte :=
  if cap ≤ pos then buf else (padTo pos buf ++ bs ++ buf.drop (pos + bs.length)).take cap

/-- Bytes are stored in a path's staging buffer. -/
def stageBytes (p : Path) (a : Nat) (bs : List Byte) : Prog := .look fun s =>
  let w := s.window (pathNo p)
  let buf := stageWrite w.staging (w.offset + a) bs (stageSize w.idx w.sub)
  all [
    modWindow (pathNo p) fun x => { x with staging := buf },
    whenP (decide (bits w.selector 31 8 = 0x203001)) (setSpare { image := buf, good := false })]

/-- The window offset is written. -/
def setOffset (p : Path) (v : Nat) : Prog := modWindow (pathNo p) fun x => { x with offset := v % 2 ^ 64 - v % 8 }

/-- A write of bytes at a BAR2 offset of the window: the window offset register, or the aperture.
(DEDUCED: notes/assumptions/92.md.) -/
def apertureProg (p : Path) (off : Nat) (bs : List Byte) : Prog :=
  if off = 0x80008 then setOffset p (ofBytes (bs.take 8))
  else whenP (decide (0x90000 ≤ off ∧ off + bs.length ≤ 0x100000)) (stageBytes p (off - 0x90000) bs)

/-- APERTURE_WRITE (R460). -/
def execApertureWrite (p : Path) (off : Nat) (bytes : List Byte) (s : State) : Host.Outcome State Fault Refusal :=
  finish (windowWriteProg p off (apertureProg p off bytes)) s

/-- A commit of the first `n` staging bytes: busy until the access is answered, status 0 at once for none (R461). -/
def commitDomain (p : Path) (n : Nat) : Prog := .look fun s =>
  let w := s.window (pathNo p)
  if n = 0 then modWindow (pathNo p) fun x => { x with status := 0 }
  else all [
    modWindow (pathNo p) fun x => { x with status := windowBusy },
    writeObject p w.idx w.sub n (fun _ => padTo n w.staging) false]

/-- DOMAIN_COMMIT (R461). -/
def execDomainCommit (p : Path) (len : Nat) (s : State) : Host.Outcome State Fault Refusal :=
  finish (windowWriteProg p 0x80020 (commitDomain p (len % 2 ^ 32))) s

/-! ## USDO (R462) -/

/-- A USDO transfer on a bus: a read is answered with its bytes, a write as its object answers.
(DEDUCED: notes/assumptions/92.md.) -/
def usdoProg (b : Nat) (r : UsdoRequest) : Prog := .look fun s =>
  let p := busPath b
  whenP (s.serves p) (match r with
    | .read idx sub => readObject p idx sub false fun c t =>
        .eff (.emit (.usdoReply b c (if c = 0 then t.pathBytes p idx sub else [])))
    | .write idx sub bs => writeObject p idx sub bs.length (fun _ => bs) false)

/-- USDO_REQUEST (R462). -/
def execUsdoRequest (b : Bus) (r : UsdoRequest) (s : State) : Host.Outcome State Fault Refusal :=
  finish (usdoProg b r) s

/-! ## JTAG (R463, R485) -/

/-- An Update-DR that starts an access: the register reads busy until it is answered, for good when no part of the
management plane answers yet (R485). -/
def jtagAccess (ir : JtagIr) (act : Prog) : Prog := .look fun s =>
  whenP s.tapUp (all [.eff (.ir ir), .eff (.dr jtagBusy), whenP (s.serves .jtag) act])

/-- The JTAG register takes a result: abort code in [95:64], data in [63:0]. -/
def jtagDone (code v : Nat) : Prog := .eff (.dr (place code 64 + v))

/-- The access that a DICT register spells. (DEDUCED: notes/assumptions/92.md.) -/
def dictProg (dr : Nat) : Prog :=
  let idx := bits dr 126 111
  let sub := bits dr 110 103
  let size := 2 ^ bits dr 102 101
  if bit dr 127 then writeObject .jtag idx sub size (fun _ => toBytes size (bits dr 63 0)) true
  else readObject .jtag idx sub true fun c t =>
    jtagDone c (if c = 0 then slotValue idx sub (ofBytes (t.pathBytes .jtag idx sub)) % 2 ^ (8 * size) else 0)

/-- DICT (R463). -/
def execDict (dr : BitVec 128) (s : State) : Host.Outcome State Fault Refusal :=
  finish (jtagAccess .dict (dictProg dr.toNat)) s

/-- A read at a BAR2 offset of JTAG's window: a register, or the bytes of the selected object from the window offset on. -/
def windowReadProg (off : Nat) : Prog := .look fun s =>
  let w := s.window (pathNo .jtag)
  if off = 0x80000 then jtagDone 0 w.selector
  else if off = 0x80008 then jtagDone 0 w.offset
  else if off = 0x80010 then jtagDone 0 (match objRow w.idx w.sub with
    | some r => if r.size ≠ 0 then r.size else if s.available w.idx w.sub false then (s.objBytes .jtag w.idx w.sub).length else 0
    | none => 0)
  else if off = 0x80018 then jtagDone 0 w.status
  else if 0x90000 ≤ off then readObject .jtag w.idx w.sub false fun c t =>
    let size := match objRow w.idx w.sub with | some r => r.size | none => 0
    let bs := if size = 0 then t.pathBytes .jtag w.idx w.sub
      else toBytes 8 (slotValue w.idx w.sub (ofBytes (t.pathBytes .jtag w.idx w.sub)))
    jtagDone c (if c = 0 then ofBytes ((bs.drop (w.offset + (off - 0x90000))).take 8) else 0)
  else jtagDone 0 0

/-- The access that a DICT_WINDOW register spells. -/
def dictWindowProg (dr : Nat) : Prog :=
  let off := bits dr 126 107
  let v := bits dr 63 0
  if bit dr 127 then all [
    jtagDone 0 0,
    if off = 0x80000 then selectDomain .jtag v
    else if off = 0x80020 then commitDomain .jtag (v % 2 ^ 32)
    else apertureProg .jtag off (toBytes 8 v)]
  else windowReadProg off

/-- DICT_WINDOW (R463). -/
def execDictWindow (dr : BitVec 128) (s : State) : Host.Outcome State Fault Refusal :=
  finish (jtagAccess .dictWindow (dictWindowProg dr.toNat)) s

end Sys2Proof.Machine
end

