-- ==== Sys2Proof/Machine/Dispatch.lean ====
section
/-! DEFINITION. One arm per command; each calls its meaning. -/

namespace Sys2Proof.Machine

open Sys2Proof

/-- The effect of a command on everything but the queue. -/
def exec (i : Instr) (s : State) : Host.Outcome State Fault Refusal :=
  match i with
  | .auxSupplyRise => Sys2Proof.Machine.execAuxSupplyRise s
  | .auxSupplyFail => Sys2Proof.Machine.execAuxSupplyFail s
  | .resetCold p => Sys2Proof.Machine.execResetCold p s
  | .resetWarmFull p => Sys2Proof.Machine.execResetWarmFull p s
  | .resetCompute p => Sys2Proof.Machine.execResetCompute p s
  | .resetComputeRetrain p => Sys2Proof.Machine.execResetComputeRetrain p s
  | .computeResetComplete tookMs => Sys2Proof.Machine.execComputeResetComplete tookMs s
  | .hresetNLow ns => Sys2Proof.Machine.execHresetNLow ns s
  | .hresetNRise => Sys2Proof.Machine.execHresetNRise s
  | .contextReset p v => Sys2Proof.Machine.execContextReset p v s
  | .tileReset p v => Sys2Proof.Machine.execTileReset p v s
  | .bringUpStepEnd r => Sys2Proof.Machine.execBringUpStepEnd r s
  | .phaseFault ix group phase kind => Sys2Proof.Machine.execPhaseFault ix group phase kind s
  | .pacingTick ix group amps10 => Sys2Proof.Machine.execPacingTick ix group amps10 s
  | .inputVoltageSample mV powerW => Sys2Proof.Machine.execInputVoltageSample mV powerW s
  | .budgetPeriod m => Sys2Proof.Machine.execBudgetPeriod m s
  | .offerHoldExpire site => Sys2Proof.Machine.execOfferHoldExpire site s
  | .regulatorSample ix r => Sys2Proof.Machine.execRegulatorSample ix r s
  | .resetMinimumRecords p v => Sys2Proof.Machine.execResetMinimumRecords p v s
  | .islandPowerOn p ix => Sys2Proof.Machine.execIslandPowerOn p ix s
  | .islandPowerOff p ix => Sys2Proof.Machine.execIslandPowerOff p ix s
  | .rampCheck ix draw => Sys2Proof.Machine.execRampCheck ix draw s
  | .rampWaitLimit ix draw => Sys2Proof.Machine.execRampWaitLimit ix draw s
  | .islandRampDone ix lowest highest rampUs => Sys2Proof.Machine.execIslandRampDone ix lowest highest rampUs s
  | .thermalCapStep ix hottest => Sys2Proof.Machine.execThermalCapStep ix hottest s
  | .thermalTrip ix hottest => Sys2Proof.Machine.execThermalTrip ix hottest s
  | .beatRateMeasure ix rate => Sys2Proof.Machine.execBeatRateMeasure ix rate s
  | .canaryAlarm site margin => Sys2Proof.Machine.execCanaryAlarm site margin s
  | .replanStart p v => Sys2Proof.Machine.execReplanStart p v s
  | .replanPeriod => Sys2Proof.Machine.execReplanPeriod s
  | .replanComplete margins ageing => Sys2Proof.Machine.execReplanComplete margins ageing s
  | .fenceSite p v => Sys2Proof.Machine.execFenceSite p v s
  | .fenceStart ecc => Sys2Proof.Machine.execFenceStart ecc s
  | .routeTableUpdate => Sys2Proof.Machine.execRouteTableUpdate s
  | .fenceComplete => Sys2Proof.Machine.execFenceComplete s
  | .releaseSite p v => Sys2Proof.Machine.execReleaseSite p v s
  | .partitionWrite p k mask => Sys2Proof.Machine.execPartitionWrite p k mask s
  | .remapTableError r holder both => Sys2Proof.Machine.execRemapTableError r holder both s
  | .planSlotError site slot corrected => Sys2Proof.Machine.execPlanSlotError site slot corrected s
  | .routeTableError site => Sys2Proof.Machine.execRouteTableError site s
  | .flagMapError c copy => Sys2Proof.Machine.execFlagMapError c copy s
  | .operationRecordStart site env => Sys2Proof.Machine.execOperationRecordStart site env s
  | .blockStep site env => Sys2Proof.Machine.execBlockStep site env s
  | .weightSlice site env => Sys2Proof.Machine.execWeightSlice site env s
  | .drainRow site stallBeats => Sys2Proof.Machine.execDrainRow site stallBeats s
  | .verdictApply site v holdBeats => Sys2Proof.Machine.execVerdictApply site v holdBeats s
  | .sequencerMismatch site holdBeats => Sys2Proof.Machine.execSequencerMismatch site holdBeats s
  | .operandStoreWrite site w => Sys2Proof.Machine.execOperandStoreWrite site w s
  | .laneBeat site env => Sys2Proof.Machine.execLaneBeat site env s
  | .camWindowLoad site env => Sys2Proof.Machine.execCamWindowLoad site env s
  | .plainRead t q ecc => Sys2Proof.Machine.execPlainRead t q ecc s
  | .plainWrite t q waitBeats => Sys2Proof.Machine.execPlainWrite t q waitBeats s
  | .consume t q ecc => Sys2Proof.Machine.execConsume t q ecc s
  | .peek t q ecc => Sys2Proof.Machine.execPeek t q ecc s
  | .synchronisedWrite t q waitBeats => Sys2Proof.Machine.execSynchronisedWrite t q waitBeats s
  | .blockedAccessRetry t n beats ecc => Sys2Proof.Machine.execBlockedAccessRetry t n beats ecc s
  | .slotPassageEnd t slot ecc => Sys2Proof.Machine.execSlotPassageEnd t slot ecc s
  | .correctedWriteBack t word => Sys2Proof.Machine.execCorrectedWriteBack t word s
  | .poisonRewrite t word => Sys2Proof.Machine.execPoisonRewrite t word s
  | .patrolScrub t bank ecc => Sys2Proof.Machine.execPatrolScrub t bank ecc s
  | .streamRecordStart t ag => Sys2Proof.Machine.execStreamRecordStart t ag s
  | .memopFill t waitBeats => Sys2Proof.Machine.execMemopFill t waitBeats s
  | .memopCopy t ecc => Sys2Proof.Machine.execMemopCopy t ecc s
  | .fma site env => Sys2Proof.Machine.execFma site env s
  | .add site env => Sys2Proof.Machine.execAdd site env s
  | .mul site env => Sys2Proof.Machine.execMul site env s
  | .max site env => Sys2Proof.Machine.execMax site env s
  | .min site env => Sys2Proof.Machine.execMin site env s
  | .exp site env => Sys2Proof.Machine.execExp site env s
  | .log site env => Sys2Proof.Machine.execLog site env s
  | .rsqrt site env => Sys2Proof.Machine.execRsqrt site env s
  | .recip site env => Sys2Proof.Machine.execRecip site env s
  | .tanh site env => Sys2Proof.Machine.execTanh site env s
  | .erf site env => Sys2Proof.Machine.execErf site env s
  | .reduceSum site env => Sys2Proof.Machine.execReduceSum site env s
  | .reduceMax site env => Sys2Proof.Machine.execReduceMax site env s
  | .softmaxStats site env => Sys2Proof.Machine.execSoftmaxStats site env s
  | .softmaxCombine site env => Sys2Proof.Machine.execSoftmaxCombine site env s
  | .fQuantise site env => Sys2Proof.Machine.execFQuantise site env s
  | .fCompress site env => Sys2Proof.Machine.execFCompress site env s
  | .dequantise site env => Sys2Proof.Machine.execDequantise site env s
  | .move site env => Sys2Proof.Machine.execMove site env s
  | .executionModeWrite p c v => Sys2Proof.Machine.execExecutionModeWrite p c v s
  | .u2HaltWord site stageBeats => Sys2Proof.Machine.execU2HaltWord site stageBeats s
  | .bondTransferHop h err waited held => Sys2Proof.Machine.execBondTransferHop h err waited held s
  | .spillRefill site route waited ecc => Sys2Proof.Machine.execSpillRefill site route waited ecc s
  | .forkFire site e => Sys2Proof.Machine.execForkFire site e s
  | .joinFire site e => Sys2Proof.Machine.execJoinFire site e s
  | .switchFire site e => Sys2Proof.Machine.execSwitchFire site e s
  | .mergeFire site e => Sys2Proof.Machine.execMergeFire site e s
  | .filterFire site e => Sys2Proof.Machine.execFilterFire site e s
  | .tileDone site => Sys2Proof.Machine.execTileDone site s
  | .packetInject src beats => Sys2Proof.Machine.execPacketInject src beats s
  | .routerHop plane node port cls claimBeats => Sys2Proof.Machine.execRouterHop plane node port cls claimBeats s
  | .flitReceive site plane d err => Sys2Proof.Machine.execFlitReceive site plane d err s
  | .linkRetry site plane d => Sys2Proof.Machine.execLinkRetry site plane d s
  | .packetEject plane node cls damaged => Sys2Proof.Machine.execPacketEject plane node cls damaged s
  | .multicastForward plane node port cls => Sys2Proof.Machine.execMulticastForward plane node port cls s
  | .flagSet p => Sys2Proof.Machine.execFlagSet p s
  | .flagClear p => Sys2Proof.Machine.execFlagClear p s
  | .rebind p => Sys2Proof.Machine.execRebind p s
  | .flagWait p => Sys2Proof.Machine.execFlagWait p s
  | .flagWake p ecc => Sys2Proof.Machine.execFlagWake p ecc s
  | .waitRetry c handle ecc => Sys2Proof.Machine.execWaitRetry c handle ecc s
  | .sectionDone p => Sys2Proof.Machine.execSectionDone p s
  | .sectionRelease p waitBeats => Sys2Proof.Machine.execSectionRelease p waitBeats s
  | .channelMessage p ecc => Sys2Proof.Machine.execChannelMessage p ecc s
  | .creditReturn p => Sys2Proof.Machine.execCreditReturn p s
  | .readRequest p ecc => Sys2Proof.Machine.execReadRequest p ecc s
  | .write p ecc => Sys2Proof.Machine.execWrite p ecc s
  | .writeOrdered p ecc => Sys2Proof.Machine.execWriteOrdered p ecc s
  | .syncWrite p ecc => Sys2Proof.Machine.execSyncWrite p ecc s
  | .readResponse p => Sys2Proof.Machine.execReadResponse p s
  | .ringPost p ecc => Sys2Proof.Machine.execRingPost p ecc s
  | .planWrite p => Sys2Proof.Machine.execPlanWrite p s
  | .returnPacket p ecc => Sys2Proof.Machine.execReturnPacket p ecc s
  | .contextOpen p c => Sys2Proof.Machine.execContextOpen p c s
  | .contextClose p c => Sys2Proof.Machine.execContextClose p c s
  | .doorbell h c off bytes => Sys2Proof.Machine.execDoorbell h c off bytes s
  | .descriptorFetch c bad => Sys2Proof.Machine.execDescriptorFetch c bad s
  | .loadPlan c p => Sys2Proof.Machine.execLoadPlan c p s
  | .runSection c p => Sys2Proof.Machine.execRunSection c p s
  | .copy c p ecc => Sys2Proof.Machine.execCopy c p ecc s
  | .fill c p ecc => Sys2Proof.Machine.execFill c p ecc s
  | .setFlag c p => Sys2Proof.Machine.execSetFlag c p s
  | .clearFlag c p => Sys2Proof.Machine.execClearFlag c p s
  | .waitFlag c p => Sys2Proof.Machine.execWaitFlag c p s
  | .postRing c p ecc => Sys2Proof.Machine.execPostRing c p ecc s
  | .quantise c p ecc => Sys2Proof.Machine.execQuantise c p ecc s
  | .compress c p ecc => Sys2Proof.Machine.execCompress c p ecc s
  | .fenceOrder c p => Sys2Proof.Machine.execFenceOrder c p s
  | .note c p => Sys2Proof.Machine.execNote c p s
  | .descriptorComplete c p lost => Sys2Proof.Machine.execDescriptorComplete c p lost s
  | .ringDescriptorWrite p v => Sys2Proof.Machine.execRingDescriptorWrite p v s
  | .signalRingSet r ecc => Sys2Proof.Machine.execSignalRingSet r ecc s
  | .signalRingClear r ecc => Sys2Proof.Machine.execSignalRingClear r ecc s
  | .signalRingWait r ecc => Sys2Proof.Machine.execSignalRingWait r ecc s
  | .channelShip r waitBeats ecc => Sys2Proof.Machine.execChannelShip r waitBeats ecc s
  | .flagMapEntryWrite p c v => Sys2Proof.Machine.execFlagMapEntryWrite p c v s
  | .flagMapDomainWrite p c bytes => Sys2Proof.Machine.execFlagMapDomainWrite p c bytes s
  | .waitIdleEnter site beats => Sys2Proof.Machine.execWaitIdleEnter site beats s
  | .waitIdleExit site beats => Sys2Proof.Machine.execWaitIdleExit site beats s
  | .bondMemoryRead x ecc waited => Sys2Proof.Machine.execBondMemoryRead x ecc waited s
  | .bondMemoryWrite x => Sys2Proof.Machine.execBondMemoryWrite x s
  | .bondMemoryWriteAck x => Sys2Proof.Machine.execBondMemoryWriteAck x s
  | .hbmLineReady c line err => Sys2Proof.Machine.execHbmLineReady c line err s
  | .hbmPatrol st ch err => Sys2Proof.Machine.execHbmPatrol st ch err s
  | .stackTemperature st celsius => Sys2Proof.Machine.execStackTemperature st celsius s
  | .memoryTestQuick p => Sys2Proof.Machine.execMemoryTestQuick p s
  | .memoryTestFull p => Sys2Proof.Machine.execMemoryTestFull p s
  | .memoryTestEnd findings => Sys2Proof.Machine.execMemoryTestEnd findings s
  | .xTileOrphaned x => Sys2Proof.Machine.execXTileOrphaned x s
  | .ucieLinkFailure q failedModules retries => Sys2Proof.Machine.execUcieLinkFailure q failedModules retries s
  | .lintelClockStop l excess => Sys2Proof.Machine.execLintelClockStop l excess s
  | .lintelClockReturn l => Sys2Proof.Machine.execLintelClockReturn l s
  | .lintelReset l side => Sys2Proof.Machine.execLintelReset l side s
  | .lintelReopen l => Sys2Proof.Machine.execLintelReopen l s
  | .bar4Write h off bytes poison ecc => Sys2Proof.Machine.execBar4Write h off bytes poison ecc s
  | .bar4Read h off len ecc => Sys2Proof.Machine.execBar4Read h off len ecc s
  | .hostPortSwitch p v => Sys2Proof.Machine.execHostPortSwitch p v s
  | .hostLinkDown h => Sys2Proof.Machine.execHostLinkDown h s
  | .hostLinkUp h rate width => Sys2Proof.Machine.execHostLinkUp h rate width s
  | .hostFailover downMs => Sys2Proof.Machine.execHostFailover downMs s
  | .perstN h => Sys2Proof.Machine.execPerstN h s
  | .hostWindowCompletion n ok bytes => Sys2Proof.Machine.execHostWindowCompletion n ok bytes s
  | .ethernetLinkUp e => Sys2Proof.Machine.execEthernetLinkUp e s
  | .ethernetLinkDown e => Sys2Proof.Machine.execEthernetLinkDown e s
  | .rocePacketReceive e f ecc => Sys2Proof.Machine.execRocePacketReceive e f ecc s
  | .incomingRdma q ecc => Sys2Proof.Machine.execIncomingRdma q ecc s
  | .cnpReceive q ix usSinceHalving => Sys2Proof.Machine.execCnpReceive q ix usSinceHalving s
  | .rateIncreaseTick q ix => Sys2Proof.Machine.execRateIncreaseTick q ix s
  | .queuePairRecordWrite p q bytes => Sys2Proof.Machine.execQueuePairRecordWrite p q bytes s
  | .sendProducerWrite q ix v => Sys2Proof.Machine.execSendProducerWrite q ix v s
  | .receiveProducerWrite q ix v => Sys2Proof.Machine.execReceiveProducerWrite q ix v s
  | .send q ix ecc => Sys2Proof.Machine.execSend q ix ecc s
  | .sendTensor q ix ecc => Sys2Proof.Machine.execSendTensor q ix ecc s
  | .rdmaWrite q ix ecc => Sys2Proof.Machine.execRdmaWrite q ix ecc s
  | .rdmaWriteImm q ix ecc => Sys2Proof.Machine.execRdmaWriteImm q ix ecc s
  | .rdmaRead q ix => Sys2Proof.Machine.execRdmaRead q ix s
  | .receive q ix => Sys2Proof.Machine.execReceive q ix s
  | .receiveTensor q ix => Sys2Proof.Machine.execReceiveTensor q ix s
  | .workRequestComplete q ix recv => Sys2Proof.Machine.execWorkRequestComplete q ix recv s
  | .ackTimeout q ix => Sys2Proof.Machine.execAckTimeout q ix s
  | .usdoRequest b r => Sys2Proof.Machine.execUsdoRequest b r s
  | .nmtStart node => Sys2Proof.Machine.execNmtStart node s
  | .nmtStop node => Sys2Proof.Machine.execNmtStop node s
  | .nmtResetNode node => Sys2Proof.Machine.execNmtResetNode node s
  | .nmtResetCommunication node => Sys2Proof.Machine.execNmtResetCommunication node s
  | .canBusOff b => Sys2Proof.Machine.execCanBusOff b s
  | .heartbeatTimer => Sys2Proof.Machine.execHeartbeatTimer s
  | .ptpSyncMessage port domain offset => Sys2Proof.Machine.execPtpSyncMessage port domain offset s
  | .ptpHoldover => Sys2Proof.Machine.execPtpHoldover s
  | .ppsInEdge => Sys2Proof.Machine.execPpsInEdge s
  | .ppsOutSecond => Sys2Proof.Machine.execPpsOutSecond s
  | .dict dr => Sys2Proof.Machine.execDict dr s
  | .dictWindow dr => Sys2Proof.Machine.execDictWindow dr s
  | .extest dr => Sys2Proof.Machine.execExtest dr s
  | .bypass tdi => Sys2Proof.Machine.execBypass tdi s
  | .idcode => Sys2Proof.Machine.execIdcode s
  | .samplePreload dr => Sys2Proof.Machine.execSamplePreload dr s
  | .suspicionDecay => Sys2Proof.Machine.execSuspicionDecay s
  | .clearSiteSuspicion p v => Sys2Proof.Machine.execClearSiteSuspicion p v s
  | .voteStart site => Sys2Proof.Machine.execVoteStart site s
  | .voteVerdict site outcome => Sys2Proof.Machine.execVoteVerdict site outcome s
  | .acknowledgeDecision p v => Sys2Proof.Machine.execAcknowledgeDecision p v s
  | .stewardDisagree f => Sys2Proof.Machine.execStewardDisagree f s
  | .restartSteward p v => Sys2Proof.Machine.execRestartSteward p v s
  | .stewardRestartComplete f => Sys2Proof.Machine.execStewardRestartComplete f s
  | .controllerDisagree => Sys2Proof.Machine.execControllerDisagree s
  | .controllerRestartComplete => Sys2Proof.Machine.execControllerRestartComplete s
  | .closeAllFindings p v => Sys2Proof.Machine.execCloseAllFindings p v s
  | .healthIndexRecompute => Sys2Proof.Machine.execHealthIndexRecompute s
  | .selfTestLogic p w => Sys2Proof.Machine.execSelfTestLogic p w s
  | .selfTestMemory p w => Sys2Proof.Machine.execSelfTestMemory p w s
  | .selfTestLogicMemory p w => Sys2Proof.Machine.execSelfTestLogicMemory p w s
  | .sliceStart site kind => Sys2Proof.Machine.execSliceStart site kind s
  | .sliceEnd site r => Sys2Proof.Machine.execSliceEnd site r s
  | .sliceBudgetExpire site phase => Sys2Proof.Machine.execSliceBudgetExpire site phase s
  | .sliceOverdue site kind => Sys2Proof.Machine.execSliceOverdue site kind s
  | .cancelSlices p v => Sys2Proof.Machine.execCancelSlices p v s
  | .saveAreaWrite p ix v => Sys2Proof.Machine.execSaveAreaWrite p ix v s
  | .marigoldStart p v => Sys2Proof.Machine.execMarigoldStart p v s
  | .marigoldStop p v => Sys2Proof.Machine.execMarigoldStop p v s
  | .marigoldHeatReached ix => Sys2Proof.Machine.execMarigoldHeatReached ix s
  | .marigoldHeatTimeout ix => Sys2Proof.Machine.execMarigoldHeatTimeout ix s
  | .marigoldPatternRun ix r => Sys2Proof.Machine.execMarigoldPatternRun ix r s
  | .marigoldEnd ix => Sys2Proof.Machine.execMarigoldEnd ix s
  | .calibrationSetWrite p bytes => Sys2Proof.Machine.execCalibrationSetWrite p bytes s
  | .calibrationErase p v => Sys2Proof.Machine.execCalibrationErase p v s
  | .selfCalibrationStart p v => Sys2Proof.Machine.execSelfCalibrationStart p v s
  | .selfCalibrationStop cause => Sys2Proof.Machine.execSelfCalibrationStop cause s
  | .selfCalibrationComplete sections => Sys2Proof.Machine.execSelfCalibrationComplete sections s
  | .licenceRemove p v => Sys2Proof.Machine.execLicenceRemove p v s
  | .watchdogExpiry c beats => Sys2Proof.Machine.execWatchdogExpiry c beats s
  | .capture p v => Sys2Proof.Machine.execCapture p v s
  | .dumpCaptureComplete k => Sys2Proof.Machine.execDumpCaptureComplete k s
  | .dumpFlashCopyComplete => Sys2Proof.Machine.execDumpFlashCopyComplete s
  | .emptySlot p v => Sys2Proof.Machine.execEmptySlot p v s
  | .eventLogFlush => Sys2Proof.Machine.execEventLogFlush s
  | .emcyInhibitEnd => Sys2Proof.Machine.execEmcyInhibitEnd s
  | .errorRegisterClear bitNo => Sys2Proof.Machine.execErrorRegisterClear bitNo s
  | .errorHistoryClear p v => Sys2Proof.Machine.execErrorHistoryClear p v s
  | .domainSelect p v => Sys2Proof.Machine.execDomainSelect p v s
  | .apertureWrite p off bytes => Sys2Proof.Machine.execApertureWrite p off bytes s
  | .domainCommit p len => Sys2Proof.Machine.execDomainCommit p len s
  | .snapshotLatch p idx => Sys2Proof.Machine.execSnapshotLatch p idx s
  | .snapshotExpire p => Sys2Proof.Machine.execSnapshotExpire p s
  | .restoreDefaults p v => Sys2Proof.Machine.execRestoreDefaults p v s
  | .clearArithmeticCounters p v => Sys2Proof.Machine.execClearArithmeticCounters p v s
  | .clearScratchpadCounters p v => Sys2Proof.Machine.execClearScratchpadCounters p v s
  | .clearBondCounters p v => Sys2Proof.Machine.execClearBondCounters p v s
  | .clearMortarCounters p v => Sys2Proof.Machine.execClearMortarCounters p v s
  | .clearSyncCounters p v => Sys2Proof.Machine.execClearSyncCounters p v s
  | .clearHbmCounters p v => Sys2Proof.Machine.execClearHbmCounters p v s
  | .clearPortCounters p v => Sys2Proof.Machine.execClearPortCounters p v s
  | .clearPowerCounters p v => Sys2Proof.Machine.execClearPowerCounters p v s
  | .clearVoteCounters p v => Sys2Proof.Machine.execClearVoteCounters p v s
  | .clearSelfTestCounters p v => Sys2Proof.Machine.execClearSelfTestCounters p v s
  | .registerWrite p idx sub size v => Sys2Proof.Machine.execRegisterWrite p idx sub size v s
  | .busOffRecovery b => Sys2Proof.Machine.execBusOffRecovery b s
  | .canErrorFrame b st => Sys2Proof.Machine.execCanErrorFrame b st s
  | .multicastHoldThreshold plane node port cls beats => Sys2Proof.Machine.execMulticastHoldThreshold plane node port cls beats s
  | .partitionResetComplete tookUs => Sys2Proof.Machine.execPartitionResetComplete tookUs s
  | .contextResetWaitEnd c => Sys2Proof.Machine.execContextResetWaitEnd c s

end Sys2Proof.Machine
end

