-- ==== Sys2Proof/Machine/Step.lean ====
section
/-! DEFINITION. One step of the block, and the host's way to put a table word in front of the queue. -/

namespace Sys2Proof.Machine

open Sys2Proof

/-- An idle step: nothing waits, and one nanosecond of device time passes (DESIGN CHOICE, notes/assumptions/5.md). -/
def idleStep (s : State) : State := tick.run s

/-- Takes the command at the front of the queue and runs it on the state with the queue's rest; idles on an empty
queue. -/
def step (s : State) : Host.Outcome State Fault Refusal :=
  match s.pending with
  | [] => .next (idleStep s)
  | c :: rest => exec c { s with pending := rest }

/-- `s` with the command that a table word spells at the front of its queue; `s` itself when the word spells none.
(DESIGN CHOICE: notes/assumptions/31.md.) -/
def State.withFetchWord (s : State) (nbits w : Nat) : State :=
  match decodeTableWord nbits w with
  | some c => { s with pending := c :: s.pending }
  | none => s

end Sys2Proof.Machine
end

