-- ==== Sys2Proof/Safety.lean ====
section
/-! DEFINITION. What counts as a sound state and a safe step of the block, and what a report and an answer may write, in
the terms the claims use. -/

namespace Sys2Proof.Machine

open Sys2Proof

/-- The bounds that the manual puts on the device's lists: the event log (R450), the error history (R472), the result
log (R415), the marginal findings (R397) and the health record (R49); and the model's own bound on its oscillator
count. -/
structure State.Bounded (s : State) : Prop where
  log : s.log.length ≤ 65536
  history : s.errorHistory.length ≤ 16
  results : s.resultLog.length ≤ 1024
  findings : s.findings.length ≤ 256
  health : s.health.length ≤ 256
  oscillator : s.oscillator < 5000

/-- Memory and every table are in canonical form, so equal contents are equal data. -/
structure State.Canonical (s : State) : Prop where
  mem : Memory.wf s.mem
  regs : Tab.Canon regDefault s.regs
  selectors : Tab.Canon (fun _ => 0) s.selectors
  tags : Tab.Canon (fun _ => 0) s.tags
  poisonLines : Tab.Canon (fun _ => false) s.poisonLines
  poisonWords : Tab.Canon (fun _ => false) s.poisonWords
  acc : Tab.Canon (fun _ => {}) s.acc
  vreg : Tab.Canon (fun _ => {}) s.vreg
  dieModules : Tab.Canon (fun _ => 0) s.dieModules
  microcode : Tab.Canon (fun _ => {}) s.microcode
  arbs : Tab.Canon (fun _ => 0) s.arbs
  slotFixes : Tab.Canon (fun _ => 0) s.slotFixes
  maskDrops : Tab.Canon (fun _ => 0) s.maskDrops
  mtiles : Tab.Canon (fun _ => {}) s.mtiles
  stiles : Tab.Canon (fun _ => {}) s.stiles
  ftiles : Tab.Canon (fun _ => {}) s.ftiles
  bond : Tab.Canon (fun _ => {}) s.bond
  running : Tab.Canon (fun _ => none) s.running
  plans : Tab.Canon (fun _ => none) s.plans
  ctxs : Tab.Canon (fun _ => {}) s.ctxs
  snaps : Tab.Canon (fun _ => none) s.snaps
  cells : Tab.Canon (fun _ => {}) s.cells
  waiters : Tab.Canon (fun _ => []) s.waiters
  fmap : Tab.Canon (fun _ => 0) s.fmap
  rings : Tab.Canon (fun _ => {}) s.rings
  idle : Tab.Canon (fun _ => 0) s.idle
  offerHold : Tab.Canon (fun _ => false) s.offerHold
  net : Tab.Canon (fun _ => []) s.net
  claims : Tab.Canon (fun _ => 0) s.claims
  links : Tab.Canon (fun _ => {}) s.links
  routeState : Tab.Canon (fun _ => 0) s.routeState
  fencedAs : Tab.Canon (fun _ => 0) s.fencedAs
  hbm : Tab.Canon (fun _ => {}) s.hbm
  xtiles : Tab.Canon (fun _ => {}) s.xtiles
  pairs : Tab.Canon (fun _ => {}) s.pairs
  lintels : Tab.Canon (fun _ => {}) s.lintels
  islands : Tab.Canon (fun _ => {}) s.islands
  limits : Tab.Canon (fun _ => 0) s.limits
  candidates : Tab.Canon (fun _ => false) s.candidates
  sliceTimes : Tab.Canon (fun _ => 0) s.sliceTimes
  marigold : Tab.Canon (fun _ => none) s.marigold
  can : Tab.Canon (fun _ => {}) s.can
  windows : Tab.Canon (fun _ => {}) s.windows
  dictSnaps : Tab.Canon (fun _ => none) s.dictSnaps

/-- `s` with what a report can write taken from `t`: the scalars that count messages and the error register, the log's
queue, the held events, the messages sent, and the once-per-section and once-per-period marks. -/
def State.reported (s t : State) : State := { s with
  regs := t.regs, raised := t.raised, heldEvents := t.heldEvents, out := t.out, errorHistory := t.errorHistory,
  emcyBusy := t.emcyBusy, msixWaiting := t.msixWaiting, onceUsed := t.onceUsed, limits := t.limits }

/-- `s` with what the acceptance of a dictionary write can write besides the object's own effect taken from `t`: the
answer to the path and the snapshots that the write ends. -/
def State.answered (s t : State) : State := { s with
  out := t.out, windows := t.windows, dr := t.dr, dictSnaps := t.dictSnaps }

/-- The keys of the scalars that a report can write: the error register (R470), the withheld messages (R471) and the
MSI-X count (R323). -/
def reportKeys : List Nat := [rk 0x1001 0x00, rk 0x2E31 0x03, rk 0x2E10 0x08]

/-- Every scalar but those of the keys in `ks` and those that a report can write reads in `t` as in `s`. -/
def State.scalarsBut (ks : List Nat) (s t : State) : Prop := ∀ k, k ∉ ks → k ∉ reportKeys → t.regAt k = s.regAt k

/-- Descriptor `d`, number `p`, is the last that a running context has fetched and nothing keeps it from starting (R257):
every earlier active descriptor has started or ended, none of them is a WAIT_FLAG or FENCE_ORDER, and there is none before
a descriptor that waits for all earlier ones. -/
structure State.Startable (s : State) (c p op : Nat) (before : List ActiveDesc) (d : ActiveDesc) : Prop where
  runs : s.ctxRuns c = true
  engine : s.engineUp c = true
  active : (s.ctx c).active = before ++ [d]
  num : d.num = p
  op : dOp d = op
  fresh : d.started = false ∧ d.status = none
  sound : dMalformed d = false
  earlier : ∀ e ∈ before, e.num ≠ p ∧ (e.started = true ∨ e.status.isSome = true) ∧ dOp e ≠ 0x07 ∧ dOp e ≠ 0x0B
  barrier : dBarrier d = true → before = []

/-- The context's own state once descriptor `d` has started, and has ended with `status` if it has. -/
def CtxCore.began (x : CtxCore) (before : List ActiveDesc) (d : ActiveDesc) (now : Nat) (status : Option Nat) : CtxCore :=
  { x with active := before ++ [{ d with started := true, startTime := now, status := status }] }

/-- No write of context `c`'s map by path `p` waits to answer with an abort (R276, R283). -/
def State.noAborts (s : State) (p : Path) (c : Nat) : Prop := ∀ w ∈ s.entryWaits, w.1 = p → w.2.1 = c → w.2.2.1 < 4096

/-- No context's section switch is under way, and no RUN_SECTION waits for its section's end. -/
def State.noSections (s : State) : Prop := ∀ c, (s.ctx c).switch = none ∧ (s.ctx c).runDesc = none

/-- Only context `c`'s own state differs among the contexts. -/
def State.ctxsBut (s t : State) (c : Nat) : Prop := ∀ c', c' ≠ c → t.ctx c' = s.ctx c'

/-- A ring whose engine has consumed a message of `n` slots at its head (R269). -/
def Ring.consumed (x : Ring) (n : Nat) : Ring := { x with
  head := (x.head + 64 * n) % rdSize x.desc, tail := (x.head + 64 * n) % rdSize x.desc,
  placed := (x.placed + 1) % 2 ^ 24, messages := satAdd 64 x.messages 1 }

/-- Packet `p`, next at its endpoint, brings a message for ring `r` of kind `kind` of the S-tile there, whose engine can begin
to write it: the checks of R270 hold. -/
structure State.BringsMessage (s : State) (p : Packet) (r kind : Nat) : Prop where
  next : s.isNext p = true
  ring : bits p.operand 13 0 = r ∧ r < 12288
  tile : ∃ l, s.tileOf p.dst = some l ∧ tileType l = 1 ∧ ringTile r = sIndex l ∧ s.sSite (ringTile r) = some p.dst
  enabled : rdEnabled (s.ring r).desc = true ∧ rdKind (s.ring r).desc = kind ∧ rdCtx (s.ring r).desc = p.ctx
  partner : kind = 2 → s.sSite (ringTile (rdPartner (s.ring r).desc)) = some p.src
  fits : p.len + 72 ≤ rdSize (s.ring r).desc ∧ p.payload.length = p.len
  free : s.ringEngineFree (ringTile r) = true

/-- The header word and the payload of a message that a packet brings (R172). -/
def messageBytes (p : Packet) : List Byte :=
  toBytes 8 (messageHeader p.src p.ctx (bits p.operand 23 16) p.len) ++ p.payload

/-- The ring engine's write of slot `k` for the message of packet `p`. -/
def ringWriter (p : Packet) (k : Nat) : Requester := .ringEngine { aliased := false, off := 64 * k, len := 64, ctx := Fin.ofNat 64 p.ctx }

/-- The beat and split counters of sites `ns`, by key (Table 06-8). -/
def beatKeys (ns : List Nat) : List Nat := ns.flatMap fun n => [rk (0x3000 + n) 0x51, rk (0x3000 + n) 0x52, rk (0x3000 + n) 0x57]

/-- Only the slots `ks` of S-tile `k`, and the status slot of its ring `r`, differ in memory and in their tags. -/
def State.slotsBut (s t : State) (k r : Nat) (ks : List Nat) : Prop :=
  (∀ b, (∀ j ∈ rdStatus (s.ring r).desc :: ks, ∀ w ∈ slotWords j, b < wordAddr k w ∨ wordAddr k w + 8 ≤ b) → readByte t.mem b = readByte s.mem b) ∧
  ∀ i, (∀ j ∈ rdStatus (s.ring r).desc :: ks, i ≠ k * 65536 + j) → t.tagAt i = s.tagAt i

/-- The message of packet `p` stands in slots `run` at the tail of ring `r`, full or poisoned, and the tail, the placed count
and the message count have moved on; no other slot but the status slot has changed (R172, R173). -/
def State.placedMessage (s t : State) (p : Packet) (r : Nat) (run : List Nat) : Prop :=
  t.ring r = { s.ring r with tail := ((s.ring r).tail + 64 * messageSlots p.len) % rdSize (s.ring r).desc, placed := ((s.ring r).placed + 1) % 2 ^ 24, messages := satAdd 64 (s.ring r).messages 1 } ∧
  (∀ r', r' ≠ r → t.ring r' = s.ring r') ∧
  (∀ k ∈ run, t.slotTag (ringTile r) k = if p.poison then 2 else 1) ∧
  (t.wordBytes (ringTile r) (run.flatMap slotWords)).take (8 + p.len) = messageBytes p ∧ s.slotsBut t (ringTile r) r run

/-- The ring engine at site `n` has taken the message of length `l` at the head of ring `r`: its slots are empty, and only this
ring's state, those slots' tags, the status slot, the packets to be issued and the beat counters of the site may differ (R269). -/
def State.headTaken (s t : State) (r n l : Nat) : Prop :=
  (∀ k ∈ s.headRun r l, t.slotTag (ringTile r) k = 0) ∧ (∀ r', r' ≠ r → t.ring r' = s.ring r') ∧
  s.slotsBut t (ringTile r) r (s.headRun r l) ∧
  t = { s with rings := t.rings, tags := t.tags, mem := t.mem, stiles := t.stiles, issue := t.issue, regs := t.regs } ∧
  ∀ x, x ∉ beatKeys [n] → t.regAt x = s.regAt x

/-- The slots `ks` of ring `r` lie in groups of the wide port of site `n`, and in no other ring of their tile: the ring engine takes
them at once, and no other ring's head moves (R161, R269). -/
def State.takesWide (s : State) (r n : Nat) (ks : List Nat) : Prop :=
  ∀ k ∈ ks, s.isWide n (8 * k) = true ∧ ∀ x ∈ s.tileRings (ringTile r), x.1 ≠ r → slotInRing x.2.desc k = false

/-- What no reset changes in `s`: the log, the licence, the firmware copies, the dump in flash and the fuses (R444). -/
def State.keptByResets (s t : State) : Prop :=
  t.log = s.log ∧ t.licence = s.licence ∧ t.firmware = s.firmware ∧ t.dumpFlash = s.dumpFlash ∧ t.fuseSites = s.fuseSites ∧
    t.fuseSerial = s.fuseSerial ∧ t.pending = s.pending

/-- A partition reset of regions `mask` for a broken structure has run to its rebuild: object 0x2F10 names it, and the
contexts that hold one of the regions do not run and have no map entry (R385, R454). -/
def State.partitionStopped (s t : State) (mask structure_ : Nat) : Prop :=
  t.partResets = [partResetKey mask structure_ false] ∧ t.reg 0x2F10 0x04 = 3 ∧ t.reg 0x2F10 0x05 = 4 ∧
    ∀ c : Ctx, s.ctxRuns c = true → (s.partMask c &&& mask) ≠ 0 →
      t.ctxState c = 2 ∧ ∀ i, i < 4096 → t.entryAt (c * 4096 + i) = 0

/-- No reset runs or waits and no fence is in progress. -/
def State.quiet (s : State) : Prop :=
  s.reset_ = none ∧ s.resetWaiting = none ∧ s.partResets = [] ∧ s.fence = none

/-- A function record of opcode `op` is next at site `n` in context `c`, its operand A (from a register or from Bond) is
`a`, and its output goes to a register of the file or to a Bond port. -/
structure State.LaneRun (s : State) (n op c : Nat) (ws : List Nat) (a : List FWord) : Prop where
  next : s.laneRecord n op = some (c, ws)
  some_ : frLen ws ≠ 0
  operand : ∃ u m1 m2, s.operandA n ws [] = some (a, u, m1, m2)
  length : a.length = frTakes ws
  ports : frOut ws = 4 ∨ frOutPort ws < (s.bondOf n).engineOut.length

/-- The record's result is `regs` in the register file or `bond` on its Bond port; the site moves to its next record, and
when no operand of `all` is poisoned only counters, reports, the register file, the tile and its Bond state change. -/
def State.laneResult (s t : State) (n : Nat) (ws : List Nat) (regs : List FWord) (bond : List Transfer) (all : List FWord) : Prop :=
  (frOut ws = 4 → (∀ e, e < regs.length → t.vregAt (vkey n (frD ws) e) = regs.getD e {}) ∧
    ∀ k, (∀ e, e < regs.length → k ≠ vkey n (frD ws) e) → t.vregAt k = s.vregAt k) ∧
  (frOut ws ≠ 4 → (t.bondOf n).engineOut.getD (frOutPort ws) [] = bond ∧ t.vreg = s.vreg) ∧
  t.ftile n = { s.ftile n with recIx := (s.ftile n).recIx + 1 } ∧ (∀ m, m ≠ n → t.ftile m = s.ftile m) ∧
  t.mem = s.mem ∧ ((∀ w ∈ all, w.poison = false) →
    t = { s.reported t with vreg := t.vreg, ftiles := t.ftiles, bond := t.bond })

/-- Element `e` of site `n`, of kind `kind`, stands as `x` in a section that is not done, with its four inputs and four
outputs. -/
structure State.Steers (s : State) (n e kind : Nat) (w : Elem) (x : ElemState) : Prop where
  section_ : ∃ c p u2, s.takesBond n = some (c, p, u2) ∧ p.elems[e]? = some w
  kind_ : w.kind = kind
  ways : w.ways ≤ 4
  stands : (s.bondOf n).elems.getD e {} = x
  size : e < (s.bondOf n).elems.length ∧ x.ins.length = 4 ∧ x.outs.length = 4

/-- Element `e` of site `n` has become `y`, and no other Bond state has changed. -/
def State.steered (s t : State) (n e : Nat) (y : ElemState) : Prop :=
  t.bondOf n = { s.bondOf n with elems := (s.bondOf n).elems.set e y } ∧ ∀ m, m ≠ n → t.bondOf m = s.bondOf m

/-- An element once it has put `out` on output `o` and taken the first transfer of input `i`, under a token of a group of
`g` whose followers are `ks` (R199). -/
def ElemState.moved (x : ElemState) (i o g : Nat) (out : Option Transfer) (ks : List Transfer) : ElemState := { x with
  ins := x.ins.set i ((x.ins.getD i []).drop 1), outs := if out.isSome then x.outs.set o out else x.outs,
  governed := if x.governed + 1 < g then x.governed + 1 else 0, ctl := if x.governed + 1 < g then x.ctl else ks }

/-- A tile's Bond state once a transfer has entered the stage of link `d` under the schedule of that link (R203). -/
def BondTile.onLink (b : BondTile) (p : TilePlan) (d : Nat) (t : Transfer) : BondTile :=
  let es := p.sched.filter fun e => decide (e.link = d)
  let b := { b with stages := b.stages.set d (some t) }
  match es[b.schedIx.getD d 0]? with
  | none => b
  | some e =>
    if b.schedSent.getD d 0 + 1 < e.run then { b with schedSent := b.schedSent.set d (b.schedSent.getD d 0 + 1) }
    else { b with schedSent := b.schedSent.set d 0, schedIx := b.schedIx.set d ((b.schedIx.getD d 0 + 1) % es.length) }

/-- A tile's Bond state once transfer `t` has entered the destination of route `r` (R193). -/
def BondTile.entered (b : BondTile) (p : TilePlan) (r : Route) (t : Transfer) : BondTile :=
  let x := b.elems.getD r.dstNum {}
  if r.dstKind < 4 then b.onLink p r.dstKind { t with chan := r.dstNum }
  else match r.dstKind with
    | 4 => { b with engineIn := b.engineIn.set r.dstNum (b.engineIn.getD r.dstNum [] ++ [t]) }
    | 5 => { b with elems := b.elems.set r.dstNum { x with ins := x.ins.set r.dstIn (x.ins.getD r.dstIn [] ++ [t]) } }
    | _ => { b with elems := b.elems.set r.dstNum { x with ctl := x.ctl ++ [t] } }

/-- The same once it has taken a place at route `ri`: 1 the destination, 2 the queue, 3 the spill ring (R197, R208). -/
def BondTile.took (b : BondTile) (p : TilePlan) (place ri : Nat) (r : Route) (t : Transfer) : BondTile :=
  match place with
  | 1 => b.entered p r t
  | 2 => { b with queues := b.queues.set ri (b.queues.getD ri [] ++ [t]) }
  | _ => { b with spilled := b.spilled.set ri (b.spilled.getD ri 0 + 1) }

/-- Route `ri` of site `n` has a place for a transfer: `place`, and `dst` serves its spill ring. -/
def State.hasPlace (s : State) (n : Nat) (p : TilePlan) (u2 : Bool) (ri : Nat) (r : Route) (place dst : Nat) : Prop :=
  s.routePlace n p u2 ri r = place ∧ place ≠ 0 ∧ (place = 3 → s.sSite (ringTile r.ring) = some dst)

/-- A transfer of context `c` that took place `place` of a route of site `n` left for the spill ring where that is its place, and
its post counts (R208). -/
def State.spilt (s t : State) (n c place dst : Nat) (r : Route) (u : Transfer) : Prop :=
  t.issue = s.issue ++ (if place = 3 then [{ packet := spillPacket n dst c r.ring u }] else []) ∧
  t.reg (0x3000 + n) 0x76 = (if place = 3 then satAdd 64 (s.reg (0x3000 + n) 0x76) 1 else s.reg (0x3000 + n) 0x76)

/-- Counter `f` of site `n`, of 64 bits, has risen by `k`, saturating. -/
def State.rose (s t : State) (n f k : Nat) : Prop :=
  t.reg (0x3000 + n) f = if k = 0 then s.reg (0x3000 + n) f else satAdd 64 (s.reg (0x3000 + n) f) k

/-- Transfer `u` waits in the outbound stage `e` of site `m`, whose direction has not stopped (R192). -/
def State.staged (s : State) (m e : Nat) (u : Transfer) : Prop :=
  (s.bondOf m).stopped.getD e false = false ∧ (s.bondOf m).stages.getD e none = some u

/-- The transfer in the outbound stage `e` of site `m` has left, and had been held there for `held` beats (R205). -/
def State.leftStage (s t : State) (m e held : Nat) : Prop :=
  t.bondOf m = { s.bondOf m with stages := (s.bondOf m).stages.set e none } ∧ s.rose t m 0x74 1 ∧ s.rose t m 0x73 held

/-- A transfer once it has passed a link whose code found `err` there (R192). -/
def Transfer.after (err : LinkError) (u : Transfer) : Transfer := if err = .data then { u with poison := true } else u

/-- Site `m` counts what the code of a link found on a transfer that passed (R192). -/
def State.coded (s t : State) (m : Nat) (err : LinkError) : Prop :=
  t.reg (0x3000 + m) 0x77 = (if err = .corrected then satAdd 32 (s.reg (0x3000 + m) 0x77) 1 else s.reg (0x3000 + m) 0x77) ∧
  t.reg (0x3000 + m) 0x78 = (if err = .data then satAdd 32 (s.reg (0x3000 + m) 0x78) 1 else s.reg (0x3000 + m) 0x78)

/-- A hop changes Bond state, queues of X-tiles, packets to be issued, the Bond counters of sites `ns` and, for an uncorrectable word,
what its report writes; nothing else (R190, R192). -/
def State.hopped (s t : State) (ns : List Nat) (err : LinkError) : Prop :=
  t = { (if err = .data then s.reported t else s) with regs := t.regs, bond := t.bond, xtiles := t.xtiles, issue := t.issue } ∧
  ∀ k, (∀ n ∈ ns, ∀ f, 0x72 ≤ f → f ≤ 0x78 → k ≠ rk (0x3000 + n) f) → (err = .data → k ∉ reportKeys) → t.regAt k = s.regAt k

/-- The stage of site `m` is that from which a transfer reaches site `n` by its link `d`: its logical neighbour's, that of the nearest
site in bypass on the way, or that of the last site in bypass before its X-tile (R38, R295). -/
def State.linkFrom (s : State) (n d m : Nat) : Prop :=
  (∃ path m0, s.linkPath n d = some (path, m0) ∧ m = path.headD m0 ∧ s.deadBetween n m = false) ∨
  ∃ l x, s.tileOf n = some l ∧ logicalNeighbour l d = none ∧ xOfTile l d = some x ∧ s.deadBetween n (xSite x) = false ∧ (s.xPath x n).getLast? = some m

/-- The stage of site `m` is that from which a transfer enters the stage of site `b` in bypass from side `d` (R38, R295). -/
def State.bypassFrom (s : State) (b d m : Nat) : Prop :=
  (s.xThrough b d = none ∧ (d = 1 ∨ d = 3) ∧ ∃ n path m0, s.bypassFor b d = some n ∧ s.linkPath n d = some (path, m0) ∧
    m = ((path.dropWhile fun x => decide (x ≠ b)).drop 1).headD m0 ∧ s.deadBetween n m = false) ∨
  ∃ x n, s.xThrough b d = some (x, n) ∧ s.deadBetween n (xSite x) = false ∧
    if xPort x = d then ((s.xPath x n).takeWhile fun y => decide (y ≠ b)).getLast? = some m
    else m = ((s.xPath x n).reverse.takeWhile fun y => decide (y ≠ b)).getLastD n

/-- A site in bypass holds nothing in its stage `e` and passes traffic there. -/
def State.bypassOpen (s : State) (b e : Nat) : Prop :=
  s.isBypass b = true ∧ (s.bondOf b).stages.getD e none = none ∧ (s.bondOf b).stopped.getD e false = false

/-- Only the Bond state of sites `ns` may differ. -/
def State.bondBut (s t : State) (ns : List Nat) : Prop := ∀ j, j ∉ ns → t.bondOf j = s.bondOf j

/-- The bytes `bs` stand in memory from address `a` on, and every other byte is as before. -/
def State.wrote (s t : State) (a : Nat) (bs : List Byte) : Prop :=
  t.bytesAt a bs.length = bs ∧ ∀ b, b < a ∨ a + bs.length ≤ b → readByte t.mem b = readByte s.mem b

/-- The bytes `bs` stand in words `ws` of S-tile `k`, and every other byte of memory is as before. -/
def State.wroteWords (s t : State) (k : Nat) (ws : List Nat) (bs : List Byte) : Prop :=
  t.wordBytes k ws = bs ∧
    ∀ b, (∀ w ∈ ws, b < wordAddr k w ∨ wordAddr k w + 8 ≤ b) → readByte t.mem b = readByte s.mem b

/-- Packet `p` is the next at its endpoint, which can take it now. -/
def State.atEndpoint (s : State) (p : Packet) : Prop :=
  s.isNext p = true ∧ s.endpointOpen p.dst = true ∧ s.ingressReady p = true

/-- Packet `p` asks for `n` bytes of the scratchpad of its S-tile `k`, which decode to words `ws` outside every save
area. -/
def State.reaches (s : State) (p : Packet) (n k : Nat) (ws : List Nat) : Prop :=
  ∃ l off al, s.tileOf p.dst = some l ∧ p.dst < 3264 ∧ tileType l = 1 ∧ k = sIndex l ∧
    placeOf (packetAddr p) = .scratch k off al ∧ s.decode k al off n = some ws ∧ ∀ w ∈ ws, s.savedWord k w = none

/-- Context `c` may read, or write, the words of HBM from `a` to `a + n`, and no line there is retired. -/
def State.hbmFree (s : State) (c : Nat) (write : Bool) (a n : Nat) : Prop :=
  a + n ≤ hbmEnd ∧ (∀ b, b % 8 = 0 → a < b + 8 → b < a + n → s.wordFault c write (some (.hbm b)) = none) ∧
    ∀ l ∈ linesOf a n, s.retiredLine l = false

/-- A conversion's descriptor can run: its format words and addresses are sound, its source is read as `vs` with no
poison, it takes no existing mask, and its outputs `xs` lie in HBM that the context may write. -/
structure Conversion.Runs (x : Conversion) (s : State) (c p : Nat) (vs : List (List Byte × Bool)) (xs : List Piece) : Prop where
  sound : x.failed (queueEndpoint c) = none ∧ x.count ≠ 0 ∧ x.vb ≠ 0 ∧ x.misaligned = false ∧ x.maskBytes = 0
  source : s.hbmFree c false x.src x.sourceBytes
  reads : vs = s.readWords [] (dOrigin c p) (s.wordsOf x.src x.sourceBytes) ∧ ∀ v ∈ vs, v.2 = false
  outputs : xs = x.writes s (x.output (x.input (s.reg 0x2C03 0x01) vs []))
  places : ∀ y ∈ xs, (∀ w ∈ y.words, ∃ a, w = some (.hbm a)) ∧ s.firstFault c true y.words = none

/-- A conversion has run: only its outputs' words of memory may differ, and an output of one piece stands there. -/
def State.converted (s t : State) (xs : List Piece) : Prop :=
  (∀ b, (∀ y ∈ xs, ∀ a, some (WordAt.hbm a) ∈ y.words → b < a ∨ a + 8 ≤ b) → readByte t.mem b = readByte s.mem b) ∧
    (∀ y a, xs = [y] → y.words.head? = some (some (.hbm a)) → s.retiredLine (a / 64) = false →
      t.bytesAt a y.bytes.length = y.bytes) ∧
    t = { s.reported t with mem := t.mem, poisonLines := t.poisonLines, retiredDrops := t.retiredDrops, ctxs := t.ctxs }

/-- The next send request of queue pair `n`, posted and not taken, is `ws`: its pair is ready, its opcode is `op`, no
check refuses it, and its port is up. -/
structure State.SendsNext (s : State) (n op : Nat) (ws : List Nat) : Prop where
  die : s.dieUp (n / 256) = true ∧ s.lintelOpen (128 + n / 256) = true
  ready : (s.pair n).state = 1 ∧ (s.pair n).sendCons ≠ (s.pair n).sendProd
  words : s.requestWords n ((s.pair n).sendCons % 64 * 64) = ws ∧ s.requestBad n ((s.pair n).sendCons % 64 * 64) = false
  op_ : wrOp ws = op
  sound : wrReserved false ws = false ∧ wrLen ws ≠ 0
  port : s.reg (0x2E20 + pairPort n (s.pair n)) 0x01 = 1

/-- Queue pair `n` has taken request `ws` and sent message `op` for it, and nothing else has changed but counters and
what reads of the host window had brought. -/
def State.sent (s t : State) (n : Nat) (ws : List Nat) (op : RoceOp) : Prop :=
  t.pair n = { s.pair n with
    sendCons := ((s.pair n).sendCons + 1) % 2 ^ 32, psn := ((s.pair n).psn + (s.pair n).span op) % 2 ^ 24
    sends := (s.pair n).sends ++ [{ words := ws, op := some op, psn := (s.pair n).psn }] } ∧
  (∀ m, m ≠ n → t.pair m = s.pair m) ∧ t.out = s.out ++ [.roce n op (s.pair n).psn] ∧
  t = { s with pairs := t.pairs, out := t.out, regs := t.regs, hostData := t.hostData }

/-- The next receive request of queue pair `n` is `ws`, of opcode `op`, and no check refuses it. -/
structure State.ReceivesNext (s : State) (n op : Nat) (ws : List Nat) : Prop where
  die : s.dieUp (n / 256) = true
  ready : (s.pair n).state = 1 ∧ (s.pair n).recvCons ≠ (s.pair n).recvProd
  words : s.requestWords n (0x1000 + (s.pair n).recvCons % 64 * 64) = ws ∧
    s.requestBad n (0x1000 + (s.pair n).recvCons % 64 * 64) = false
  op_ : wrOp ws = op
  sound : wrReserved true ws = false ∧ wrLen ws ≠ 0

/-- Queue pair `n` may read, or write, `len` bytes of HBM from `a`, and no line there is poisoned or retired or must wait. -/
def State.localHbm (s : State) (n : Nat) (write : Bool) (a len : Nat) : Prop :=
  s.rangesWait [(a, len)] = false ∧ a + len ≤ hbmEnd ∧ s.rangeFault (s.pair n).owner write a len = none ∧ s.rangeBad a len = false

/-- Only queue pair `n` differs among the pairs, and it is now `x`. -/
def State.pairIs (s t : State) (n : Nat) (x : Pair) : Prop := t.pair n = x ∧ ∀ m, m ≠ n → t.pair m = s.pair m

/-- The lanes of `a`, each put through `f` with its number. -/
def lanesOf (a : List FWord) (f : Nat → FWord → FWord) : List FWord :=
  (List.range a.length).map fun e => f e (a.getD e {})

/-- A step is safe when it answers with a next state. -/
def SafeStep (s : State) : Prop := ∃ t, step s = .next t

end Sys2Proof.Machine
end

