-- ==== Sys2Proof/Certificates/Slice0/Obligations.lean ====
section
/-! DEFINITION. The statements for the provers. A premise `s.Canonical` is the model's own invariant, stated by
InvariantsAtReset and StepKeepsCanonical. -/

open Sys2Proof Sys2Proof.Machine

/-- A step runs the command at the front of the queue with the queue's rest (95_what_each_step_holds.md). -/
def Obligations.StepRunsFront : Prop :=
  ∀ (c : Instr) (rest : List Instr) (s : State), s.pending = c :: rest → step s = exec c { s with pending := rest }

/-- Every command answers a next state, leaves the queue alone and never changes a fuse (95_what_each_step_holds.md). -/
def Obligations.EveryCommandCompletes : Prop :=
  ∀ (c : Instr) (s : State), ∃ t, exec c s = .next t ∧ t.pending = s.pending ∧
    t.fuseSerial = s.fuseSerial ∧ t.fuseSites = s.fuseSites ∧ t.fuseDies = s.fuseDies ∧ t.fuseMacs = s.fuseMacs

/-- Every step keeps memory and every table in canonical form (R147, R308). -/
def Obligations.StepKeepsCanonical : Prop :=
  ∀ s t : State, s.Canonical → step s = .next t → t.Canonical

/-- Right after reset memory and every table are canonical and the device's lists are within their bounds (R49, R147, R308, R397, R415, R450, R472). -/
def Obligations.InvariantsAtReset : Prop :=
  State.reset.Canonical ∧ State.reset.Bounded

/-- Every step keeps the log, the error history, the result log, the findings and the health record within their bounds (R49, R397, R415, R450, R472). -/
def Obligations.StepKeepsBounded : Prop :=
  ∀ s t : State, s.Bounded → step s = .next t → t.Bounded

/-- What reset leaves: step 1 of bring-up, a timebase at 0, every scalar at its default, nothing in any memory (R343, R421, R422, R458). -/
def Obligations.ResetLeaves : Prop :=
  State.reset.reg 0x20F0 0x01 = 1 ∧ State.reset.reg 0x2E40 0x01 = 0 ∧ (∀ k, State.reset.regAt k = regDefault k) ∧
    State.reset.auxOk = true ∧ State.reset.mainOn = false ∧ State.reset.booted = false ∧ State.reset.nmt = .initialising ∧
    (∃ r, State.reset.reset_ = some r ∧ r.width = 6) ∧ State.reset.pending = [] ∧ ∀ a, readByte State.reset.mem a = 0

/-- A bus goes bus-off and recovers, an error frame sets its state, and the NMT commands and the heartbeat (R340, R342, R462). -/
def Obligations.CanBusesAndNmt : Prop :=
  (∀ (s : State) (b : Bus), s.Canonical →
      (s.busUp b = true → s.reg 0x2E30 (0x02 + b) ≠ 2 →
        (∃ t, exec (.canBusOff b) s = .next t ∧ t.reg 0x2E30 (0x02 + b) = 2 ∧ t = s.reported t ∧
          s.scalarsBut [rk 0x2E30 (0x02 + b)] t) ∧
        ∀ e : CanErr, ∃ t, exec (.canErrorFrame b e) s = .next t ∧
          t.reg 0x2E30 (0x02 + b) = (if 255 < e.transmit then 2 else if 127 < e.transmit ∨ 127 < e.receive then 1 else 0) ∧
          t.reg 0x2E30 0x04 = satAdd 32 (s.reg 0x2E30 0x04) 1 ∧ t.canOf b = ⟨e.transmit, e.receive⟩ ∧
          (∀ b', b' ≠ b.val → t.canOf b' = s.canOf b') ∧
          t = { s.reported t with can := t.can } ∧ s.scalarsBut [rk 0x2E30 (0x02 + b), rk 0x2E30 0x04] t) ∧
      (s.reg 0x2E30 (0x02 + b) = 2 → ∃ t, exec (.busOffRecovery b) s = .next t ∧ t.reg 0x2E30 (0x02 + b) = 0 ∧
        t.canOf b = {} ∧ t = { s with regs := t.regs, can := t.can } ∧
        (∀ k, k ≠ rk 0x2E30 (0x02 + b) → t.regAt k = s.regAt k) ∧ ∀ b', b' ≠ b.val → t.canOf b' = s.canOf b')) ∧
  (∀ (s : State) (node : Nat),
      (s.nmtTaken node = true →
        (s.ready = true → ∃ t, exec (.nmtStart node) s = .next t ∧ t = { s with nmt := .operational }) ∧
        (s.ready = false → ∃ t, exec (.nmtStart node) s = .next t ∧ t = s) ∧
        (∃ t, exec (.nmtStop node) s = .next t ∧ t = { s with nmt := .stopped }) ∧
        (∃ t, exec (.nmtResetNode node) s = .next t ∧ t = { s with nmt := .preOperational, nodeId := s.reg 0x2E30 0x01, emcyBusy := false, emcyResetOwed := false, out := s.out ++ [.nmtBoot] }) ∧
        (∃ t, exec (.nmtResetCommunication node) s = .next t ∧ t = { s with nmt := .preOperational, nodeId := s.reg 0x2E30 0x01, emcyBusy := false, emcyResetOwed := false, out := s.out ++ [.nmtBoot] })) ∧
      (s.booted = true → s.reg 0x1017 0x00 ≠ 0 → (∀ b : Bus, s.busUp b = true ∧ s.reg 0x2E30 (0x02 + b) ≠ 2) →
        ∃ t, exec .heartbeatTimer s = .next t ∧
          t = { s with out := s.out ++ [.heartbeat 0 (nmtCode s.nmt), .heartbeat 1 (nmtCode s.nmt)] }))

/-- An idle step lets one nanosecond pass (the model's choice, notes/assumptions/5.md); a sync message, holdover and the PPS edges (R343, R344, R345). -/
def Obligations.TimebaseCountsAndIsDisciplined : Prop :=
  (∀ s : State, s.Canonical → s.pending = [] → s.slew = 0 →
      ∃ t, step s = .next t ∧ t.reg 0x2E40 0x01 = (s.reg 0x2E40 0x01 + 1) % 2 ^ 64 ∧
        (∀ k, k ≠ rk 0x2E40 0x01 → t.regAt k = s.regAt k) ∧ t = { s with regs := t.regs, oscillator := t.oscillator }) ∧
  (∀ s : State, s.Canonical →
      (∀ (port : EthPort) (domain : Nat) (offset : Int), s.timebaseUp = true → s.dieUp (port / 4) = true →
        s.reg 0x2E40 0x02 = port → s.reg 0x2E40 0x03 = domain → s.reg (0x2E20 + port) 0x01 = 1 →
        ∃ t, exec (.ptpSyncMessage port domain offset) s = .next t ∧ t.reg 0x2E40 0x04 = 1 ∧
          t.reg 0x2E40 0x05 = (offset % 2 ^ 64).toNat ∧
          (if 0 < offset ∧ (s.reg 0x2E40 0x06 : Int) ≤ offset then
            t.reg 0x2E40 0x01 = (s.reg 0x2E40 0x01 + offset.toNat) % 2 ^ 64 ∧ t.slew = 0
           else t.reg 0x2E40 0x01 = s.reg 0x2E40 0x01 ∧ t.slew = offset) ∧
          t = { s.reported t with slew := t.slew } ∧
          s.scalarsBut [rk 0x2E40 0x01, rk 0x2E40 0x04, rk 0x2E40 0x05] t) ∧
      (s.reg 0x2E40 0x04 = 1 → ∃ t, exec .ptpHoldover s = .next t ∧ t.reg 0x2E40 0x04 = 2 ∧ t = s.reported t ∧
        s.scalarsBut [rk 0x2E40 0x04] t) ∧
      (s.timebaseUp = true → s.reg 0x2E40 0x07 = 1 → s.reg 0x2E40 0x02 = 0xFF →
        ∃ t, exec .ppsInEdge s = .next t ∧ t = { s with slew := t.slew } ∧ (s.now + t.slew) % 1000000000 = 0 ∧
          -500000000 < t.slew ∧ t.slew ≤ 500000000) ∧
      (s.timebaseUp = true → ∃ t, exec .ppsOutSecond s = .next t ∧ t.out = s.out ++ [.ppsRise] ∧
        t.reg 0x2E40 0x01 = max (ceilDiv s.now 1000000000) s.ppsNext * 1000000000 % 2 ^ 64 ∧
        t = { s with regs := t.regs, ppsNext := max (ceilDiv s.now 1000000000) s.ppsNext + 1, out := t.out } ∧
        ∀ k, k ≠ rk 0x2E40 0x01 → t.regAt k = s.regAt k))

/-- The JTAG instructions, and USDO transfers and the JTAG window as ways to the dictionary (R346, R462, R463, R485). -/
def Obligations.JtagAndCanReachTheDictionary : Prop :=
  (∀ s : State, s.tapUp = true →
      (∀ tdi, ∃ t, exec (.bypass tdi) s = .next t ∧
        t = { s with ir := .bypass, dr := if tdi then 1 else 0, out := s.out ++ [.tdo 0] }) ∧
      (∃ t, exec .idcode s = .next t ∧ t = { s with ir := .idcode, dr := t.dr, out := s.out ++ [.tdo t.dr] } ∧
        t.dr = Config.idcode.toNat) ∧
      (∀ dr, ∃ t, exec (.samplePreload dr) s = .next t ∧
        ∃ v, t = { s with ir := .sample, boundary := dr, out := s.out ++ [.tdo v], free := s.free + 1 }) ∧
      (∀ dr, s.hresetLow = true → ∃ t, exec (.extest dr) s = .next t ∧
        ∃ v, t = { s with ir := .extest, boundary := dr, out := s.out ++ [.tdo v, .pins dr], free := s.free + 1 }) ∧
      (∀ dr, s.hresetLow = false → ∃ t, exec (.extest dr) s = .next t ∧
        t = { s with ir := .bypass, dr := dr % 2, out := s.out ++ [.tdo 0] }) ∧
      (∀ dr, s.booted = false → s.recovery = false →
        (∃ t, exec (.dict dr) s = .next t ∧ t = { s with ir := .dict, dr := 2 ^ 127 }) ∧
        ∃ t, exec (.dictWindow dr) s = .next t ∧ t = { s with ir := .dictWindow, dr := 2 ^ 127 })) ∧
  (∀ s : State, s.Canonical → s.controllerDown = false →
      (∀ (b : Bus) (idx sub : Nat), s.serves (busPath b) = true → s.readCode idx sub false = 0 → sub ≠ 0 → idx ≠ 0x2110 →
        ∃ t, exec (.usdoRequest b (.read idx sub)) s = .next t ∧
          t = { s with out := s.out ++ [.usdoReply b 0 (s.pathBytes (busPath b) idx sub)] }) ∧
      (∀ (b : Bus) (v : Nat), s.serves (busPath b) = true → v < 65536 →
        ∃ t, exec (.usdoRequest b (.write 0x1017 0x00 (toBytes 2 v))) s = .next t ∧ t.reg 0x1017 0x00 = v ∧
          t = { s.answered t with regs := t.regs } ∧ ∀ k, k ≠ rk 0x1017 0x00 → t.regAt k = s.regAt k) ∧
      (s.tapUp = true → s.serves .jtag = true →
        (∀ (dr : BitVec 128), dr.toNat.testBit 127 = true → bits dr.toNat 126 111 = 0x1017 → bits dr.toNat 110 103 = 0 →
          bits dr.toNat 102 101 = 1 → bits dr.toNat 63 0 < 65536 → ∃ t, exec (.dict dr) s = .next t ∧
            t.reg 0x1017 0x00 = bits dr.toNat 63 0 ∧ t.dr = 0 ∧ t.ir = .dict ∧
            t = { s.answered t with regs := t.regs, ir := t.ir } ∧ ∀ k, k ≠ rk 0x1017 0x00 → t.regAt k = s.regAt k) ∧
        (∀ (dr : BitVec 128), dr.toNat.testBit 127 = true → bits dr.toNat 126 107 = 0x80000 → bits (bits dr.toNat 63 0) 31 8 ≠ 0x203001 →
          ∃ t, exec (.dictWindow dr) s = .next t ∧ t.ir = .dictWindow ∧
            (t.window 4).selector = bits dr.toNat 63 0 % 2 ^ 32 - bits dr.toNat 63 0 % 2 ^ 8 ∧ (t.window 4).staging = [] ∧
            t = { s with ir := .dictWindow, dr := 0, windows := t.windows })))

/-- The clear commands of the grid's counters, and of the port, power, vote and self-test counters, clear exactly their counters (R84, R145, R225, R251, R289, R373). -/
def Obligations.CountersClear : Prop :=
  ∀ (s : State) (p : Path) (v : Nat), s.Canonical → s.serves p = true → s.controllerDown = false →
    (∃ t, exec (.clearArithmeticCounters p v) s = .next t ∧ t = { s.answered t with regs := t.regs, maskDrops := t.maskDrops } ∧ t.out = s.out ++ [.dictDone p 0 0] ∧
      (∀ k, t.regAt k = if v ≠ 0 ∧ clearsOf 0x2C02 (k / 256) (k % 256) = true then regDefault k else s.regAt k) ∧
      (∀ j, 0x01 ≤ j → j ≤ 0x0A → v ≠ 0 → t.reg 0x2C01 j = 0) ∧
      ∀ k, k < 2 ^ 64 → t.maskDropsAt k = if v = 0 then s.maskDropsAt k else 0) ∧
    (∃ t, exec (.clearScratchpadCounters p v) s = .next t ∧ t = { s.answered t with regs := t.regs } ∧ t.out = s.out ++ [.dictDone p 0 0] ∧
      (∀ k, t.regAt k = if v ≠ 0 ∧ clearsOf 0x29E1 (k / 256) (k % 256) = true then regDefault k else s.regAt k) ∧
      (v ≠ 0 → t.reg 0x29E0 0x04 = 0 ∧ t.reg 0x29E0 0x05 = 0)) ∧
    (∃ t, exec (.clearBondCounters p v) s = .next t ∧ t = { s.answered t with regs := t.regs, slotFixes := t.slotFixes } ∧ t.out = s.out ++ [.dictDone p 0 0] ∧
      (∀ k, t.regAt k = if v ≠ 0 ∧ clearsOf 0x2B00 (k / 256) (k % 256) = true then regDefault k else s.regAt k) ∧
      (v ≠ 0 → t.reg 0x2B00 0x02 = 0 ∧ t.reg 0x2B00 0x03 = 0) ∧
      ∀ n : Site, t.slotFixesAt n = if v = 0 then s.slotFixesAt n else 0) ∧
    (∃ t, exec (.clearMortarCounters p v) s = .next t ∧ t = { s.answered t with regs := t.regs } ∧ t.out = s.out ++ [.dictDone p 0 0] ∧
      (∀ k, t.regAt k = if v ≠ 0 ∧ clearsOf 0x2A00 (k / 256) (k % 256) = true then regDefault k else s.regAt k) ∧
      (v ≠ 0 → t.reg 0x2A00 0x07 = 0 ∧ t.reg 0x2A00 0x08 = 0)) ∧
    (∃ t, exec (.clearHbmCounters p v) s = .next t ∧ t = { s.answered t with regs := t.regs, retiredDrops := t.retiredDrops } ∧
      t.retiredDrops = (if v = 0 then s.retiredDrops else 0) ∧ t.out = s.out ++ [.dictDone p 0 0] ∧
      (∀ k, t.regAt k = if v ≠ 0 ∧ clearsOf 0x2D00 (k / 256) (k % 256) = true then regDefault k else s.regAt k) ∧
      (∀ k : Stack, v ≠ 0 → t.reg (0x4100 + k) 0x05 = 0 ∧ t.reg (0x4100 + k) 0x06 = 0)) ∧
    (∃ t, exec (.clearSyncCounters p v) s = .next t ∧ t = { s.answered t with regs := t.regs, rings := t.rings } ∧
      t.out = s.out ++ [.dictDone p 0 0] ∧
      (∀ k, t.regAt k = if v ≠ 0 ∧ clearsOf 0x2800 (k / 256) (k % 256) = true then regDefault k else s.regAt k) ∧
      (v ≠ 0 → t.reg 0x2800 0x04 = 0) ∧
      ∀ r, t.ring r = if v = 0 then s.ring r
        else { s.ring r with messages := 0, senderStall := 0, receiverStall := 0, rejected := 0 }) ∧
    (∃ t, exec (.clearPortCounters p v) s = .next t ∧ t = { s.answered t with regs := t.regs } ∧ t.out = s.out ++ [.dictDone p 0 0] ∧
      (∀ k, t.regAt k = if v ≠ 0 ∧ clearsOf 0x2E00 (k / 256) (k % 256) = true then regDefault k else s.regAt k) ∧
      (v ≠ 0 → t.reg 0x2E10 0x08 = 0 ∧ t.reg 0x2E10 0x09 = 0)) ∧
    (∃ t, exec (.clearPowerCounters p v) s = .next t ∧ t = { s.answered t with regs := t.regs } ∧ t.out = s.out ++ [.dictDone p 0 0] ∧
      (∀ k, t.regAt k = if v ≠ 0 ∧ clearsOf 0x2200 (k / 256) (k % 256) = true then regDefault k else s.regAt k) ∧
      (∀ n : Site, v ≠ 0 → t.reg (0x3000 + n) 0xA2 = 127)) ∧
    (∃ t, exec (.clearVoteCounters p v) s = .next t ∧ t = { s.answered t with regs := t.regs } ∧ t.out = s.out ++ [.dictDone p 0 0] ∧
      (∀ k, t.regAt k = if v ≠ 0 ∧ clearsOf 0x2540 (k / 256) (k % 256) = true then regDefault k else s.regAt k) ∧
      (∀ j, 0x01 ≤ j → j ≤ 0x05 → v ≠ 0 → t.reg 0x2540 j = 0)) ∧
    (∃ t, exec (.clearSelfTestCounters p v) s = .next t ∧ t = { s.answered t with regs := t.regs } ∧ t.out = s.out ++ [.dictDone p 0 0] ∧
      (∀ k, t.regAt k = if v ≠ 0 ∧ clearsOf 0x2600 (k / 256) (k % 256) = true then regDefault k else s.regAt k) ∧
      (v ≠ 0 → t.reg 0x2610 0x03 = 0))

/-- A write through a scalar slot has its object's effect or records why it was refused (R456, R457, R459, R468, R472). -/
def Obligations.DictionaryWritesReachTheirObject : Prop :=
  ∀ (s : State) (p : Path), s.Canonical → s.serves p = true → s.controllerDown = false →
    (∀ (idx sub size v : Nat) (r : ObjRow), indexExists idx = true → objRow idx sub = some r → r.size = size → size ≠ 0 →
      r.acc ≠ .const → r.acc ≠ .ro → v < 2 ^ (8 * size) → (scalarCommand p idx sub v).code s idx sub = 0 →
      (scalarCommand p idx sub v).answersLater = false →
      ∃ t, exec (.registerWrite p idx sub size v) s = .next t ∧ t = ((scalarCommand p idx sub v).effect.run s).answered t ∧
        t.out = ((scalarCommand p idx sub v).effect.run s).out ++ [.dictDone p 0 0]) ∧
    (∀ v, v < 65536 → ∃ t, exec (.registerWrite p 0x1017 0x00 2 v) s = .next t ∧ t.reg 0x1017 0x00 = v ∧
      t = { s.answered t with regs := t.regs } ∧ ∀ k, k ≠ rk 0x1017 0x00 → t.regAt k = s.regAt k) ∧
    (∀ (idx sub size v : Nat), writeCode idx sub size true ≠ 0 →
      ∃ t, exec (.registerWrite p idx sub size v) s = .next t ∧
        t.reg 0x20F8 (0x01 + pathNo p) = writeCode idx sub size true ∧
        t.reg 0x20F8 (0x06 + pathNo p) = idx * 2 ^ 16 + sub * 2 ^ 8 ∧
        t.out = s.out ++ [.dictDone p (writeCode idx sub size true) 0] ∧ t = { s.answered t with regs := t.regs } ∧
        ∀ k, k ≠ rk 0x20F8 (0x01 + pathNo p) → k ≠ rk 0x20F8 (0x06 + pathNo p) → t.regAt k = s.regAt k) ∧
    (s.allFree = true → ∃ t, exec (.restoreDefaults p 0x64616F6C) s = .next t ∧
      t = { s.answered t with restoreDefaults := true } ∧ t.out = s.out ++ [.dictDone p 0 0]) ∧
    (∀ v, v ≠ 0x64616F6C → ∃ t, exec (.restoreDefaults p v) s = .next t ∧ t.restoreDefaults = s.restoreDefaults ∧
      t.reg 0x20F8 (0x01 + pathNo p) = 0x06090030) ∧
    (∃ t, exec (.errorHistoryClear p 0) s = .next t ∧ t = { s.answered t with errorHistory := [] } ∧
      t.out = s.out ++ [.dictDone p 0 0])

/-- Snapshots, and the selector, aperture, offset and commit of a path's domain window (R460, R461, R466). -/
def Obligations.SnapshotsAndDomainWindow : Prop :=
  ∀ (s : State) (p : Path), s.Canonical → s.serves p = true →
    (∀ (idx : Nat), s.readCode idx 0x00 true = 0 → idx ≠ 0x2110 → ∃ t, exec (.snapshotLatch p idx) s = .next t ∧
      t.dictSnap (pathNo p) = some { index := idx, vals := s.snapshotOf p idx } ∧ t = s.answered t ∧
      t.out = s.out ++ [.dictDone p 0 (s.pathValue p idx 0)]) ∧
    (∃ t, exec (.snapshotExpire p) s = .next t ∧ t.dictSnap (pathNo p) = none ∧ t = { s with dictSnaps := t.dictSnaps } ∧
      ∀ q, q ≠ pathNo p → t.dictSnap q = s.dictSnap q) ∧
    (p ≠ .canA → p ≠ .canB → s.standby p = none →
      (∀ v, v < 2 ^ 32 → bits v 31 8 ≠ 0x203001 → ∃ t, exec (.domainSelect p v) s = .next t ∧
        t.window (pathNo p) = { s.window (pathNo p) with selector := v - v % 256, staging := [] } ∧
        t = { s with windows := t.windows }) ∧
      (∀ v, v < 2 ^ 64 → ∃ t, exec (.apertureWrite p 0x80008 (toBytes 8 v)) s = .next t ∧
        t.window (pathNo p) = { s.window (pathNo p) with offset := v - v % 8 } ∧ t = { s with windows := t.windows }) ∧
      (∀ (off : Nat) (bs : List Byte), 0x90000 ≤ off → off + bs.length ≤ 0x100000 →
        bits (s.window (pathNo p)).selector 31 8 ≠ 0x203001 →
        ∃ t, exec (.apertureWrite p off bs) s = .next t ∧ t = { s with windows := t.windows } ∧
          t.window (pathNo p) = { s.window (pathNo p) with staging := stageWrite (s.window (pathNo p)).staging ((s.window (pathNo p)).offset + (off - 0x90000)) bs (stageSize (s.window (pathNo p)).idx (s.window (pathNo p)).sub) }) ∧
      (∃ t, exec (.domainCommit p 0) s = .next t ∧ (t.window (pathNo p)).status = 0 ∧ t = { s with windows := t.windows }) ∧
      (∀ e : EthPort, s.controllerDown = false → (s.window (pathNo p)).selector = (0x2E20 + e) * 2 ^ 16 + 0x05 * 2 ^ 8 →
        (s.window (pathNo p)).staging.length = 16 → ∃ t, exec (.domainCommit p 16) s = .next t ∧
          t.reg (0x2E20 + e) 0x05 = ofBytes (s.window (pathNo p)).staging ∧ (t.window (pathNo p)).status = 0 ∧
          t = { s.answered t with regs := t.regs } ∧ ∀ k, k ≠ rk (0x2E20 + e) 0x05 → t.regAt k = s.regAt k))

/-- The event log's flush, the error register's clearing and the end of the EMCY inhibit (R450, R470, R471). -/
def Obligations.ErrorRegisterAndLog : Prop :=
  ∀ s : State, s.Canonical →
    (s.booted = true → s.controllerDown = false → ∃ t, exec .eventLogFlush s = .next t ∧
      t.log = ((entriesFrom s.logSeq s.raised).reverse ++ s.log).take 65536 ∧ t.raised = [] ∧
      t.logSeq = (s.logSeq + s.raised.length) % 2 ^ 32 ∧
      t.reg 0x2F00 0x03 = satAdd 64 (s.reg 0x2F00 0x03) (s.log.length + s.raised.length - 65536) ∧
      t = { s with regs := t.regs, log := t.log, raised := t.raised, logSeq := t.logSeq } ∧
      ∀ k, k ≠ rk 0x2F00 0x03 → t.regAt k = s.regAt k) ∧
    (∀ b : Fin 8, s.booted = true → b ≠ 0 → (s.reg 0x1001 0x00).testBit b = true →
      ∃ t, exec (.errorRegisterClear b) s = .next t ∧
        t.reg 0x1001 0x00 = (if clearBit (s.reg 0x1001 0x00) b = 1 then 0 else clearBit (s.reg 0x1001 0x00) b) ∧
        t = { s.reported t with emcyResetOwed := t.emcyResetOwed } ∧ ∀ k, k ≠ rk 0x1001 0x00 → t.regAt k = s.regAt k) ∧
    (s.emcyBusy = true → s.emcyResetOwed = true → s.reg 0x1001 0x00 = 0 → s.canSends = true →
      s.reg 0x2E30 0x02 ≠ 2 → s.reg 0x2E30 0x03 ≠ 2 → ∃ t, exec .emcyInhibitEnd s = .next t ∧ t.emcyResetOwed = false ∧
        t.out = s.out ++ [.emcy 0 0 0 0 0 0 0, .emcy 1 0 0 0 0 0 0] ∧
        t.emcyBusy = decide (s.reg 0x2E31 0x02 ≠ 0) ∧
        t = { s with out := t.out, errorHistory := t.errorHistory, emcyBusy := t.emcyBusy, emcyResetOwed := false })

/-- A context's open, close and doorbell (R252, R253, R254, R256). -/
def Obligations.ContextsOpenAndClose : Prop :=
  ∀ (s : State) (c : Ctx), s.Canonical →
    (∀ p : Path, s.serves p = true → s.controllerDown = false →
      (s.mayOpen c = true → ∃ t, exec (.contextOpen p c) s = .next t ∧ t.reg (0x2700 + c) 0x01 = 1 ∧
        t.reg (0x2700 + c) 0x06 = 0 ∧ t.reg (0x2700 + c) 0x08 = 0 ∧ t.reg (0x2700 + c) 0x09 = 0 ∧ t.ctx c = {} ∧
        t.out = s.out ++ [.dictDone p 0 0] ∧ t = { s.answered t with regs := t.regs, ctxs := t.ctxs } ∧ s.ctxsBut t c ∧
        ∀ k, (∀ j ∈ [0x01, 0x06, 0x08, 0x09, 0x36, 0x37], k ≠ rk (0x2700 + c) j) → t.regAt k = s.regAt k) ∧
      (s.mayClose c = true → s.noAborts p c → ∃ t, exec (.contextClose p c) s = .next t ∧ t.reg (0x2700 + c) 0x01 = 0 ∧
        t.reg (0x2700 + c) 0x31 = 0xFF ∧ t.reg (0x2700 + c) 0x32 = 0xFF ∧ t.ctx c = {} ∧
        (∀ i, i < 4096 → t.entryAt (c * 4096 + i) = 0) ∧ t.cells = s.cells ∧
        t.entryWaits = s.entryWaits ++ ((s.ctxEntries c).filter fun e => (s.siteOf (fmTile e.2)).isSome).map (fun e => (p, c.val, e.1, 1)) ∧
        ((∀ e ∈ s.ctxEntries c, s.siteOf (fmTile e.2) = none) → (∀ w ∈ s.entryWaits, ¬(w.1 = p ∧ w.2.1 = c.val)) →
          .dictDone p 0 0 ∈ t.out) ∧
        (∀ k x, t.planAt k = some x → x.ctx ≠ c.val) ∧ t.mem = s.mem ∧ s.ctxsBut t c)) ∧
    (∀ (h : HostPort) (bs : List Byte) (v : Nat), s.serves (hostPath h) = true → s.isActivePort h = true → s.computeReset = false →
      s.engineUp c = true → bs.length = 4 → ofBytes bs = v →
      (s.ctxRuns c = true → (v + 2 ^ 32 - s.reg (0x2700 + c) 0x06) % 2 ^ 32 ≤ 2 ^ s.reg (0x2700 + c) 0x05 →
        ∃ t, exec (.doorbell h c 0 bs) s = .next t ∧ t.reg (0x2700 + c) 0x09 = v ∧ t = { s with regs := t.regs } ∧
          ∀ k, k ≠ rk (0x2700 + c) 0x09 → t.regAt k = s.regAt k) ∧
      (s.ctxRuns c = false ∨ 2 ^ s.reg (0x2700 + c) 0x05 < (v + 2 ^ 32 - s.reg (0x2700 + c) 0x06) % 2 ^ 32 →
        ∃ t, exec (.doorbell h c 0 bs) s = .next t ∧ t = s.reported t ∧ s.scalarsBut [] t)) ∧
    (∀ (h : HostPort) (off : Fin 4096) (bs : List Byte), s.serves (hostPath h) = true → s.isActivePort h = true →
      off ≠ 0 ∨ bs.length ≠ 4 → ∃ t, exec (.doorbell h c off bs) s = .next t ∧
        t.reg 0x2E10 0x09 = satAdd 64 (s.reg 0x2E10 0x09) 1 ∧ t = { s with regs := t.regs } ∧
        ∀ k, k ≠ rk 0x2E10 0x09 → t.regAt k = s.regAt k)

/-- The queue engine fetches a descriptor, and writes the record of one that has ended (R257, R258, R260). -/
def Obligations.DescriptorFetchAndCompletion : Prop :=
  ∀ (s : State) (c : Ctx) (p : Nat), s.Canonical → s.ctxRuns c = true → s.engineUp c = true →
    (s.reg (0x2700 + c) 0x06 = p → s.reg (0x2700 + c) 0x09 ≠ p → (s.ctx c).active.length < 8 →
      s.hbmServes (s.descAddr c p) 64 = true → touchesDump (s.descAddr c p) 64 = false → s.rangeBad (s.descAddr c p) 64 = false →
      s.hbmWaits (s.descAddr c p) 64 = false →
      (∀ e ∈ (s.ctx c).active, e.started = true ∨ e.status.isSome = true ∨ dMalformed e = false) →
      ∀ d : ActiveDesc, d = { num := p, words := (List.range 8).map fun i => s.load (s.descAddr c p + 8 * i) 8 } →
        dMalformed d = false → ∃ t, exec (.descriptorFetch c false) s = .next t ∧
          t.reg (0x2700 + c) 0x06 = (p + 1) % 2 ^ 32 ∧ t.ctx c = { s.ctx c with active := (s.ctx c).active ++ [d] } ∧
          t = { s with regs := t.regs, ctxs := t.ctxs } ∧ s.ctxsBut t c ∧
          ∀ k, k ≠ rk (0x2700 + c) 0x06 → t.regAt k = s.regAt k) ∧
    (∀ (d : ActiveDesc) (code : Nat), (s.ctx c).active = [d] → d.num = p → d.status = some code → (s.ctx c).records = [] →
      s.reg (0x2700 + c) 0x08 = p → s.recordWritable c p = true → s.recordAddr c p % 16 = 0 →
      s.retiredLine (s.recordAddr c p / 64) = false → s.hbmWaits (s.recordAddr c p) 16 = false →
      ∃ t, exec (.descriptorComplete c p false) s = .next t ∧
        t.bytesAt (s.recordAddr c p) 16 = toBytes 8 (s.recordWords d code).1 ++ toBytes 8 (s.recordWords d code).2 ∧
        (∀ a, a < s.recordAddr c p ∨ s.recordAddr c p + 16 ≤ a → readByte t.mem a = readByte s.mem a) ∧
        (t.ctx c).active = [] ∧ t.reg (0x2700 + c) 0x08 = (p + 1) % 2 ^ 32 ∧
        t.reg (0x2700 + c) 0x0C = (if code = 0 then s.reg (0x2700 + c) 0x0C else satAdd 32 (s.reg (0x2700 + c) 0x0C) 1) ∧
        t = { s.reported t with mem := t.mem, poisonLines := t.poisonLines, ctxs := t.ctxs } ∧ s.ctxsBut t c)

/-- NOTE, SET_FLAG, CLEAR_FLAG, WAIT_FLAG and FENCE_ORDER start and do what they do (R257, R264, R265, R266). -/
def Obligations.SignallingDescriptorsStart : Prop :=
  ∀ (s : State) (c : Ctx) (p : Nat) (before : List ActiveDesc) (d : ActiveDesc), s.Canonical →
    (s.Startable c p 0x0C before d → ∃ t, exec (.note c p) s = .next t ∧
      t.ctx c = (s.ctx c).began before d s.now (some 0) ∧ t = { s with ctxs := t.ctxs } ∧ s.ctxsBut t c) ∧
    (s.Startable c p 0x05 before d → ∀ n, s.resolve c (bits (dWord d 1) 15 0) = .cell n → n < 3264 →
      ∃ t, exec (.setFlag c p) s = .next t ∧
        t.ctx c = { (s.ctx c).began before d s.now none with flagOps := (s.ctx c).flagOps ++ [bits (dWord d 1) 15 0] } ∧
        t.issue = s.issue ++ [{ packet := { flagPacket 0x01 c (queueEndpoint c) n (bits (dWord d 1) 15 0) with followed := true }, origin := .descriptor c p }] ∧
        t = { s with ctxs := t.ctxs, issue := t.issue } ∧ s.ctxsBut t c) ∧
    (s.Startable c p 0x05 before d → s.resolve c (bits (dWord d 1) 15 0) = .unmapped →
      ∃ t, exec (.setFlag c p) s = .next t ∧ t.ctx c = (s.ctx c).began before d s.now (some 0) ∧
        t.reg 0x2800 0x04 = satAdd 64 (s.reg 0x2800 0x04) 1 ∧ t = { s.reported t with ctxs := t.ctxs } ∧ s.ctxsBut t c) ∧
    (s.Startable c p 0x06 before d → ∀ n, s.resolve c (bits (dWord d 1) 15 0) = .cell n → n < 3264 →
      ∃ t, exec (.clearFlag c p) s = .next t ∧
        t.ctx c = { (s.ctx c).began before d s.now none with flagOps := (s.ctx c).flagOps ++ [bits (dWord d 1) 15 0] } ∧
        t.issue = s.issue ++ [{ packet := { flagPacket 0x02 c (queueEndpoint c) n (bits (dWord d 1) 15 0) with followed := true }, origin := .descriptor c p }] ∧
        t = { s with ctxs := t.ctxs, issue := t.issue } ∧ s.ctxsBut t c) ∧
    (s.Startable c p 0x07 before d → ∀ n, s.resolve c (bits (dWord d 1) 15 0) = .cell n → n < 3264 →
      ∃ t, exec (.waitFlag c p) s = .next t ∧ t.ctx c = (s.ctx c).began before d s.now none ∧
        t.issue = s.issue ++ [{ packet := flagPacket 0x03 c (queueEndpoint c) n (bits (dWord d 1) 15 0 + bits (dWord d 1) 63 32 * 2 ^ 32), origin := .descriptor c p }] ∧
        t = { s with ctxs := t.ctxs, issue := t.issue } ∧ s.ctxsBut t c) ∧
    (s.Startable c p 0x0B before d → (s.ctx c).flagOps = [] → (s.ctx c).ringPosts = [] →
      ∃ t, exec (.fenceOrder c p) s = .next t ∧ t.ctx c = (s.ctx c).began before d s.now (some 0) ∧
        t = { s with ctxs := t.ctxs } ∧ s.ctxsBut t c)

/-- A tile monitor applies a SET, a CLEAR and a rebind (R277, R278, R279, R280, R285). -/
def Obligations.MonitorsApplySetAndClear : Prop :=
  ∀ (s : State) (p : Packet) (l : Nat), s.Canonical → s.isNext p = true → s.tileOf p.dst = some l →
    (∀ k, s.findCell l p.ctx (bits p.operand 15 0) = some k → s.waitersAt l = [] →
      (p.typ = 0x01 → ∃ t, exec (.flagSet p) s = .next t ∧
        t.cellAt (l * 32 + k) = { s.cellAt (l * 32 + k) with value := true, lastEp := p.src, lastCtx := p.ctx } ∧
        t.reg (0x3000 + p.dst) 0x90 = satAdd 64 (s.reg (0x3000 + p.dst) 0x90) 1 ∧ t.delivered = s.delivered.erase p ∧
        t = { s with regs := t.regs, ctxs := t.ctxs, cells := t.cells, delivered := t.delivered } ∧
        (∀ j, j ≠ l * 32 + k → t.cellAt j = s.cellAt j)) ∧
      (p.typ = 0x02 → p.operand.testBit 16 = false → ∃ t, exec (.flagClear p) s = .next t ∧
        t.cellAt (l * 32 + k) = { s.cellAt (l * 32 + k) with value := false, lastEp := p.src, lastCtx := p.ctx } ∧
        t.reg (0x3000 + p.dst) 0x90 = satAdd 64 (s.reg (0x3000 + p.dst) 0x90) 1 ∧ t.delivered = s.delivered.erase p ∧
        t = { s with regs := t.regs, ctxs := t.ctxs, cells := t.cells, delivered := t.delivered } ∧
        (∀ j, j ≠ l * 32 + k → t.cellAt j = s.cellAt j))) ∧
    (∀ k w, s.findCell l p.ctx (bits p.operand 15 0) = some k → s.waitersAt l = [w] → w.ctx = p.ctx →
      w.handle = bits p.operand 15 0 → w.mask = 0 → w.ep ≠ p.dst → p.typ = 0x01 → ∃ t, exec (.flagSet p) s = .next t ∧
        (t.cellAt (l * 32 + k)).value = true ∧ t.waitersAt l = [] ∧
        t.issue = s.issue ++ [{ packet := flagPacket 0x04 p.ctx p.dst w.ep w.handle }]) ∧
    (p.typ = 0x02 → p.operand.testBit 16 = true → ∀ e, s.entryAt (p.ctx * 4096 + bits p.operand 11 0) = e → fmValid e = true →
      fmTile e = l → s.entryWaits = [] → ∃ t, exec (.rebind p) s = .next t ∧
        t.cellAt (fmKey e) = { value := false, bound := true, ctx := p.ctx, gen := fmGen e, index := bits p.operand 11 0, lastEp := p.src, lastCtx := p.ctx } ∧
        t.delivered = s.delivered.erase p ∧
        t = { s with regs := t.regs, ctxs := t.ctxs, cells := t.cells, delivered := t.delivered } ∧
        ∀ j, j < l * 32 ∨ l * 32 + 32 ≤ j → t.cellAt j = s.cellAt j)

/-- A wait registers, is woken at once or is stale; a wake ends its descriptor; a busy wait is sent again (R266, R278, R280, R281). -/
def Obligations.WaitsRegisterAndWake : Prop :=
  ∀ (s : State), s.Canonical →
    (∀ (p : Packet) (l : Nat), s.isNext p = true → p.typ = 0x03 → s.tileOf p.dst = some l → p.src ≠ p.dst →
      (∀ k, s.findCell l p.ctx (bits p.operand 15 0) = some k →
        s.waitBound l p.ctx (bits p.operand 15 0) k (bits p.operand 63 32) = true →
        (s.waitHolds l k (bits p.operand 63 32) = true → ∃ t, exec (.flagWait p) s = .next t ∧
          t.issue = s.issue ++ [{ packet := flagPacket 0x04 p.ctx p.dst p.src (bits p.operand 15 0) }] ∧
          t = { s with regs := t.regs, delivered := s.delivered.erase p, issue := t.issue }) ∧
        (s.waitHolds l k (bits p.operand 63 32) = false → (s.waitersAt l).length < 8 → ∃ t, exec (.flagWait p) s = .next t ∧
          t.waitersAt l = s.waitersAt l ++ [⟨p.src, p.ctx, bits p.operand 15 0, bits p.operand 63 32⟩] ∧
          t = { s with regs := t.regs, delivered := s.delivered.erase p, waiters := t.waiters } ∧
          ∀ l', l' ≠ l → t.waitersAt l' = s.waitersAt l')) ∧
      (s.findCell l p.ctx (bits p.operand 15 0) = none → ∃ t, exec (.flagWait p) s = .next t ∧
        t.issue = s.issue ++ [{ packet := flagPacket 0x04 p.ctx p.dst p.src (bits p.operand 15 0 + 2 ^ 18) }] ∧
        t.reg (0x3000 + p.dst) 0x91 = satAdd 32 (s.reg (0x3000 + p.dst) 0x91) 1 ∧
        t = { s.reported t with delivered := s.delivered.erase p, issue := t.issue })) ∧
    (∀ (p : Packet) (d : ActiveDesc) (e : Ecc), s.isNext p = true → p.typ = 0x04 → 0xD80 ≤ p.dst →
      p.operand.testBit 17 = false → p.operand.testBit 18 = false → s.waitDesc p.ctx (bits p.operand 15 0) = some d →
      ∃ t, exec (.flagWake p e) s = .next t ∧ t = { s with delivered := s.delivered.erase p, ctxs := t.ctxs } ∧
        t.ctx p.ctx = { s.ctx p.ctx with active := (s.ctx p.ctx).active.map (fun e => if e.num = d.num ∧ e.status = none then { e with status := some 0 } else e) } ∧
        s.ctxsBut t p.ctx) ∧
    (∀ (c : Ctx) (h n : Nat) (d : ActiveDesc) (e : Ecc), (s.ctx c).active = [d] → d.retry = true → bits (dWord d 1) 15 0 = h →
      s.resolve c h = .cell n → n < 3264 → (∀ e ∈ s.ringsOn, e.2.busy = none) → ∃ t, exec (.waitRetry c h e) s = .next t ∧
        t.issue = s.issue ++ [{ packet := flagPacket 0x03 c (queueEndpoint c) n (h + bits (dWord d 1) 63 32 * 2 ^ 32), origin := .descriptor c d.num }] ∧
        t.ctx c = { s.ctx c with active := [{ d with retry := false }] } ∧ t = { s with issue := t.issue, ctxs := t.ctxs } ∧
        s.ctxsBut t c)

/-- A flag-map entry write rebinds its cells, and a domain write replaces the whole map (R276, R283, R284). -/
def Obligations.FlagMapWrites : Prop :=
  ∀ (s : State) (p : Path) (c : Ctx), s.Canonical → s.serves p = true → s.controllerDown = false →
    (∀ (w i : Nat), s.selectorAt (pathNo p * 2 ^ 32 + rk (0x2840 + c) 0x02) = i → w ≠ s.entryAt (c * 4096 + i) →
      fmReserved w = false → s.entryRefused c i w = false → s.rebindSites (s.entryAt (c * 4096 + i)) w ≠ [] →
      (∀ n ∈ s.rebindSites (s.entryAt (c * 4096 + i)) w, n < 3264) → ∃ t, exec (.flagMapEntryWrite p c w) s = .next t ∧
        t.entryAt (c * 4096 + i) = w ∧ (∀ k, k ≠ c * 4096 + i → t.entryAt k = s.entryAt k) ∧
        t.issue = s.issue ++ (s.rebindSites (s.entryAt (c * 4096 + i)) w).map (fun n => ({ packet := flagPacket 0x02 c (queueEndpoint c) n (fmGen w * 2 ^ 12 + i + 2 ^ 16) } : Request)) ∧
        t.entryWaits = s.entryWaits ++ [(p, c.val, i, (s.rebindSites (s.entryAt (c * 4096 + i)) w).length)] ∧
        t = { s with fmap := t.fmap, issue := t.issue, entryWaits := t.entryWaits, dictSnaps := t.dictSnaps }) ∧
    (∀ bytes : List Byte, bytes.length = 32768 →
      (∀ i, i < 4096 → imageEntry bytes i = s.entryAt (c * 4096 + i) ∨
        (fmReserved (imageEntry bytes i) = false ∧ fmValid (imageEntry bytes i) = false ∧
          (fmValid (s.entryAt (c * 4096 + i)) = true → s.cellWaited (fmKey (s.entryAt (c * 4096 + i))) = false))) →
      ∃ t, exec (.flagMapDomainWrite p c bytes) s = .next t ∧ (∀ i, i < 4096 → t.entryAt (c * 4096 + i) = imageEntry bytes i) ∧
        (∀ k, k < c * 4096 ∨ c * 4096 + 4096 ≤ k → t.entryAt k = s.entryAt k) ∧
        ((∀ i, i < 4096 → imageEntry bytes i ≠ s.entryAt (c * 4096 + i) → s.rebindSites (s.entryAt (c * 4096 + i)) (imageEntry bytes i) = []) →
          (∀ w ∈ s.entryWaits, ¬(w.1 = p ∧ w.2.1 = c.val)) → t.out = s.out ++ [.dictDone p 0 0] ∧ t.entryWaits = s.entryWaits) ∧
        ((∃ i, i < 4096 ∧ imageEntry bytes i ≠ s.entryAt (c * 4096 + i) ∧ s.rebindSites (s.entryAt (c * 4096 + i)) (imageEntry bytes i) ≠ []) →
          t.out = s.out) ∧
        (∀ w ∈ t.entryWaits, w ∈ s.entryWaits ∨ w.1 = p ∧ w.2.1 = c.val) ∧
        t = { s.answered t with fmap := t.fmap, issue := t.issue, delivered := t.delivered, entryWaits := t.entryWaits })

/-- A tile enters wait-idle after the threshold and leaves it when its wait ends (R287, R362). -/
def Obligations.WaitIdleCounts : Prop :=
  ∀ (s : State) (n : Site) (beats : Nat), s.Canonical →
    (s.reg 0x2800 0x02 = 1 → s.reg 0x2800 0x01 ≤ beats → s.idleAt n = 0 → s.idleCase n = true →
      ∃ t, exec (.waitIdleEnter n beats) s = .next t ∧
        t.idleAt n = (if s.offerHeld n = true ∨ s.powerHeld (siteField n) = true then 2 else 1) ∧
        t.reg (0x3000 + n) 0x92 = satAdd 32 (s.reg (0x3000 + n) 0x92) 1 ∧ t = { s with idle := t.idle, regs := t.regs } ∧
        (∀ m, m ≠ n.val → t.idleAt m = s.idleAt m) ∧ ∀ k, k ≠ rk (0x3000 + n) 0x92 → t.regAt k = s.regAt k) ∧
    (s.idleAt n ≠ 0 → s.idleCase n = false → s.reg 0x2210 0x03 ≠ 0 → ∃ t, exec (.waitIdleExit n beats) s = .next t ∧
      t.idleAt n = 0 ∧ t.offerHeld n = true ∧ t.reg (0x3000 + n) 0x93 = satAdd 64 (s.reg (0x3000 + n) 0x93) beats ∧
      t = { s with idle := t.idle, regs := t.regs, offerHold := t.offerHold } ∧
      (∀ m, m ≠ n.val → t.idleAt m = s.idleAt m) ∧ ∀ k, k ≠ rk (0x3000 + n) 0x93 → t.regAt k = s.regAt k)

/-- A ring is enabled empty and disabled, and a send ring takes returned credits (R9, R267, R268, R269, R273). -/
def Obligations.RingDescriptorsAndCredits : Prop :=
  ∀ s : State, s.Canonical →
    (∀ (p : Path) (v r : Nat), s.serves p = true → s.selectedRing p = r → (ringCommand p v).code s 0x2900 0x02 = 0 →
      (rdEnabled (s.ring r).desc = false → rdEnabled (v - v % 2) = true → isChannel (v - v % 2) = false →
        ∃ t, exec (.ringDescriptorWrite p v) s = .next t ∧ t.ring r = { (s.ring r).off with desc := v - v % 2 } ∧
          (∀ k, rdSlot (v - v % 2) ≤ k → k < rdSlot (v - v % 2) + rdSlots (v - v % 2) → t.slotTag (ringTile r) k = 0) ∧
          t.load (wordAddr (ringTile r) (8 * rdStatus (v - v % 2))) 8 = 0 ∧ (∀ r', r' ≠ r → t.ring r' = s.ring r') ∧
          t = { s.answered t with rings := t.rings, tags := t.tags, mem := t.mem, stiles := t.stiles, regs := t.regs } ∧
          ∀ k, (∀ j ∈ [0x51, 0x52, 0x57], k ≠ rk (0x3000 + s.sSiteNo (ringTile r)) j) → t.regAt k = s.regAt k) ∧
      (rdEnabled (s.ring r).desc = true → ∃ t, exec (.ringDescriptorWrite p v) s = .next t ∧
        t.ring r = { s.ring r with desc := v - v % 2, credits := 0 } ∧ (∀ r', r' ≠ r → t.ring r' = s.ring r') ∧
        t = { s.answered t with rings := t.rings })) ∧
    (∀ (p : Packet) (r : Nat), s.isNext p = true → p.typ = 0x11 → bits p.operand 13 0 = r →
      rdEnabled (s.ring r).desc = true → rdKind (s.ring r).desc = 1 → rdCtx (s.ring r).desc = p.ctx →
      (r < 12288 → (s.sSite (ringTile r)).isSome = true) → ∃ t, exec (.creditReturn p) s = .next t ∧
        t.ring r = { s.ring r with credits := min 65535 ((s.ring r).credits + bits p.operand 31 16) } ∧
        (∀ r', r' ≠ r → t.ring r' = s.ring r') ∧ t = { s with rings := t.rings, delivered := s.delivered.erase p })

/-- The ring engine writes a posted or a channel's message slot by slot at the ring's tail: at once where the slots are ready and
wide, or it begins at the first one, whose passage or blocked access goes on (R161, R162, R172, R173, R269, R270, R383). -/
def Obligations.RingsTakeMessages : Prop :=
  ∀ (s : State) (p : Packet) (r k : Nat) (rest : List Nat), s.Canonical →
    ringRun (s.ring r).desc (s.ring r).tail (messageSlots p.len) = k :: rest →
    (p.typ = 0x24 → s.BringsMessage p r 0 →
      ((∀ j ∈ k :: rest, s.syncReady (ringTile r) j .write = true ∧ s.isWide p.dst (8 * j) = true) →
        64 * messageSlots p.len ≤ ringFree (s.ring r) → slotInRing (s.ring r).desc (rdStatus (s.ring r).desc) = false →
        ∃ t, exec (.ringPost p {}) s = .next t ∧ s.placedMessage t p r (k :: rest) ∧
          t = { s with rings := t.rings, tags := t.tags, mem := t.mem, stiles := t.stiles, ctxs := t.ctxs, delivered := s.delivered.erase p, regs := t.regs } ∧
          (p.followed = false → t.ctxs = s.ctxs) ∧ (p.followed = true → t.ctx p.ctx = { s.ctx p.ctx with ringPosts := (s.ctx p.ctx).ringPosts.erase r } ∧ s.ctxsBut t p.ctx) ∧
          ∀ x, x ∉ beatKeys [p.dst, s.sSiteNo (ringTile r)] → t.regAt x = s.regAt x) ∧
      (s.syncReady (ringTile r) k .write = true → 64 ≤ ringFree (s.ring r) → s.isWide p.dst (8 * k) = false →
        ∃ t, exec (.ringPost p {}) s = .next t ∧ t.slotTag (ringTile r) k = 3 ∧
          t.stile (ringTile r) = { s.stile (ringTile r) with message := some ⟨r, p, k⟩, passages := (s.stile (ringTile r)).passages ++ [⟨ringWriter p k, .write, k, messageBytes p, p.poison, rest, true⟩] } ∧
          t = { s with tags := t.tags, stiles := t.stiles, delivered := s.delivered.erase p, regs := t.regs } ∧
          ∀ x, x ∉ beatKeys [p.dst] → t.regAt x = s.regAt x) ∧
      (s.syncReady (ringTile r) k .write = false ∨ ringFree (s.ring r) < 64 → ∃ t, exec (.ringPost p {}) s = .next t ∧
        t.stile (ringTile r) = { s.stile (ringTile r) with message := some ⟨r, p, k⟩, blocked := (s.stile (ringTile r)).blocked ++ [⟨ringWriter p k, .write, k, messageBytes p, p.poison, rest, true, s.slotTag (ringTile r) k⟩] } ∧
        t = { s with stiles := t.stiles, delivered := s.delivered.erase p })) ∧
    (p.typ = 0x10 → s.BringsMessage p r 2 →
      ((∀ j ∈ k :: rest, s.syncReady (ringTile r) j .write = true ∧ s.isWide p.dst (8 * j) = true) →
        64 * messageSlots p.len ≤ ringFree (s.ring r) → slotInRing (s.ring r).desc (rdStatus (s.ring r).desc) = false →
        ∃ t, exec (.channelMessage p {}) s = .next t ∧ s.placedMessage t p r (k :: rest) ∧
          t = { s with rings := t.rings, tags := t.tags, mem := t.mem, stiles := t.stiles, delivered := s.delivered.erase p, regs := t.regs } ∧
          ∀ x, x ∉ beatKeys [p.dst, s.sSiteNo (ringTile r)] → t.regAt x = s.regAt x) ∧
      (s.syncReady (ringTile r) k .write = true → 64 ≤ ringFree (s.ring r) → s.isWide p.dst (8 * k) = false →
        ∃ t, exec (.channelMessage p {}) s = .next t ∧ t.slotTag (ringTile r) k = 3 ∧
          t.stile (ringTile r) = { s.stile (ringTile r) with message := some ⟨r, p, k⟩, passages := (s.stile (ringTile r)).passages ++ [⟨ringWriter p k, .write, k, messageBytes p, p.poison, rest, true⟩] } ∧
          t = { s with tags := t.tags, stiles := t.stiles, delivered := s.delivered.erase p, regs := t.regs } ∧
          ∀ x, x ∉ beatKeys [p.dst] → t.regAt x = s.regAt x) ∧
      (s.syncReady (ringTile r) k .write = false ∨ ringFree (s.ring r) < 64 → ∃ t, exec (.channelMessage p {}) s = .next t ∧
        t.stile (ringTile r) = { s.stile (ringTile r) with message := some ⟨r, p, k⟩, blocked := (s.stile (ringTile r)).blocked ++ [⟨ringWriter p k, .write, k, messageBytes p, p.poison, rest, true, s.slotTag (ringTile r) k⟩] } ∧
        t = { s with stiles := t.stiles, delivered := s.delivered.erase p }))

/-- A signal ring issues the flag operation of the message at its head, and a send ring ships its message (R269, R271, R272). -/
def Obligations.SignalAndSendRingsAct : Prop :=
  ∀ (s : State) (r : RingNo) (n w : Nat), s.Canonical → s.sSite (ringTile r) = some n → s.headHeader r = some w →
    s.ringEngineFree (ringTile r) = true → s.ctxRuns (rdCtx (s.ring r).desc) = true → s.headComplete r (headerLength w) = true →
    s.headPoisoned r (headerLength w) = false → s.takesWide r n (s.headRun r (headerLength w)) →
    (∀ m, rdKind (s.ring r).desc = 3 → (s.ring r).gate = none → signalLength (headerType w) = some (headerLength w) →
      s.resolve (rdCtx (s.ring r).desc) (ofBytes ((s.headPayload r (headerLength w)).take 2)) = .cell m → m ≠ n →
      (headerType w = 0x01 → ∃ t, exec (.signalRingSet r {}) s = .next t ∧
        t.ring r = (s.ring r).consumed (messageSlots (headerLength w)) ∧
        t.issue = s.issue ++ [{ packet := flagPacket 0x01 (rdCtx (s.ring r).desc) n m (ofBytes ((s.headPayload r (headerLength w)).take 2)), origin := .ring r }] ∧
        s.headTaken t r n (headerLength w)) ∧
      (headerType w = 0x02 → ∃ t, exec (.signalRingClear r {}) s = .next t ∧
        t.ring r = (s.ring r).consumed (messageSlots (headerLength w)) ∧
        t.issue = s.issue ++ [{ packet := flagPacket 0x02 (rdCtx (s.ring r).desc) n m (ofBytes ((s.headPayload r (headerLength w)).take 2)), origin := .ring r }] ∧
        s.headTaken t r n (headerLength w)) ∧
      (headerType w = 0x03 → ∃ t, exec (.signalRingWait r {}) s = .next t ∧
        t.ring r = { (s.ring r).consumed (messageSlots (headerLength w)) with gate := some (ofBytes (((s.headPayload r (headerLength w)).drop 2).take 2), ofBytes ((s.headPayload r (headerLength w)).take 2)), busy := some (ofBytes ((s.headPayload r (headerLength w)).drop 4), 0) } ∧
        t.issue = s.issue ++ [{ packet := flagPacket 0x03 (rdCtx (s.ring r).desc) n m (ofBytes ((s.headPayload r (headerLength w)).take 2) + ofBytes ((s.headPayload r (headerLength w)).drop 4) * 2 ^ 32), origin := .ring r }] ∧
        s.headTaken t r n (headerLength w))) ∧
    (∀ dst waited, rdKind (s.ring r).desc = 1 → headerLength w ≠ 0 → headerLength w + 72 ≤ rdSize (s.ring r).desc → headerLength w ≤ 1024 →
      s.sSite (ringTile (rdPartner (s.ring r).desc)) = some dst →
      (rdEnabled (s.ring (rdPartner (s.ring r).desc)).desc = true → headerLength w + 72 ≤ rdSize (s.ring (rdPartner (s.ring r).desc)).desc) →
      messageSlots (headerLength w) ≤ (s.ring r).credits → ∃ t, exec (.channelShip r waited {}) s = .next t ∧
        t.ring r = { (s.ring r).consumed (messageSlots (headerLength w)) with credits := (s.ring r).credits - messageSlots (headerLength w), senderStall := satAdd 64 (s.ring r).senderStall waited } ∧
        t.issue = s.issue ++ [{ packet := { dst := dst, src := n, ctx := rdCtx (s.ring r).desc, cls := 1, typ := 0x10, len := headerLength w, operand := rdPartner (s.ring r).desc + headerType w * 2 ^ 16, payload := s.headPayload r (headerLength w) }, origin := .ring r }] ∧
        s.headTaken t r n (headerLength w))

/-- What cold, warm full and compute resets leave when they start, and what they keep (R441, R442, R444, R453, R478, R480). -/
def Obligations.ResetsStart : Prop :=
  ∀ s : State, s.Canonical → s.quiet → s.ctxs.all (fun e => !e.2.resetWaiting) = true →
    (∀ p : Path, s.serves p = true → s.controllerDown = false →
      (∃ t, exec (.resetCold p) s = .next t ∧ t.reset_ = some { width := 6, cause := 1 } ∧ t.reg 0x20F0 0x01 = 1 ∧ t.mainOn = false ∧
        t.booted = false ∧ t.nmt = .initialising ∧ t.reg 0x2F10 0x04 = 6 ∧ t.reg 0x2F10 0x05 = 1 ∧
        (∀ k, k < 2 ^ 64 → t.planAt k = none ∧ t.cellAt k = {} ∧ t.runningAt k = none) ∧ t.health = s.health ∧ s.keptByResets t) ∧
      (s.resetFits 5 = true → ∃ t, exec (.resetWarmFull p) s = .next t ∧ t.reset_ = some { width := 5, cause := 1 } ∧
        t.reg 0x20F0 0x01 = 3 ∧ t.mainOn = false ∧ t.booted = s.booted ∧ t.reg 0x2F10 0x04 = 5 ∧ t.reg 0x2F10 0x05 = 1 ∧
        (∀ k, k < 2 ^ 64 → t.planAt k = none ∧ t.cellAt k = {} ∧ t.runningAt k = none) ∧ s.keptByResets t) ∧
      (s.ready = true → ∃ t, exec (.resetCompute p) s = .next t ∧ t.reset_ = some { width := 4, cause := 1 } ∧ t.mainOn = s.mainOn ∧
        t.reg 0x2F10 0x04 = 4 ∧ t.reg 0x2F10 0x05 = 1 ∧ (∀ x : XTile, (t.lintel x).closed = true) ∧
        (∀ k, k < 2 ^ 64 → t.planAt k = none ∧ t.cellAt k = {} ∧ t.runningAt k = none) ∧ s.keptByResets t) ∧
      (s.ready = true → ∃ t, exec (.resetComputeRetrain p) s = .next t ∧ t.reset_ = some { width := 4, cause := 1, retrain := true } ∧ t.mainOn = s.mainOn ∧
        t.reg 0x2F10 0x04 = 4 ∧ t.reg 0x2F10 0x05 = 1 ∧ (∀ x : XTile, (t.lintel x).closed = true) ∧
        (∀ k, k < 2 ^ 64 → t.planAt k = none ∧ t.cellAt k = {} ∧ t.runningAt k = none) ∧ s.keptByResets t)) ∧
    (s.auxOk = false → ∃ t, exec .auxSupplyRise s = .next t ∧ t.auxOk = true ∧ t.reset_ = some { width := 6, cause := 0 } ∧
      t.reg 0x20F0 0x01 = 1 ∧ t.mainOn = false ∧ t.booted = false ∧ t.nmt = .initialising ∧ s.keptByResets t) ∧
    (∀ ns, 100 ≤ ns → s.auxOk = true → s.booted = true → s.resetFits 5 = true → ∃ t, exec (.hresetNLow ns) s = .next t ∧
      t.hresetLow = true ∧ t.reset_ = some { width := 5, cause := 2 } ∧ t.reg 0x20F0 0x01 = 3 ∧ t.mainOn = false ∧ t.reg 0x2F10 0x05 = 2 ∧
      s.keptByResets t) ∧
    ∃ t, exec .hresetNRise s = .next t ∧ t = { s with hresetLow := false }

/-- A compute reset, a partition reset and a context reset's wait end (R306, R447, R453, R454). -/
def Obligations.ResetsEnd : Prop :=
  ∀ s : State, s.Canonical → s.controllerDown = false →
    (∀ (ms : Nat) (r : ResetRun), s.reset_ = some r → r.width = 4 → s.microcodeThere = true →
      ∃ t, exec (.computeResetComplete ms) s = .next t ∧
      (∀ k : Stack, t.reg (0x4100 + k) 0x01 = (if s.reg (0x4100 + k) 0x01 = 3 then 1 else s.reg (0x4100 + k) 0x01) ∧
        (r.retrain = true → t.reg (0x4100 + k) 0x01 = 1 → s.romTable = false →
          t.reg (0x4100 + k) 0x02 = s.reg 0x2D00 0x01 ∧ t.reg (0x4100 + k) 0x03 = 1)) ∧
      (∀ x : XTile, t.lintel x = { s.lintel x with closed := (s.lintel x).coreReset || (s.lintel x).clockedReset }) ∧
      (∀ l, 128 ≤ l → t.lintel l = s.lintel l) ∧
      t = { s.reported t with reset_ := none, lintels := t.lintels } ∧
      ∀ k, (∀ j : Stack, ∀ i ∈ [0x01, 0x02, 0x03], k ≠ rk (0x4100 + j) i) → k ∉ reportKeys → t.regAt k = s.regAt k) ∧
    (∀ us mask structure_ : Nat, mask < 256 → structure_ < 8 → s.partResets = [partResetKey mask structure_ false] →
      ∃ t, exec (.partitionResetComplete us) s = .next t ∧ t.reg 0x2A10 0x01 = (s.reg 0x2A10 0x01 + 1) % 2 ^ 32 ∧
        (∀ x, t.xtile x = if (s.xtile x).orphan then { s.xtile x with rerouted := true } else s.xtile x) ∧
        t = { s.reported t with partResets := [], xtiles := t.xtiles } ∧ s.scalarsBut [rk 0x2A10 0x01] t) ∧
    (∀ c : Ctx, s.fence = none → (s.ctx c).resetWaiting = true → s.ctxState c = 2 →
      ∃ t, exec (.contextResetWaitEnd c) s = .next t ∧ t.ctx c = {} ∧
        (∀ j, 1 ≤ j → j < 0x40 → t.reg (0x2700 + c) j = regDefault (rk (0x2700 + c) j)) ∧
        (∀ i, i < 4096 → t.entryAt (c * 4096 + i) = 0) ∧ t.mem = s.mem ∧ s.ctxsBut t c ∧ s.keptByResets t)

/-- A context reset frees the context, and a tile reset clears its site (R441, R443, R447). -/
def Obligations.ContextAndTileResets : Prop :=
  ∀ s : State, s.Canonical → s.quiet → s.ctxs.all (fun e => !e.2.resetWaiting) = true →
    (∀ (p : Path) (c : Ctx), s.serves p = true → s.controllerDown = false → s.ctxState c ≠ 0 → s.reg (0x2700 + c) 0x0A = 0 →
      ∃ t, exec (.contextReset p c) s = .next t ∧ t.ctxState c = 0 ∧ t.ctx c = {} ∧ t.reg 0x2F10 0x04 = 2 ∧
        t.reg 0x2F10 0x05 = 1 ∧ (∀ i, i < 4096 → t.entryAt (c * 4096 + i) = 0) ∧
        (∀ x ∈ t.issue, x.packet.management = true ∨ x.packet.ctx ≠ c.val ∨ x.packet.typ = 0x02 ∧ x.packet.operand.testBit 16 = true) ∧
        s.keptByResets t) ∧
    (∀ (p : Path) (n : Site), s.serves p = true → s.controllerDown = false → s.isFenced n = false →
      ∃ t, exec (.tileReset p n) s = .next t ∧ t.reg 0x2F10 0x04 = 1 ∧ t.reg 0x2F10 0x05 = 1 ∧ t.runningAt n = none ∧
        t.reg (0x3000 + n) 0x70 = 0 ∧ t.reg (0x3000 + n) 0x71 = 0xFF ∧ (∀ i, i < 16384 → t.accAt (n * 16384 + i) = {}) ∧
        (∀ i, i < 16384 → t.vregAt (n * 16384 + i) = {}) ∧ t.mtile n = {} ∧ t.bondOf n = {} ∧
        (∀ l, s.tileOf n = some l → ∀ k, k < 4 → t.planAt (l * 4 + k) = none) ∧ s.keptByResets t)

/-- An uncorrectable error in a privileged structure resets the partition, a corrected one of a plan slot counts (R44, R218, R239, R286, R385, R454). -/
def Obligations.StructureErrorsResetThePartition : Prop :=
  ∀ (s : State) (mask : Nat), s.Canonical → s.quiet → mask ≠ 0 →
    (∀ r : Region, s.partitionOf r = mask →
      (∃ t, exec (.remapTableError r 0 true) s = .next t ∧ s.partitionStopped t mask 0) ∧
      (∀ (h : Fin 13) (b : Bool), h.val ≠ 0 → (fieldRegions (h - 1)).contains r.val = true →
        ∃ t, exec (.remapTableError r h b) s = .next t ∧ s.partitionStopped t mask 0) ∧
      ∀ c : Ctx, ∃ t, exec (.flagMapError c (.region r)) s = .next t ∧ s.partitionStopped t mask 3) ∧
    (∀ n : Site, s.partitionOf (siteRegion n) = mask →
      (∀ k : Fin 4, (∃ t, exec (.planSlotError n k false) s = .next t ∧ s.partitionStopped t mask 1) ∧
        ∃ t, exec (.planSlotError n k true) s = .next t ∧ t.slotFixesAt n = satAdd 32 (s.slotFixesAt n) 1 ∧
          (∀ m, m ≠ n.val → t.slotFixesAt m = s.slotFixesAt m) ∧ t = { s with slotFixes := t.slotFixes }) ∧
      ∃ t, exec (.routeTableError n) s = .next t ∧ s.partitionStopped t mask 2) ∧
    ∀ c : Ctx, s.partMask c = mask → mask < 256 →
      (∀ r, r < 8 → mask.testBit r = true → s.partitionOf r = mask) →
      ∃ t, exec (.flagMapError c .queueEngine) s = .next t ∧ s.partitionStopped t mask 3

/-- A fence request is queued, starts, changes the route tables and completes; a release is noted (R36, R45, R46, R47, R239, R392). -/
def Obligations.FencesQueueAndRun : Prop :=
  ∀ s : State, s.Canonical → s.controllerDown = false →
    (∀ (p : Path) (n : Site), s.serves p = true → s.isFenced n = false → (∀ g ∈ siteFields n, s.stewardUp g = true) →
      (∀ f ∈ s.fences ++ s.heldFences, f.site ≠ n.val) →
      ∃ t, exec (.fenceSite p n) s = .next t ∧ t.reg (0x3000 + n) 0xB4 = 0x01 ∧
        t = { s.answered t with regs := t.regs, evidence := t.evidence, fences := insertFence ⟨n, 0x01, none⟩ s.fences } ∧
        (∀ k, k ≠ rk (0x3000 + n) 0xB4 → k ≠ rk 0x2530 0x04 → t.regAt k = s.regAt k) ∧ t.out = s.out ++ [.dictDone p 0 0]) ∧
    (∀ (p : Path) (n : Site), s.serves p = true → n.val ∉ s.fuseSites → n.val ∉ s.releases → (∃ h ∈ s.health, h.site = n.val) →
      ∃ t, exec (.releaseSite p n) s = .next t ∧ t = { s.answered t with releases := s.releases ++ [n.val] } ∧
        t.out = s.out ++ [.dictDone p 0 0]) ∧
    (∀ (f : FenceReq) (rest : List FenceReq), s.ready = true → s.quiet → s.fences = f :: rest → f.site < 3264 → f.cause ≠ 0x07 →
      s.isFenced f.site = false → (∀ g ∈ siteFields f.site, s.stewardUp g = true) →
      ∃ t, exec (.fenceStart []) s = .next t ∧ t.fences = rest ∧ t.isFenced f.site = true ∧ t.fencedState f.site = 4 ∧
        t.runningAt f.site = none ∧ t.mtile f.site = {} ∧
        t.reg (0x2410 + siteRegion f.site) 0x1B = (s.reg (0x2410 + siteRegion f.site) 0x1B + 1) % 2 ^ 32 ∧
        t.injectStop = s.partitionOf (siteRegion f.site) ∧
        t.fence = some { req := f, linkDead := false, stopped := s.fenceStops (siteRegion f.site) } ∧
        t.health = s.health ∧ s.keptByResets t) ∧
    (∀ f : FenceRun, s.fence = some f → f.routed = false → s.orderedLeft = false →
      ∃ t, exec .routeTableUpdate s = .next t ∧ t.routeStateOf f.req.site = (if f.linkDead then 2 else 1) ∧
        t.reg 0x2A10 0x01 = (s.reg 0x2A10 0x01 + 1) % 2 ^ 32 ∧ (∀ n, n ≠ f.req.site → t.routeStateOf n = s.routeStateOf n) ∧
        (∀ x, t.xtile x = if (s.xtile x).orphan then { s.xtile x with rerouted := true } else s.xtile x) ∧
        t = { s with fence := some { f with routed := true }, injectStop := 0, regs := t.regs, routeState := t.routeState, xtiles := t.xtiles } ∧
        ∀ k, k ≠ rk 0x2A10 0x01 → t.regAt k = s.regAt k) ∧
    (∀ f : FenceRun, s.fence = some f → f.routed = true → f.stopped = [] → s.health.length < 256 → s.resetWaiting = none →
      s.partResets = [] → (∀ c : Ctx, (s.ctx c).resetWaiting = false ∧ (s.ctx c).switch = none) →
      (s.island (siteIsland f.req.site)).owed = 0 → (∀ g ∈ siteFields f.req.site, s.stewardUp g = true) →
      ∃ t, exec .fenceComplete s = .next t ∧ (∃ h ∈ t.health, h.site = f.req.site ∧ h.cause = f.req.cause) ∧
        (∀ h : HealthEntry, h.site ≠ f.req.site → (h ∈ t.health ↔ h ∈ s.health)) ∧
        t = { s.reported t with fence := none, health := t.health } ∧ s.scalarsBut [] t)

/-- Partition masks, suspicion scores, decisions and findings as commands set them (R51, R375, R391, R398). -/
def Obligations.PartitionsSuspicionAndFindings : Prop :=
  ∀ s : State, s.Canonical →
    (∀ p : Path, s.serves p = true → s.controllerDown = false →
      (∀ (k : Fin 8) (mask : Nat), mask = 0 ∨ isRectangle mask = true → s.maskFits k mask = true →
        ∃ t, exec (.partitionWrite p k mask) s = .next t ∧ t.reg 0x2430 (k + 1) = mask ∧ t = { s.answered t with regs := t.regs } ∧
          (∀ j, j ≠ rk 0x2430 (k + 1) → t.regAt j = s.regAt j) ∧ t.out = s.out ++ [.dictDone p 0 0]) ∧
      (∀ n : Site, 0 < s.reg 0x2530 0x01 → ∃ t, exec (.clearSiteSuspicion p n) s = .next t ∧ t.reg (0x3000 + n) 0xB0 = 0 ∧
        t.isCandidate n = false ∧ t = { s.answered t with regs := t.regs, candidates := t.candidates } ∧
        (∀ j, j ≠ rk (0x3000 + n) 0xB0 → t.regAt j = s.regAt j) ∧ ∀ m, m ≠ n.val → t.isCandidate m = s.isCandidate m) ∧
      (∀ v, v ≠ 0 → ∃ t, exec (.acknowledgeDecision p v) s = .next t ∧ t.reg 0x2500 0x07 = 0 ∧
        t = { s.answered t with regs := t.regs } ∧ ∀ j, j ≠ rk 0x2500 0x07 → t.regAt j = s.regAt j) ∧
      (∀ v, v ≠ 0 → s.findings.length ≤ 256 → ∃ t, exec (.closeAllFindings p v) s = .next t ∧
        t = { (s.reported t).answered t with findings := s.findings.map fun f => { f with isOpen := false } } ∧
        s.scalarsBut [] t)) ∧
    (s.controllerDown = false → ∃ t, exec .suspicionDecay s = .next t ∧
      (∀ n : Site, t.reg (0x3000 + n) 0xB0 = s.reg (0x3000 + n) 0xB0 - s.reg 0x2530 0x02 ∧
        (t.isCandidate n = true → s.isCandidate n = true) ∧
        (0 < s.reg (0x3000 + n) 0xB0 → t.reg (0x3000 + n) 0xB0 < s.reg 0x2530 0x01 → t.isCandidate n = false)) ∧
      t = { s with regs := t.regs, candidates := t.candidates } ∧
      ∀ j, (∀ n : Site, j ≠ rk (0x3000 + n) 0xB0) → t.regAt j = s.regAt j)

/-- A vote starts on its referee, or ends unresolved without one, and its verdict reaches the tile (R374, R377, R378, R379, R380). -/
def Obligations.VotesDecide : Prop :=
  ∀ (s : State) (n : Site), s.Canonical → s.controllerDown = false → s.stewardUp (siteField n) = true →
    (∀ rest : List Nat, s.votesWaiting = n.val :: rest → n.val ∉ rest → (s.mtile n).dispute.isSome = true →
      (∀ (r : Nat) (b : Bool), s.refereeFor n = some (r, b) → (∀ v ∈ s.votes, v.referee ≠ r) →
        ∃ t, exec (.voteStart n) s = .next t ∧ t.reg 0x2540 0x01 = satAdd 64 (s.reg 0x2540 0x01) 1 ∧
          t.reg 0x2540 0x05 = (if b then satAdd 64 (s.reg 0x2540 0x05) 1 else s.reg 0x2540 0x05) ∧
          t = { s.reported t with votesWaiting := rest, votes := s.votes ++ [⟨n, r, b⟩] } ∧
          s.scalarsBut [rk 0x2540 0x01, rk 0x2540 0x05] t) ∧
      (s.refereeFor n = none → ∃ t, exec (.voteStart n) s = .next t ∧
        t.mtile n = { s.mtile n with dispute := (s.mtile n).dispute.map fun d => { d with verdict := some .unresolved } } ∧
        t.reg 0x2540 0x04 = satAdd 64 (s.reg 0x2540 0x04) 1 ∧ (∀ m, m ≠ n.val → t.mtile m = s.mtile m) ∧
        t = { s.reported t with votesWaiting := rest, mtiles := t.mtiles } ∧
        s.scalarsBut [rk 0x2540 0x04, rk (0x3000 + n) 0xB3] t)) ∧
    (∀ (v : Vote) (d : Dispute) (o : RefereeOutcome), s.votes.find? (fun w => decide (w.site = n.val)) = some v →
      (s.mtile n).dispute = some d → s.stewardUp (siteField v.referee) = true → o.sequencerMismatch = false →
      (verdictOf d o (s.mtile v.referee).halted = .main → ∃ t, exec (.voteVerdict n o) s = .next t ∧
        t.mtile n = { s.mtile n with dispute := some { d with verdict := some .main } } ∧
        t.reg 0x2540 0x02 = satAdd 64 (s.reg 0x2540 0x02) 1 ∧
        t.reg (0x3000 + n) 0xB0 = min 1000 (s.reg (0x3000 + n) 0xB0 + 150) ∧
        t.votes = s.votes.filter (fun w => decide (w.site ≠ n.val)) ∧
        t.mem = s.mem ∧ t.ctxs = s.ctxs ∧ t.running = s.running ∧ ∀ m, m ≠ n.val → t.mtile m = s.mtile m) ∧
      (verdictOf d o (s.mtile v.referee).halted = .checker → ∃ t, exec (.voteVerdict n o) s = .next t ∧
        t.mtile n = { s.mtile n with dispute := some { d with verdict := some .checker } } ∧
        t.reg 0x2540 0x03 = satAdd 64 (s.reg 0x2540 0x03) 1 ∧
        t.reg (0x3000 + n) 0xB0 = min 1000 (s.reg (0x3000 + n) 0xB0 + 300) ∧
        t.votes = s.votes.filter (fun w => decide (w.site ≠ n.val)) ∧
        t.mem = s.mem ∧ t.ctxs = s.ctxs ∧ t.running = s.running ∧ ∀ m, m ≠ n.val → t.mtile m = s.mtile m))

/-- Stewards and the controller stop and restart, and the health index follows its table (R386, R387, R388, R399, R401). -/
def Obligations.StewardsAndControllerStopAndRestart : Prop :=
  ∀ s : State, s.Canonical →
    (∀ f : FieldNo, s.stewardUp f = true → s.controllerDown = false → s.bringingUp = false →
      ∃ t, exec (.stewardDisagree f) s = .next t ∧ t.reg (0x4080 + f) 0x20 = 1 ∧ t.selfCal = false ∧
        (if s.reg 0x2520 0x01 = 1 ∧ s.autoRestarts f < s.reg 0x2520 0x03 then
          t.reg (0x4080 + f) 0x21 = 2 ∧ (f.val, s.now) ∈ t.restartTimes
         else t.reg (0x4080 + f) 0x21 = 1 ∧ (t.reg 0x2500 0x07).testBit 1 = true ∧ t.restartTimes = s.restartTimes) ∧
        ((∀ v ∈ s.votes, siteField v.referee ≠ f) →
          t = { s.reported t with restartTimes := t.restartTimes, selfCal := false, free := t.free } ∧
          s.scalarsBut [rk (0x4080 + f) 0x20, rk (0x4080 + f) 0x21, rk 0x2500 0x07] t)) ∧
    (∀ (p : Path) (f : FieldNo), s.serves p = true → s.controllerDown = false → s.reg (0x4080 + f) 0x21 = 1 →
      ∃ t, exec (.restartSteward p f) s = .next t ∧ t.reg (0x4080 + f) 0x21 = 2 ∧
        ((∀ g : FieldNo, g ≠ f → s.reg (0x4080 + g) 0x21 ≠ 1) → (t.reg 0x2500 0x07).testBit 1 = false) ∧
        t = { s.answered t with regs := t.regs, restartTimes := t.restartTimes } ∧
        ∀ j, j ≠ rk (0x4080 + f) 0x21 → j ≠ rk 0x2500 0x07 → t.regAt j = s.regAt j) ∧
    (∀ f : FieldNo, s.reg (0x4080 + f) 0x21 = 2 → s.controllerDown = false → s.heldResults = [] →
      (∀ i ∈ fieldIslands f, (s.island i).offHeld = false) →
      ∃ t, exec (.stewardRestartComplete f) s = .next t ∧ t.reg (0x4080 + f) 0x20 = 0 ∧ t.reg (0x4080 + f) 0x21 = 0 ∧
        t.reg (0x4080 + f) 0x22 = satAdd 32 (s.reg (0x4080 + f) 0x22) 1 ∧ t.reg 0x2420 0x03 = t.heldFences.length ∧
        (∀ x ∈ t.heldFences, (siteFields x.site).all t.stewardUp = false) ∧
        (∀ x ∈ s.heldFences, x ∈ t.fences ∨ x ∈ t.heldFences) ∧
        (∀ n, t.idleAt n = if s.idleAt n = 2 ∧ siteField n = f ∧ s.offerHeld n = false then 1 else s.idleAt n) ∧
        t = { s.reported t with fences := t.fences, heldFences := t.heldFences, idle := t.idle } ∧
        s.scalarsBut [rk (0x4080 + f) 0x20, rk (0x4080 + f) 0x21, rk (0x4080 + f) 0x22, rk 0x2420 0x03] t) ∧
    (s.booted = true → ∃ t, exec .controllerDisagree s = .next t ∧ t = { s with controllerDown := true }) ∧
    (s.controllerDown = true → s.heldResults = [] → s.heldPolicies = [] → (∀ f : FieldNo, s.reg (0x4080 + f) 0x21 ≠ 1) →
      ∃ t, exec .controllerRestartComplete s = .next t ∧ t.heldEvents = [] ∧
        (∃ last, last.length ≤ 1 ∧ t.raised = s.raised ++ s.heldEvents ++ last) ∧
        t = { s.reported t with controllerDown := false } ∧ s.scalarsBut [] t) ∧
    (s.controllerDown = false → ∃ t, exec .healthIndexRecompute s = .next t ∧ t.reg 0x2530 0x03 = 1000 - s.deductions ∧
      t.reg 0x2530 0x05 = s.confidence ∧ t.reg 0x2530 0x06 = s.recommend (1000 - s.deductions) ∧
      t = { s.reported t with evidence := t.evidence } ∧
      s.scalarsBut [rk 0x2530 0x03, rk 0x2530 0x04, rk 0x2530 0x05, rk 0x2530 0x06] t)

/-- Islands turn on, ramp, and go off; a phase fails; a group is paced; the minimum records reset (R350, R352, R353, R359, R360). -/
def Obligations.IslandsRampAndGoOff : Prop :=
  ∀ (s : State) (i : Island), s.Canonical → s.mainOn = true → s.islandHeld i = false →
    (∀ p : Path, s.serves p = true → s.powered 4 = true →
      (s.islandState i = 0 → s.fieldsOff.testBit (islandField i) = false → ∃ t, exec (.islandPowerOn p i) s = .next t ∧ t.islandState i = 1 ∧
        t.island i = { dark := (s.island i).dark, owed := (s.island i).owed } ∧ (∀ j, j ≠ i.val → t.island j = s.island j) ∧
        t = { s.answered t with regs := t.regs, islands := t.islands } ∧ ∀ k, k ≠ rk (0x4000 + i) 0x01 → t.regAt k = s.regAt k) ∧
      (s.islandUp i = true → s.inPartition (islandRegion i) = false → ∃ t, exec (.islandPowerOff p i) s = .next t ∧
        t.islandState i = 0 ∧ t.island i = { dark := (s.island i).dark, owed := (s.island i).owed } ∧ (∀ j, j ≠ i.val → t.island j = s.island j) ∧
        (∀ n ∈ islandSites i, t.runningAt n = none ∧ t.mtile n = {} ∧ t.bondOf n = { stopped := (s.bondOf n).stopped }) ∧ t.ctxs = s.ctxs ∧ s.keptByResets t)) ∧
    (∀ draw : List GroupDraw, s.islandState i = 1 →
      (s.rampLate i = false → s.rampTurn i = true → s.busyNeighbour i draw = none →
        ∃ t, exec (.rampCheck i draw) s = .next t ∧ t.islandState i = 2 ∧
        t.island i = { s.island i with half := false, waitedUs := 0, slew := 10 * s.reg 0x2220 0x01 } ∧ (∀ j, j ≠ i.val → t.island j = s.island j) ∧
        t = { s with regs := t.regs, islands := t.islands } ∧ ∀ k, k ≠ rk (0x4000 + i) 0x01 → t.regAt k = s.regAt k) ∧
      (s.rampLate i = false → (s.busyNeighbour i draw).isSome = true → ∃ t, exec (.rampCheck i draw) s = .next t ∧
        t.island i = { s.island i with waitedUs := (s.island i).waitedUs + 10 } ∧
        (∀ j, j ≠ i.val → t.island j = s.island j) ∧ t = { s with islands := t.islands }) ∧
      (s.rampLate i = true → s.rampTurn i = true → ∃ t, exec (.rampWaitLimit i draw) s = .next t ∧ exec (.rampCheck i draw) s = .next t ∧
        t.islandState i = 2 ∧
        t.island i = { s.island i with half := true, waitedUs := 0, slew := 5 * s.reg 0x2220 0x01 } ∧ (∀ j, j ≠ i.val → t.island j = s.island j) ∧
        t = { s.reported t with islands := t.islands } ∧ s.scalarsBut [rk (0x4000 + i) 0x01] t)) ∧
    (∀ lo hi us : Nat, s.islandState i = 2 → s.rampLong i us = true → s.targetOf i ≤ lo + 10 → hi ≤ s.targetOf i + 10 →
      ∃ t, exec (.islandRampDone i lo hi us) s = .next t ∧ t.islandState i = 3 ∧ t.reg (0x4000 + i) 0x03 = s.targetOf i ∧
        t = s.reported t ∧ s.scalarsBut [rk (0x4000 + i) 0x01, rk (0x4000 + i) 0x03] t) ∧
    (∀ (g : Fin 6) (k : Fin 8) (kind : PhaseFaultKind), s.failedPhases i g = 0 →
      (s.reg (0x4000 + i) 0x0B).testBit (8 * g + k) = false → ∃ t, exec (.phaseFault i g k kind) s = .next t ∧
        t.reg (0x4000 + i) 0x0B = setBit (s.reg (0x4000 + i) 0x0B) (8 * g + k) ∧ t = s.reported t ∧
        s.scalarsBut [rk (0x4000 + i) 0x0B] t) ∧
    (∀ (g : Fin 6) (a : Nat), s.islandUp i = true → s.groupDark i g = false → s.groupLimit i g ≤ a →
      (s.island i).hold.length = 6 → ∃ t, exec (.pacingTick i g a) s = .next t ∧
        (t.island i).hold.getD g 0 = min 16 (max s.minHold ((s.island i).hold.getD g 0) + 1) ∧
        t.reg (0x4000 + i) 0x10 = satAdd 64 (s.reg (0x4000 + i) 0x10) ((t.island i).hold.getD g 0 * 1000 / 16) ∧
        (∀ j, j ≠ i.val → t.island j = s.island j) ∧ t = { s.reported t with islands := t.islands } ∧
        s.scalarsBut [rk (0x4000 + i) 0x10] t) ∧
    (∀ (p : Path) (v : Nat), s.serves p = true → v ≠ 0 → ∃ t, exec (.resetMinimumRecords p v) s = .next t ∧
      (∀ sub ∈ [0x05, 0x06, 0x07], t.reg 0x2200 sub = regDefault (rk 0x2200 sub) ∧
        ∀ j : Island, t.reg (0x4000 + j) sub = regDefault (rk (0x4000 + j) sub)) ∧
      t = { s.answered t with regs := t.regs } ∧ (∀ sub, sub < 0x05 ∨ 0x07 < sub → sub < 256 → t.reg 0x2200 sub = s.reg 0x2200 sub))

/-- Regulator and beat-rate samples, the power manager's period, the thermal cap and the offer hold (R349, R357, R358, R361, R362, R365, R366). -/
def Obligations.PowerIsSampledAndShared : Prop :=
  ∀ (s : State) (i : Island), s.Canonical → s.mainOn = true →
    (s.islandUp i = true → s.islandHeld i = false →
      (∀ r : RegulatorReading, ∃ t, exec (.regulatorSample i r) s = .next t ∧ t.reg (0x4000 + i) 0x08 = min 65535 r.amps ∧
        t.reg (0x4000 + i) 0x03 = t.targetOf i ∧ (∀ j, j ≠ i.val → t.island j = s.island j) ∧
        t = { s.reported t with islands := t.islands } ∧ t.reg 0x20F0 0x01 = s.reg 0x20F0 0x01) ∧
      (∀ hottest : Int, (s.reg 0x2300 0x01 : Int) ≤ hottest → ∃ t, exec (.thermalCapStep i hottest) s = .next t ∧
        t.island i = { s.island i with capped := true, capPct := (s.island i).capPct - 5, cool := 0 } ∧
        t.reg (0x4000 + i) 0x0D = unsigned 16 hottest ∧ (∀ j, j ≠ i.val → t.island j = s.island j) ∧
        t = { s.reported t with islands := t.islands } ∧ s.scalarsBut [rk (0x4000 + i) 0x0D] t)) ∧
    (s.islandUp i = true → ∀ rate : Nat, ∃ t, exec (.beatRateMeasure i rate) s = .next t ∧
      t.reg (0x4000 + i) 0x0C = min 65535 rate ∧
      (s.islandState i = 3 → t.reg 0x2310 0x01 ≤ min 65535 rate ∧ min 65535 rate ≤ t.reg 0x2310 0x02) ∧
      t = s.reported t ∧ s.scalarsBut [rk (0x4000 + i) 0x0C, rk 0x2310 0x01, rk 0x2310 0x02] t) ∧
    (∀ m : PowerReadings, s.controllerDown = false → ∃ t, exec (.budgetPeriod m) s = .next t ∧
      t.reg 0x2200 0x04 = max (s.reg 0x2200 0x04) (min 65535 m.mean10msW) ∧ t.reg 0x2210 0x04 = min 65535 t.lent ∧
      (∀ j : Island, s.islandUp j = true → s.islandHeld j = false → t.reg (0x4000 + j) 0x09 =
        min 65535 ((s.effectiveBudget - m.hbmW - m.quoinW - m.converterW - max (m.mean10msW - 14000) (m.mean1sW - s.effectiveBudget))
          / ((List.range 24).filter s.islandUp).length)) ∧
      (∀ j : Island, (t.island j).pool = s.poolOf m j) ∧
      t.due.map (fun d => { d with power := none }) = s.due.map (fun d => { d with power := none }) ∧
      t = { s.reported t with loans := t.loans, islands := t.islands, due := t.due, free := t.free }) ∧
    ∀ n : Site, ∃ t, exec (.offerHoldExpire n) s = .next t ∧ t.offerHeld n = false ∧
      t.idleAt n = (if s.idleAt n = 2 ∧ s.powerHeld (siteField n) = false then 1 else s.idleAt n) ∧
      (∀ m, m ≠ n.val → t.offerHeld m = s.offerHeld m ∧ t.idleAt m = s.idleAt m) ∧
      t = { s with offerHold := t.offerHold, idle := t.idle }

/-- A thermal trip, a bad input and a failing auxiliary supply take main power off (R355, R367, R478). -/
def Obligations.ProtectionsSwitchOff : Prop :=
  ∀ s : State, s.Canonical → s.mainOn = true →
    (∀ (i : Island) (hottest : Int), 115 ≤ hottest → s.reg 0x20F0 0x01 ≠ 0x0D → ∃ t, exec (.thermalTrip i hottest) s = .next t ∧ t.mainOn = false ∧
      t.reg 0x20F0 0x01 = 0x0E ∧ t.reset_ = none ∧ (∀ j : Island, t.islandState j = 4) ∧
      (∀ c : Ctx, s.ctxRuns c = true → t.ctxState c = 2) ∧ t.issue = [] ∧ s.keptByResets t) ∧
    (∀ mV w : Nat, mV < 36000 → 99 ≤ s.input.low → s.reg 0x20F0 0x01 ≠ 0x0D → ∃ t, exec (.inputVoltageSample mV w) s = .next t ∧ t.mainOn = false ∧
      t.reg 0x20F0 0x01 = 0x0E ∧ t.reset_ = none ∧ t.reg 0x2200 0x02 = mV ∧
      (∀ c : Ctx, s.ctxRuns c = true → t.ctxState c = 2) ∧ s.keptByResets t) ∧
    (∀ mV w : Nat, 40000 ≤ mV → mV ≤ 60000 → s.ready = true → ∃ t, exec (.inputVoltageSample mV w) s = .next t ∧
      t.reg 0x2200 0x02 = mV ∧ t.reg 0x2200 0x03 = min w 65535 ∧
      t = { s with regs := t.regs, input := { low := 0, good := s.input.good + 1, under := false } } ∧
      ∀ k, k ≠ rk 0x2200 0x02 → k ≠ rk 0x2200 0x03 → t.regAt k = s.regAt k) ∧
    (s.auxOk = true → ∃ t, exec .auxSupplyFail s = .next t ∧ t.auxOk = false ∧ t.mainOn = false ∧ t.booted = false ∧
      t.controllerDown = false ∧ t.heldEvents = [] ∧ t.reset_ = none ∧ t.fence = none ∧
      (s.booted = true → s.controllerDown = false → t.raised = []) ∧ t.licence = s.licence ∧ t.firmware = s.firmware ∧
      t.dumpFlash = s.dumpFlash)

/-- Canary margins are recorded, and a re-plan sets the ageing offsets (R369, R371, R397). -/
def Obligations.AgeingIsFollowed : Prop :=
  ∀ s : State, s.Canonical →
    (∀ (n : Site) (margin : Nat), s.mainOn = true → s.islandUp (siteIsland n) = true →
      (s.reg 0x2320 0x04 ≤ min 127 margin → ∃ t, exec (.canaryAlarm n margin) s = .next t ∧
        t.reg (0x3000 + n) 0xA1 = min 127 margin ∧ t.reg (0x3000 + n) 0xA2 = min (min 127 margin) (s.reg (0x3000 + n) 0xA2) ∧
        t = { s with regs := t.regs } ∧
        ∀ k, k ≠ rk (0x3000 + n) 0xA1 → k ≠ rk (0x3000 + n) 0xA2 → t.regAt k = s.regAt k) ∧
      (min 127 margin < s.reg 0x2320 0x04 → s.limitAt (0x2003 * 2 ^ 32 + n) ≠ s.now / hour + 1 → s.findings.length ≤ 256 →
        ∃ t, exec (.canaryAlarm n margin) s = .next t ∧ t.reg (0x3000 + n) 0xA1 = min 127 margin ∧
        t.limitAt (0x2003 * 2 ^ 32 + n) = s.now / hour + 1 ∧
        t.findings.getLast? = some ⟨n, 0, s.hottest (siteIsland n) % 256, 0, true, s.now⟩ ∧
        t.mem = s.mem ∧ t.ctxs = s.ctxs ∧ t.islands = s.islands)) ∧
    (∀ (p : Path) (v : Nat), s.serves p = true → s.controllerDown = false → v ≠ 0 → s.romTable = false →
      ∃ t, exec (.replanStart p v) s = .next t ∧ t = { s.answered t with replanning := true } ∧ t.out = s.out ++ [.dictDone p 0 0]) ∧
    (s.reg 0x2320 0x02 ≠ 0 → s.mainOn = true → s.romTable = false → s.controllerDown = false →
      ∃ t, exec .replanPeriod s = .next t ∧ t = { s with replanning := true }) ∧
    (∀ (margins : List (Site × Nat)) (points : List (Site × Nat × Int)), s.replanning = true → s.controllerDown = false →
      (∀ i : Island, s.islandHeld i = false) → ∃ t, exec (.replanComplete margins points) s = .next t ∧ t.reg 0x2320 0x05 = s.now ∧
        (∀ (i : Island) (ms : List (Nat × Nat)), ms = s.referenceMargins margins points i →
          (∀ low new, lowestReading ms = some low → new = newOffset (s.reg 0x2320 0x03) low.2 (s.reg (0x4000 + i) 0x04) →
            t.reg (0x4000 + i) 0x04 = new ∧ t.reg (0x4000 + i) 0x0E = s.ageingOf ms ∧
            t.island i = { s.island i with offsetLeft := if s.islandUp i then (s.island i).offsetLeft + new - s.reg (0x4000 + i) 0x04 else 0 }) ∧
          (ms = [] → t.reg (0x4000 + i) 0x04 = s.reg (0x4000 + i) 0x04 ∧ t.reg (0x4000 + i) 0x0E = s.reg (0x4000 + i) 0x0E ∧
            t.island i = s.island i)) ∧
        t = { s.reported t with replanning := false, islands := t.islands, cal := t.cal } ∧
        ∀ k, (∀ i : Island, k ≠ rk (0x4000 + i) 0x04 ∧ k ≠ rk (0x4000 + i) 0x0E) → k ≠ rk 0x2320 0x05 → k ∉ reportKeys →
          t.regAt k = s.regAt k)

/-- Each bring-up step ends in the next, recovery or a halt, and the last leaves a ready device (R421, R422, R423, R424, R426, R427, R428, R429, R359). -/
def Obligations.BringUpAdvances : Prop :=
  ∀ (s : State) (r : StepReport) (x : ResetRun), s.Canonical → s.auxOk = true → s.reset_ = some x → x.width = 5 ∨ x.width = 6 →
    s.resetWaiting = none → s.controllerDown = false → (∀ f : FieldNo, s.reg (0x4080 + f) 0x21 ≠ 2) →
    (s.reg 0x20F0 0x01 = 1 → ∀ k, (k = s.reg 0x2030 0x02 % 2 ∧ (s.copy k).good = true ∨
        k = 1 - s.reg 0x2030 0x02 % 2 ∧ (s.copy k).good = true ∧ (s.copy (1 - k)).good = false) →
      ∃ t, exec (.bringUpStepEnd r) s = .next t ∧ t.booted = true ∧ t.reg 0x2030 0x03 = k ∧ t.nmt = .preOperational ∧
        t.nodeId = s.reg 0x2E30 0x01 ∧ Output.nmtBoot ∈ t.out ∧ t.reg 0x20F0 0x01 = 2 ∧
        t = { s.reported t with booted := true, dr := t.dr, nodeId := t.nodeId, nmt := .preOperational, reset_ := some { x with latched := 0 } }) ∧
    (s.reg 0x20F0 0x01 = 1 → (s.copy 0).good = false → (s.copy 1).good = false →
      ∃ t, exec (.bringUpStepEnd r) s = .next t ∧ t.recovery = true ∧ t.reset_ = none ∧ t.reg 0x20F0 0x01 = 0x0F ∧
        t.reg 0x2030 0x03 = 0xFF ∧ t.booted = s.booted ∧ t.nmt = .preOperational ∧ s.keptByResets t) ∧
    (s.reg 0x20F0 0x01 = 2 → ∃ t, exec (.bringUpStepEnd r) s = .next t ∧ t.reg 0x20F0 0x01 = 3 ∧ t.cal = s.cal ∧ s.keptByResets t) ∧
    (s.reg 0x20F0 0x01 = 3 → 40000 ≤ r.inputMv → r.inputMv ≤ 60000 → s.pinHolds = false →
      ∃ t, exec (.bringUpStepEnd r) s = .next t ∧ t.reg 0x20F0 0x01 = 4 ∧ t.mainOn = true ∧ t.reg 0x2200 0x02 = r.inputMv ∧
        (∀ i : Island, s.fieldsOff.testBit (islandField i) = false → t.islandState i = 1) ∧ s.keptByResets t) ∧
    (s.reg 0x20F0 0x01 = 3 → r.inputMv < 40000 ∨ 60000 < r.inputMv ∨ s.pinHolds = true →
      ∃ t, exec (.bringUpStepEnd r) s = .next t ∧ t = s) ∧
    (∀ k ∈ [4, 5, 6, 8, 9], s.reg 0x20F0 0x01 = k →
      (k = 4 → ∀ i : Island, s.stewardUp (islandField i) = true → s.islandState i = 0 ∨ s.islandState i = 3) →
      ∃ t, exec (.bringUpStepEnd r) s = .next t ∧ t.reg 0x20F0 0x01 = k + 1 ∧ t.mainOn = s.mainOn ∧
        (k = 6 → t.latched = s.reg 0x2D00 0x01) ∧ (k = 8 → t.latched = s.reg 0x2600 0x01) ∧ s.keptByResets t) ∧
    (∀ i : Island, s.reg 0x20F0 0x01 = 4 → s.stewardUp (islandField i) = true → s.islandState i = 1 ∨ s.islandState i = 2 →
      ∃ t, exec (.bringUpStepEnd r) s = .next t ∧ t = s) ∧
    (s.reg 0x20F0 0x01 = 7 → s.partResets = [] → s.ctxs.all (fun e => !e.2.resetWaiting) = true →
      ∃ t, exec (.bringUpStepEnd r) s = .next t ∧ t.reg 0x20F0 0x01 = (if x.width = 5 then 9 else 8) ∧
        t.mainOn = s.mainOn ∧ s.keptByResets t) ∧
    (∀ m, s.reg 0x20F0 0x01 = 10 → r.mismatch = some m → ∃ t, exec (.bringUpStepEnd r) s = .next t ∧
      t.reg 0x20F0 0x01 = 0x0D ∧ t = { s.reported t with reset_ := none } ∧ s.scalarsBut [rk 0x20F0 0x01] t) ∧
    (s.reg 0x20F0 0x01 = 10 → r.mismatch = none → ∃ t, exec (.bringUpStepEnd r) s = .next t ∧ t.reg 0x20F0 0x01 = 11 ∧
      t.mainOn = s.mainOn ∧ s.keptByResets t) ∧
    (s.reg 0x20F0 0x01 = 11 → r.failedMicrocode = [] → s.microcodeFailed = [] → s.microcodeThere = true → ∃ t, exec (.bringUpStepEnd r) s = .next t ∧ t.ready = true ∧ t.reset_ = none ∧
      t.reg 0x20F0 0x03 = min r.ms (2 ^ 32 - 1) ∧ t.reg 0x20F0 0x04 = satAdd 32 (s.reg 0x20F0 0x04) 1 ∧
      (s.nmt = .preOperational → t.nmt = .operational) ∧ t.mainOn = s.mainOn ∧ s.keptByResets t)

/-- The calibration set is replaced and erased, self-calibration starts, stops and ends, and a licence is removed (R434, R436, R437, R439). -/
def Obligations.CalibrationAndLicence : Prop :=
  ∀ s : State, s.Canonical → s.controllerDown = false →
    (∀ p : Path, s.serves p = true →
      (∀ bs : List Byte, calLengthOk bs.length = true → (calWriteCommand bs).code s 0x2100 0x01 = 0 →
        ∃ t, exec (.calibrationSetWrite p bs) s = .next t ∧ t = { (s.reported t).answered t with calNext := s.setOf bs } ∧
          s.scalarsBut [] t) ∧
      (∀ v, v ≠ 0 → s.calFree = true → ∃ t, exec (.calibrationErase p v) s = .next t ∧
        t = { (s.reported t).answered t with calNext := some { origin := 3, valid := 0 } } ∧ s.scalarsBut [] t) ∧
      (∀ v, v ≠ 0 → s.beforeReady = false → s.selfCal = false → s.selfCalRefusal = none → ∃ t, exec (.selfCalibrationStart p v) s = .next t ∧
        t = { (s.reported t).answered t with selfCal := true } ∧ s.scalarsBut [] t) ∧
      (∀ v x, v ≠ 0 → s.beforeReady = true → s.reset_ = some x → ∃ t, exec (.selfCalibrationStart p v) s = .next t ∧
        t = { s.answered t with reset_ := some { x with selfCal := true } } ∧ t.out = s.out ++ [.dictDone p 0 0]) ∧
      (∀ v, v ≠ 0 → s.selfCal = true → ∃ t, exec (.selfCalibrationStop (.command p v)) s = .next t ∧
        t = { (s.reported t).answered t with selfCal := false, free := s.free + 1 } ∧ s.scalarsBut [] t) ∧
      (∀ v, v ≠ 0 → ∃ t, exec (.licenceRemove p v) s = .next t ∧ t.reg 0x2010 0x03 = 0 ∧ t.reg 0x2010 0x04 = 0 ∧
        t = { s.answered t with regs := t.regs, licence := [] } ∧
        ∀ k, k ≠ rk 0x2010 0x03 → k ≠ rk 0x2010 0x04 → t.regAt k = s.regAt k)) ∧
    (s.selfCal = true → ∃ t, exec (.selfCalibrationStop .heat) s = .next t ∧
      t = { s.reported t with selfCal := false, free := s.free + 1 } ∧ s.scalarsBut [] t) ∧
    (∀ sections, s.selfCal = true → ∃ t, exec (.selfCalibrationComplete sections) s = .next t ∧ t.cal.valid = 15 ∧
      t.cal.origin = 2 ∧ t.cal.serial = s.fuseSerial ∧ t.cal.written = s.now ∧ t.reg 0x2100 0x03 = 15 ∧
      (∀ i : Island, t.reg (0x4000 + i) 0x04 = 0 ∧ t.reg (0x4000 + i) 0x0E = 0) ∧
      t = { s.reported t with selfCal := false, cal := t.cal, calNext := none, phyStale := 0, free := s.free + 1 })

/-- Slices are requested, start, end, run out of budget, come late and are cancelled (R403, R404, R405, R409, R410, R412, R413, R414, R415, R416). -/
def Obligations.SlicesRunAndAreLogged : Prop :=
  ∀ s : State, s.Canonical → s.controllerDown = false →
    (∀ p : Path, s.serves p = true →
      (∀ w sites dl, bits w 60 58 < 5 → bits w 57 46 < scopeSize (bits w 60 58) →
        sites = scopeSites (bits w 60 58) (bits w 57 46) → dl = s.now + bits w 31 0 * 1000000 →
        (∃ t, exec (.selfTestLogic p w) s = .next t ∧
          t = { s.answered t with due := sites.foldl (fun ds n => addDue ds n .logic dl) s.due }) ∧
        (∃ t, exec (.selfTestMemory p w) s = .next t ∧
          t = { s.answered t with due := sites.foldl (fun ds n => addDue ds n .memory dl) s.due }) ∧
        ∃ t, exec (.selfTestLogicMemory p w) s = .next t ∧
          t = { s.answered t with due := sites.foldl (fun ds n => addDue (addDue ds n .logic dl) n .memory dl) s.due }) ∧
      (∀ v, v ≠ 0 → ∃ t, exec (.cancelSlices p v) s = .next t ∧ t = { (s.reported t).answered t with due := [] } ∧
        s.scalarsBut [] t) ∧
      (∀ (i : Island) (v : Nat), (saveAreaCommand i v).code s 0x2601 (i + 1) = 0 → ∃ t, exec (.saveAreaWrite p i v) s = .next t ∧
        t.reg 0x2601 (i + 1) = v &&& 0x8FFF0007 ∧ t = { s.answered t with regs := t.regs } ∧
        ∀ k, k ≠ rk 0x2601 (i + 1) → t.regAt k = s.regAt k)) ∧
    (∀ (n : Site) (k : SliceKind) (d : DueSlice), s.mainOn = true → s.due.find? (fun e => decide (e.site = n.val ∧ e.kind = k)) = some d →
      s.holdReason n d.power.isSome = 0 → s.turnTaken n k = false → ∃ t, exec (.sliceStart n k) s = .next t ∧ s.slicing n = false ∧
        (∃ x ∈ t.slices, x.site = n.val ∧ x.kind = k ∧ x.power = d.power) ∧ t.due = s.due.filter (fun e => !decide (e.site = n.val ∧ e.kind = k)) ∧
        t = { s with due := t.due, slices := t.slices }) ∧
    (∀ (n : Site) (x : RunSlice) (r : SliceReport), s.slices.find? (fun y => decide (y.site = n.val)) = some x →
      s.stewardUp (siteField n) = true → r.site = n → r.unfixable = [] → s.resultLog.length ≤ 1024 → s.noSections →
      (r.pass = true → ∃ t, exec (.sliceEnd n r) s = .next t ∧ t.slicing n = false ∧
        t.resultLog.head? = some (resultWords s.now r.temperature { r with kind := sliceKindCode x.kind, block := 0, pattern := 0, chain := 0, position := 0, bitNo := 0, signature := 0 } 0 0) ∧
        t.reg (0x3000 + n) 0xC0 = 0 ∧ t.reg (0x3000 + n) 0xC1 = s.now ∧
        t.reg (0x3000 + n) 0xC2 = satAdd 32 (s.reg (0x3000 + n) 0xC2) 1 ∧
        t = { s with regs := t.regs, slices := t.slices, resultLog := t.resultLog, evidence := t.evidence, sliceTimes := t.sliceTimes, heldResults := t.heldResults } ∧
        ∀ k, k ∉ [rk (0x3000 + n) 0xC0, rk (0x3000 + n) 0xC1, rk (0x3000 + n) 0xC2, rk 0x2610 0x02, rk 0x2530 0x04] → t.regAt k = s.regAt k) ∧
      (r.pass = false → s.isFenced n = false → ∃ t, exec (.sliceEnd n r) s = .next t ∧ t.slicing n = false ∧
        t.resultLog.head? = some (resultWords s.now r.temperature (shownReport { r with kind := sliceKindCode x.kind, pattern := 0 } 1) 1 0) ∧
        t.reg (0x3000 + n) 0xC0 = 1 ∧ t.reg (0x3000 + n) 0xC3 = satAdd 32 (s.reg (0x3000 + n) 0xC3) 1 ∧
        t.reg (0x3000 + n) 0xB0 = 1000 ∧ t.mem = s.mem ∧ t.ctxs = s.ctxs)) ∧
    (∀ (n : Site) (x : RunSlice) (phase : Fin 3), s.slices.find? (fun y => decide (y.site = n.val)) = some x →
      s.stewardUp (siteField n) = true → s.noSections → ∃ t, exec (.sliceBudgetExpire n { phase := phase }) s = .next t ∧ t.slicing n = false ∧
        t.reg (0x3000 + n) 0xC0 = 2 ∧
        t = { s.reported t with slices := t.slices, resultLog := t.resultLog, heldResults := t.heldResults } ∧
        s.scalarsBut [rk (0x3000 + n) 0xC0, rk (0x3000 + n) 0xC1, rk 0x2610 0x02] t) ∧
    (∀ (n : Site) (k : SliceKind) (d : DueSlice), s.due = [d] → d.site = n.val → d.kind = k → d.reported = false →
      d.deadline ≤ s.now → s.holdReason n d.power.isSome ≠ 0 → ∃ t, exec (.sliceOverdue n k) s = .next t ∧
        t = { s.reported t with due := [{ d with reported := true }] } ∧ s.scalarsBut [] t)

/-- Marigold starts and stops on islands, heats, runs patterns and ends (R418, R419, R420). -/
def Obligations.MarigoldRuns : Prop :=
  ∀ s : State, s.Canonical →
    (∀ (p : Path) (v : Nat), s.serves p = true → s.controllerDown = false →
      ((∀ i ∈ maskIslands v, s.marigoldRefusal i = none) → (∀ u ∈ marigoldSteps (s.reg 0x2630 0x02), u + 3 < s.reg 0x2300 0x01) →
        ∃ t, exec (.marigoldStart p v) s = .next t ∧
          (∀ i ∈ maskIslands v, t.mari i = some { stepsLeft := marigoldSteps (s.reg 0x2630 0x02) }) ∧
          (∀ i, i ∉ maskIslands v → t.mari i = s.mari i) ∧ t = { (s.reported t).answered t with marigold := t.marigold } ∧
          s.scalarsBut [] t) ∧
      (∃ t, exec (.marigoldStop p v) s = .next t ∧
        (∀ i ∈ maskIslands v, t.mari i = (s.mari i).map fun r => { r with stopping := true }) ∧
        (∀ i, i ∉ maskIslands v → t.mari i = s.mari i) ∧ t = { s.answered t with marigold := t.marigold })) ∧
    (∀ (i : Island) (r : MariRun) (u : Nat), s.heating i = some (r, u) →
      (s.marginOpen i u { r with reached := true, margin := 0, ran := r.ran ++ [u] } = true → ∃ t, exec (.marigoldHeatReached i) s = .next t ∧
        t.mari i = some { r with reached := true, margin := 0, ran := r.ran ++ [u] } ∧
        (∀ j, j ≠ i.val → t.mari j = s.mari j) ∧ t = { s with marigold := t.marigold }) ∧
      ((∀ w ∈ r.stepsLeft, w + 3 < s.reg 0x2300 0x01) → ∃ t, exec (.marigoldHeatTimeout i) s = .next t ∧
        t.mari i = some { r with stepsLeft := r.stepsLeft.drop 1, reached := false, margin := 0 } ∧
        (∀ j, j ≠ i.val → t.mari j = s.mari j) ∧ t = { s.reported t with marigold := t.marigold } ∧ s.scalarsBut [] t)) ∧
    (∀ (i : Island) (r : MariRun) (u : Nat) (x : SliceReport) (one : MariResult), s.mari i = some r → r.stepsLeft.head? = some u →
      r.reached = true → r.stopping = false → s.mariGoes i = true → (s.reservationFor x.site).isSome = true → siteIsland x.site = i → s.siteDark x.site = false →
      (maskPatterns (s.reg 0x2630 0x05)).contains x.pattern = true → s.patternTurn i u r x.site x.pattern = true → x.pass = false →
      one = ⟨x.site, x.pattern, u, r.margin, x.block⟩ → s.marginOpen i u { r with fails := r.fails ++ [one] } = true →
      ∃ t, exec (.marigoldPatternRun i x) s = .next t ∧ t.mari i = some { r with fails := r.fails ++ [one] } ∧
        t.resultLog.head? = some (resultWords s.now x.temperature (shownReport { x with kind := 3 } 1) 1 r.margin) ∧
        t.reg (0x3000 + x.site) 0xC3 = satAdd 32 (s.reg (0x3000 + x.site) 0xC3) 1 ∧ (∀ j, j ≠ i.val → t.mari j = s.mari j) ∧
        t = { s with regs := t.regs, resultLog := t.resultLog, evidence := t.evidence, marigold := t.marigold }) ∧
    ∀ (i : Island) (r : MariRun), s.mari i = some r → s.mariGoes i = true → r.stopping = true ∨ r.stepsLeft = [] → r.fails = [] →
      ∃ t, exec (.marigoldEnd i) s = .next t ∧ t.mari i = none ∧ (∀ j, j ≠ i.val → t.mari j = s.mari j) ∧
        t = { s.reported t with marigold := t.marigold } ∧ s.scalarsBut [] t

/-- An operation record starts with zero accumulators, and a dense step or slice adds its block sums (R79, R80, R86, R88, R89, R92, R96). -/
def Obligations.ArraysStartAndStep : Prop :=
  ∀ (s : State) (n : Site), s.Canonical →
    (∀ (r : RunTile) (l : Nat) (p : TilePlan) (ws : List Nat), s.active n = some r → s.tileOf n = some l → tileType l = 0 →
      s.planOf n = some p → (s.mtile n).cur = none → (s.mtile n).halted = false → (s.mtile n).dispute = none →
      p.recs[(s.mtile n).recIx]? = some ws →
      (mrNone ws = true → ∃ t, exec (.operationRecordStart n {}) s = .next t ∧
        t.mtile n = { s.mtile n with recIx := (s.mtile n).recIx + 1 } ∧ (∀ m, m ≠ n.val → t.mtile m = s.mtile m) ∧
        t = { s with mtiles := t.mtiles }) ∧
      (mrNone ws = false → mrGate ws = false → mrWS ws = false → mrInit ws = 0 → (s.mtile n).drains = [] →
        ∃ t, exec (.operationRecordStart n {}) s = .next t ∧ (∃ o, t.mtile n = { s.mtile n with cur := some o, held := none, bank := ((s.mtile n).bank + 1) % 4 } ∧
          o.words = ws ∧ o.bank = (s.mtile n).bank ∧ o.step = 0 ∧
          (∀ i j, i < mrM ws → j < mrN ws → t.accAt (accKey n o i j) = {}) ∧
          ∀ k, (∀ i j, i < mrM ws → j < mrN ws → k ≠ accKey n o i j) → t.accAt k = s.accAt k) ∧
        (∀ m, m ≠ n.val → t.mtile m = s.mtile m) ∧ t = { s with mtiles := t.mtiles, acc := t.acc })) ∧
    (∀ (m c : Nat) (o : MOp) (fa fb : Fetched), s.arrayOp n = some (m, c, o) → mrCode o.words = 0 → mrGate o.words = false →
      mrN o.words ≤ 64 → o.bank < 4 →
      (∀ b ∈ fa.blocks, b.absent = false ∧ b.poison = false ∧ blockBad (mrAFw o.words) 0 b = false) →
      (∀ b ∈ fb.blocks, b.absent = false ∧ b.poison = false ∧ blockBad (mrBFw o.words) 0 b = false) →
      ∀ blockOf : Nat → List RawBlock → Nat → Nat → List (Option Sys2Proof.Machine.Num),
      (∀ fw bs i e, blockOf fw bs i e = (List.range 32).map fun k => elemNum fw 0 (bs.getD i {}) k) →
      (mrWS o.words = false → o.step + 1 < mrK o.words → mrM o.words ≤ 64 →
        s.fetch n m (mrK o.words) [] (opA o.words) (mrM o.words * mrK o.words) o.aTaken o.aBuf ((List.range (mrM o.words)).map fun i => (i, o.step)) = some fa →
        s.fetch n m (mrK o.words) [] (opB o.words) (mrN o.words * mrK o.words) o.bTaken o.bBuf ((List.range (mrN o.words)).map fun j => (j, o.step)) = some fb →
        fa.blocks.length = mrM o.words → fb.blocks.length = mrN o.words →
        ∃ t, exec (.blockStep n {}) s = .next t ∧
          (∀ i j, i < mrM o.words → j < mrN o.words → t.accAt (accKey n o i j) =
            { s.accAt (accKey n o i j) with val := add32 (s.accAt (accKey n o i j)).val (blockSum (blockOf (mrAFw o.words) fa.blocks i 0) (blockOf (mrBFw o.words) fb.blocks j 0)) }) ∧
          (∀ k, (∀ i j, i < mrM o.words → j < mrN o.words → k ≠ accKey n o i j) → t.accAt k = s.accAt k) ∧
          (t.mtile n).cur.map (·.step) = some (o.step + 1) ∧ (t.mtile n).steps = (s.mtile n).steps + 1 ∧
          t.reg (0x3000 + n) 0x30 = satAdd 64 (s.reg (0x3000 + n) 0x30) 1 ∧
          t = { s.reported t with acc := t.acc, mtiles := t.mtiles, bond := t.bond }) ∧
      (mrWS o.words = true → o.step < mrK o.words → min (mrK o.words) (o.step + sliceBlocks o) < mrK o.words → mrM o.words ≤ 256 →
        ∀ hi w, hi = o.step + sliceBlocks o → w = sliceBlocks o → s.fetchA n m o {} o.step hi = some fa →
        (o.parts = [] ∧ o.loaded = o.step ∧ s.fetchB n m o {} o.step hi = some fb ∧ (mrASrc o.words = 4 ∨ mrASrc o.words ≠ mrBSrc o.words) ∨
          o.parts = [⟨o.step, hi, fb.blocks, []⟩] ∧ o.loaded = hi) →
        fa.blocks.length = mrM o.words * w → fb.blocks.length = mrN o.words * w →
        ∃ t, exec (.weightSlice n {}) s = .next t ∧
          (∀ i j, i < mrM o.words → j < mrN o.words → t.accAt (accKey n o i j) =
            { s.accAt (accKey n o i j) with val := (List.range w).foldl (fun x q => add32 x (blockSum (blockOf (mrAFw o.words) fa.blocks (i * w + q) 0) (blockOf (mrBFw o.words) fb.blocks (j * w + q) 0))) (s.accAt (accKey n o i j)).val }) ∧
          (∀ k, (∀ i j, i < mrM o.words → j < mrN o.words → k ≠ accKey n o i j) → t.accAt k = s.accAt k) ∧
          (t.mtile n).cur.map (·.step) = some hi ∧ (t.mtile n).steps = (s.mtile n).steps + 1 ∧
          t = { s.reported t with acc := t.acc, mtiles := t.mtiles, bond := t.bond }))

/-- A lane beat consumes at most 64 slots, and a CAM window part is loaded (R124, R127, R128). -/
def Obligations.LanesAndWindowsAdvance : Prop :=
  ∀ (s : State) (n : Site) (m c : Nat) (o : MOp), s.Canonical → s.arrayOp n = some (m, c, o) →
    (∀ (p : WPart) (rest : List WPart), mrLanes o = true → o.parts = p :: rest → o.aPart ≠ [] →
      (∀ b ∈ o.aPart ++ p.blocks, b.poison = false) → o.lane + 64 < (slotRows (partSlots o p o.aPart)).length →
      ∃ t k, exec (.laneBeat n {}) s = .next t ∧ 1 ≤ k ∧ k ≤ 64 ∧ (t.mtile n).cur = some { o with lane := o.lane + k } ∧
        t.reg 0x2C20 0x03 = satAdd 64 (s.reg 0x2C20 0x03) 1 ∧ t.reg 0x2C20 0x04 = satAdd 64 (s.reg 0x2C20 0x04) k ∧
        (∀ j, j ≠ n.val → t.mtile j = s.mtile j) ∧ t = { s.reported t with acc := t.acc, mtiles := t.mtiles }) ∧
    (∀ fb : Fetched, mrCam o = true → o.loaded < mrK o.words → 0 < mrWindow o.words → o.parts.length < 2 →
      s.fetchB n m o {} o.loaded (min (mrK o.words) ((o.loaded / mrWindow o.words + 1) * mrWindow o.words)) = some fb →
      ∃ t p, exec (.camWindowLoad n {}) s = .next t ∧ p.lo = o.loaded ∧ o.loaded < p.hi ∧
        p.hi ≤ min (mrK o.words) ((o.loaded / mrWindow o.words + 1) * mrWindow o.words) ∧
        (modeKw (wsMode o.words) < p.union.length → p.hi = p.lo + 1) ∧
        ((t.mtile n).cur.map fun x => (x.loaded, x.parts)) = some (p.hi, o.parts ++ [p]) ∧
        (∀ j, j ≠ n.val → t.mtile j = s.mtile j) ∧ t = { s.reported t with mtiles := t.mtiles, bond := t.bond })

/-- Rows drain raw to the store, verdicts are applied, mismatched sequencers halt, and open lines take writes (R90, R93, R96, R97, R102, R105). -/
def Obligations.ArraysDrainAndDecide : Prop :=
  ∀ (s : State) (n : Site), s.Canonical →
    (∀ (r : RunTile) (l : Nat) (o : MOp) (stall : Nat), s.active n = some r → s.tileOf n = some l → tileType l = 0 →
      (s.mtile n).drains = [o] → (s.mtile n).halted = false → (s.mtile n).dispute = none → mrOut o.words = 1 → mrDst o.words = 4 →
      mrGate o.words = false → o.row + 1 < mrM o.words → ∃ t, exec (.drainRow n stall) s = .next t ∧
        (∀ j, j < mrN o.words → t.load (storeAddr (mIndex l) (64 * mrOutLine o.words + 4 * (o.row * mrN o.words + j))) 4 =
          (s.accAt (accKey n o o.row j)).val.toNat) ∧
        (∀ a, a < storeAddr (mIndex l) (64 * mrOutLine o.words + 4 * (o.row * mrN o.words)) ∨
          storeAddr (mIndex l) (64 * mrOutLine o.words + 4 * (o.row * mrN o.words)) + 4 * mrN o.words ≤ a →
          readByte t.mem a = readByte s.mem a) ∧
        t.mtile n = { s.mtile n with drains := [{ o with row := o.row + 1 }] } ∧ (∀ m, m ≠ n.val → t.mtile m = s.mtile m) ∧
        t = { s with regs := t.regs, mem := t.mem, poisonWords := t.poisonWords, mtiles := t.mtiles } ∧
        ∀ k, k ≠ rk (0x3000 + n) 0x33 → t.regAt k = s.regAt k) ∧
    (∀ (d : Dispute) (v : Verdict) (hold : Nat), (s.mtile n).dispute = some d → d.verdict = some v → v ≠ .unresolved →
      (s.mtile n).cur = none → (d.rows.map fun r => r.row).Nodup →
      ∃ t, exec (.verdictApply n v hold) s = .next t ∧ t.mtile n = { s.mtile n with dispute := none } ∧
        (∀ r ∈ d.rows, r.row < mrM d.words → t.accAt (accKey n { words := d.words, bank := d.bank } r.row d.col) =
          { val := if v = .main then r.mainAcc else r.checkAcc, poison := r.poison }) ∧
        (∀ k, (∀ r ∈ d.rows, k ≠ accKey n { words := d.words, bank := d.bank } r.row d.col) → t.accAt k = s.accAt k) ∧
        (∀ m, m ≠ n.val → t.mtile m = s.mtile m) ∧ t = { s.reported t with acc := t.acc, mtiles := t.mtiles } ∧
        s.scalarsBut [rk (0x3000 + n) 0x36] t) ∧
    (∀ hold : Nat, s.sequencersUp n = true → (s.mtile n).halted = false → ∃ t, exec (.sequencerMismatch n hold) s = .next t ∧
      t.mtile n = { s.mtile n with halted := true, dispute := none } ∧
      t.reg (0x3000 + n) 0x37 = satAdd 32 (s.reg (0x3000 + n) 0x37) 1 ∧
      t.reg (0x3000 + n) 0x36 = (if (s.mtile n).dispute.isSome ∧ 0 < hold then satAdd 64 (s.reg (0x3000 + n) 0x36) hold else s.reg (0x3000 + n) 0x36) ∧
      t.reg (0x3000 + n) 0xB0 = min 1000 (s.reg (0x3000 + n) 0xB0 + 600) ∧ (∀ m, m ≠ n.val → t.mtile m = s.mtile m) ∧
      t.mem = s.mem ∧ t.acc = s.acc ∧ t.ctxs = s.ctxs) ∧
    (∀ (l : Nat) (w : StoreWrite) (k : Fin 4) (x : Transfer), s.tileOf n = some l → tileType l = 0 → (s.mtile n).halted = false → w.bond = some k →
      (s.engineIn n k).head? = some x → s.writeLocked n w.offset 64 = none →
      ∃ t, exec (.operandStoreWrite n w) s = .next t ∧ t.bytesAt (storeAddr (mIndex l) w.offset) 64 = x.bytes ∧
        (∀ a, a < storeAddr (mIndex l) w.offset ∨ storeAddr (mIndex l) w.offset + 64 ≤ a → readByte t.mem a = readByte s.mem a) ∧
        t.bondOf n = { s.bondOf n with engineIn := (s.bondOf n).engineIn.set k ((s.engineIn n k).drop 1) } ∧
        (∀ m, m ≠ n.val → t.bondOf m = s.bondOf m) ∧
        t.reg (0x3000 + n) 0x3A = (if w.conflict then satAdd 32 (s.reg (0x3000 + n) 0x3A) 1 else s.reg (0x3000 + n) 0x3A) ∧
        t = { s with regs := t.regs, mem := t.mem, poisonWords := t.poisonWords, bond := t.bond } ∧
        ∀ j, j ≠ rk (0x3000 + n) 0x3A → t.regAt j = s.regAt j) ∧
    (∀ (l : Nat) (w : StoreWrite), s.tileOf n = some l → tileType l = 0 → (s.mtile n).halted = false → w.bond = none → s.writeLocked n w.offset w.bytes.length = none →
      ∃ t, exec (.operandStoreWrite n w) s = .next t ∧ t.bytesAt (storeAddr (mIndex l) w.offset) w.bytes.length = w.bytes ∧
        (∀ a, a < storeAddr (mIndex l) w.offset ∨ storeAddr (mIndex l) w.offset + w.bytes.length ≤ a →
          readByte t.mem a = readByte s.mem a) ∧
        t.reg (0x3000 + n) 0x3A = (if w.conflict then satAdd 32 (s.reg (0x3000 + n) 0x3A) 1 else s.reg (0x3000 + n) 0x3A) ∧
        t = { s with regs := t.regs, mem := t.mem, poisonWords := t.poisonWords } ∧
        ∀ k, k ≠ rk (0x3000 + n) 0x3A → t.regAt k = s.regAt k)

/-- Plain and synchronised accesses of a scratchpad: data, tags, passages, blocking (R146, R149, R160, R161, R162). -/
def Obligations.ScratchpadAccesses : Prop :=
  ∀ (s : State) (t : STile) (n : Nat), s.Canonical → s.sSite t = some n →
    (∀ (q : Requester) (a : Access) (ws : List Nat) (g : Nat), accessOf q = some a → s.takes t q (slotsOf ws) = true →
      s.decode t a.aliased a.off a.len = some ws → (∀ w ∈ ws, s.savedWord t w = none) → ws.Nodup → a.bytes.length = a.len →
      (∃ u, exec (.plainRead t q { waitBeats := g }) s = .next u ∧ (0 < g → u.reg (0x3000 + n) 0x58 = satAdd 64 (s.reg (0x3000 + n) 0x58) g) ∧ u.out = s.out ++ [.readData n (s.wordBytes t ws) (s.slotsPoisoned t ws)] ∧
        u = { s with regs := u.regs, out := u.out }) ∧
      (∃ u, exec (.plainWrite t q { waitBeats := g }) s = .next u ∧ u.wordBytes t ws = a.bytes ∧
        (∀ b, (∀ w ∈ ws, b < wordAddr t w ∨ wordAddr t w + 8 ≤ b) → readByte u.mem b = readByte s.mem b) ∧
        (∀ k ∈ slotsOf ws, u.slotTag t k = if a.poison then 2 else if coversSlot ws k = true ∧ s.slotTag t k = 2 then 1 else s.slotTag t k) ∧
        (∀ k, (∀ j ∈ slotsOf ws, k ≠ t * 65536 + j) → u.tagAt k = s.tagAt k) ∧
        u = { s with regs := u.regs, mem := u.mem, tags := u.tags, stiles := u.stiles }) ∧
      (∀ k, (∀ x, q ≠ .memop x) → a.off % 64 = 0 → a.len = 64 → ws = slotWords k →
        (s.slotTag t k = 1 → s.inPassage t k = false →
          (s.isWide n (8 * k) = true → ∃ u, exec (.consume t q { waitBeats := g }) s = .next u ∧
            u.out = s.out ++ [.readData n (s.wordBytes t ws) false] ∧ u.slotTag t k = 0 ∧
            u = { s with regs := u.regs, out := u.out, tags := u.tags, mem := u.mem, rings := u.rings, issue := u.issue, stiles := u.stiles }) ∧
          (s.isWide n (8 * k) = true → ∃ u, exec (.peek t q { waitBeats := g }) s = .next u ∧
            u.out = s.out ++ [.readData n (s.wordBytes t ws) false] ∧ u = { s with regs := u.regs, out := u.out }) ∧
          (s.isWide n (8 * k) = false → ∃ u, exec (.consume t q { waitBeats := g }) s = .next u ∧ u.slotTag t k = 3 ∧
            u.stile t = { s.stile t with passages := (s.stile t).passages ++ [{ who := q, kind := .consume, slot := k, bytes := s.wordBytes t ws }] } ∧
            u = { s with regs := u.regs, tags := u.tags, stiles := u.stiles }) ∧
          (s.isWide n (8 * k) = false → ∃ u, exec (.peek t q { waitBeats := g }) s = .next u ∧
            u.stile t = { s.stile t with passages := (s.stile t).passages ++ [{ who := q, kind := .peek, slot := k, bytes := s.wordBytes t ws }] } ∧
            u = { s with regs := u.regs, stiles := u.stiles })) ∧
        (s.slotTag t k = 0 → s.inPassage t k = false →
          (s.isWide n (8 * k) = true → ∃ u, exec (.synchronisedWrite t q { waitBeats := g }) s = .next u ∧
            u.wordBytes t ws = a.bytes ∧ u.slotTag t k = (if a.poison then 2 else 1) ∧
            (∀ b, (∀ w ∈ ws, b < wordAddr t w ∨ wordAddr t w + 8 ≤ b) → readByte u.mem b = readByte s.mem b) ∧
            (∀ j, j ≠ t * 65536 + k → u.tagAt j = s.tagAt j) ∧
            u = { s with regs := u.regs, mem := u.mem, tags := u.tags, stiles := u.stiles }) ∧
          (s.isWide n (8 * k) = false → ∃ u, exec (.synchronisedWrite t q { waitBeats := g }) s = .next u ∧ u.slotTag t k = 3 ∧
            u.stile t = { s.stile t with passages := (s.stile t).passages ++ [{ who := q, kind := .write, slot := k, bytes := a.bytes, poison := a.poison }] } ∧
            u = { s with regs := u.regs, tags := u.tags, stiles := u.stiles })) ∧
        (s.slotTag t k = 0 → ∃ u, exec (.consume t q { waitBeats := g }) s = .next u ∧
          u.stile t = { s.stile t with blocked := (s.stile t).blocked ++ [{ who := q, kind := .consume, slot := k }] } ∧
          u = { s with stiles := u.stiles, regs := u.regs } ∧ ∀ j, j ≠ rk (0x3000 + n) 0x58 → u.regAt j = s.regAt j))) ∧
    (∀ (k : Fin 4) (ws : List Nat) (i g : Nat), s.agRecord t k = some (n, ws, i) → srMode ws = 0 →
      s.outFree n (srPortOf ws i) = true → srPortOf ws i < (s.bondOf n).engineOut.length → (s.stile t).ags.length = 4 →
      s.agSaved t ws i = none → ∃ u, exec (.plainRead t (.ag k) { waitBeats := g }) s = .next u ∧
        (u.bondOf n).engineOut.getD (srPortOf ws i) [] = unitTransfers (srPort ws != 0) (s.slotsPoisoned t (s.unitWords t ws i)) (s.wordBytes t (s.unitWords t ws i)) ∧
        ((u.ag t k).recIx, (u.ag t k).cur, (u.ag t k).unit) = (if i + 1 < srUnits ws then ((s.ag t k).recIx, some ws, i + 1) else ((s.ag t k).recIx + 1, none, 0)) ∧
        u = { s with regs := u.regs, bond := u.bond, stiles := u.stiles })

/-- Blocked accesses, passages, write-backs, the patrol, stream records and memory operations (R157, R159, R161, R162, R163, R164, R165, R168, R169, R273). -/
def Obligations.ScratchpadEngines : Prop :=
  ∀ (s : State) (t : STile) (n : Nat), s.Canonical → s.sSite t = some n →
    (∀ (i beats : Nat) (a : Access) (k tag : Nat) (bs : List Byte) (po : Bool),
      (s.stile t).blocked[i]? = some ⟨.ingress a, .write, k, bs, po, [], false, tag⟩ → bs.length = 64 → (s.stile t).gates = [] →
      (s.syncReady t k .write = true → s.isWide n (8 * k) = true → ∃ u, exec (.blockedAccessRetry t i beats {}) s = .next u ∧
        u.wordBytes t (slotWords k) = bs ∧ u.slotTag t k = (if po then 2 else 1) ∧
        (u.stile t).blocked = (s.stile t).blocked.eraseIdx i ∧
        u = { s with regs := u.regs, mem := u.mem, tags := u.tags, stiles := u.stiles }) ∧
      (s.syncReady t k .write = true → s.isWide n (8 * k) = false → ∃ u, exec (.blockedAccessRetry t i beats {}) s = .next u ∧
        u.slotTag t k = 3 ∧ u.stile t = { s.stile t with blocked := (s.stile t).blocked.eraseIdx i, passages := (s.stile t).passages ++ [⟨.ingress a, .write, k, bs, po, [], false⟩] } ∧
        u = { s with regs := u.regs, tags := u.tags, stiles := u.stiles }) ∧
      (s.syncReady t k .write = false → 0 < beats → ∃ u, exec (.blockedAccessRetry t i beats {}) s = .next u ∧
        u.reg (0x3000 + n) 0x53 = satAdd 64 (s.reg (0x3000 + n) 0x53) beats ∧
        u.stile t = { s.stile t with blocked := (s.stile t).blocked.set i ⟨.ingress a, .write, k, bs, po, [], false, s.slotTag t k⟩ } ∧
        u = { s with regs := u.regs, stiles := u.stiles } ∧
        ∀ j, j ≠ rk (0x3000 + n) 0x53 → u.regAt j = s.regAt j)) ∧
    (∀ (i beats : Nat) (b : Blocked) (r : Nat × Ring), (s.stile t).blocked[i]? = some b → b.kind = .consume → b.tag = 0 → b.msg = false →
      (s.tileRings t).find? (fun x => decide (rdKind x.2.desc = 2 ∧ rdSlot x.2.desc ≤ b.slot ∧ b.slot < rdSlot x.2.desc + rdSlots x.2.desc)) = some r →
      s.syncReady t b.slot .consume = false → ∃ u, exec (.blockedAccessRetry t i beats {}) s = .next u ∧
        u.ring (rdPartner r.2.desc) = { s.ring (rdPartner r.2.desc) with receiverStall := satAdd 64 (s.ring (rdPartner r.2.desc)).receiverStall beats } ∧
        (∀ r', r' ≠ rdPartner r.2.desc → u.ring r' = s.ring r') ∧ u = { s with regs := u.regs, rings := u.rings, stiles := u.stiles }) ∧
    (∀ (k : Fin 4) (slot : Nat) (bs : List Byte) (po : Bool) (ws : List Nat), (s.stile t).passages = [⟨.ag k, .write, slot, bs, po, [], false⟩] →
      bs.length = 64 → (s.stile t).ags.length = 4 → (s.ag t k).cur = some ws → s.sHalted t = false → (s.stile t).gates = [] →
      ∃ u, exec (.slotPassageEnd t slot {}) s = .next u ∧
        (u.stile t).passages = [] ∧ u.slotTag t slot = (if po then 2 else 1) ∧ u.wordBytes t (slotWords slot) = bs ∧
        ((u.ag t k).recIx, (u.ag t k).cur, (u.ag t k).unit, (u.ag t k).blocked) = (if (s.ag t k).unit + 8 < srUnits ws
          then ((s.ag t k).recIx, some ws, (s.ag t k).unit + 8, false) else ((s.ag t k).recIx + 1, none, 0, false)) ∧
        u = { s with mem := u.mem, tags := u.tags, stiles := u.stiles }) ∧
    (∀ w : Nat, (∃ u, exec (.correctedWriteBack t w) s = .next u ∧
        u.stile t = { s.stile t with writeBacks := (s.stile t).writeBacks.filter fun v => decide (v ≠ w) } ∧
        (∀ j, j ≠ t.val → u.stile j = s.stile j) ∧ u = { s with stiles := u.stiles }) ∧
      ∃ u, exec (.poisonRewrite t w) s = .next u ∧
        u.stile t = { s.stile t with rewrites := (s.stile t).rewrites.filter fun v => decide (v ≠ w) } ∧
        (∀ j, j ≠ t.val → u.stile j = s.stile j) ∧ u = { s with stiles := u.stiles }) ∧
    (∀ bank : Fin 32, s.reg 0x29E0 0x01 ≠ 0 → ∃ u, exec (.patrolScrub t bank {}) s = .next u ∧
      u.stile t = { s.stile t with patrol := (s.stile t).patrol.set bank (((s.stile t).patrol.getD bank 0 + 1) % 2048) } ∧
      (∀ j, j ≠ t.val → u.stile j = s.stile j) ∧ u = { s with stiles := u.stiles }) ∧
    (∀ (k : Fin 4) (p : TilePlan) (ws : List Nat), s.planOf n = some p → s.unitProgram n = none → (s.mtile n).halted = false → (s.ag t k).cur = none → (s.stile t).ags.length = 4 →
      (p.streams.getD k [])[(s.ag t k).recIx]? = some ws → ∃ u, exec (.streamRecordStart t k) s = .next u ∧
        u.ag t k = (if srUnits ws = 0 then { recIx := (s.ag t k).recIx + 1 } else { recIx := (s.ag t k).recIx, cur := some ws }) ∧
        (∀ j, j ≠ t.val → u.stile j = s.stile j) ∧ u = { s with stiles := u.stiles }) ∧
    (∀ (r : RunTile) (p : TilePlan) (ws : List Nat) (m : MemRec), s.active n = some r → s.sHalted t = false → s.planOf n = some p →
      p.recs[(s.stile t).memIx]? = some ws → memRecOf ws = m → m.tagAction = 0 → s.memSaved t m = none →
      (∀ g, m.op = 1 → ∃ u, exec (.memopFill t { waitBeats := g }) s = .next u ∧
        (∀ i, i < m.len → u.word t (m.dst + i) = m.fill % 2 ^ 64) ∧
        (∀ b, (∀ i, i < m.len → b < wordAddr t (m.dst + i) ∨ wordAddr t (m.dst + i) + 8 ≤ b) → readByte u.mem b = readByte s.mem b) ∧
        (u.stile t).memIx = (s.stile t).memIx + 1 ∧ u = { s with regs := u.regs, mem := u.mem, tags := u.tags, stiles := u.stiles }) ∧
      (m.op = 2 → s.tileRings t = [] → (∀ i, i < m.len → s.slotTag t ((m.src + i) / 8) ≠ 2) →
        ∃ u, exec (.memopCopy t {}) s = .next u ∧ (∀ i, i < m.len → u.word t (m.dst + i) = s.word t (m.src + i)) ∧
        (∀ b, (∀ i, i < m.len → b < wordAddr t (m.dst + i) ∨ wordAddr t (m.dst + i) + 8 ≤ b) → readByte u.mem b = readByte s.mem b) ∧
        (u.stile t).memIx = (s.stile t).memIx + 1 ∧ u = { s with regs := u.regs, mem := u.mem, tags := u.tags, stiles := u.stiles }))

/-- The elementwise and special functions, MOVE and DEQUANTISE of the F-tile, in the arithmetic of the context's mode (R174, R176, R177, R178, R183, R186). -/
def Obligations.LanesCompute : Prop :=
  ∀ (s : State) (n : Site) (c : Nat) (ws : List Nat) (a : List FWord) (ar : Arith), s.Canonical → ar = s.arith n c →
    ∀ vb vc : Nat → FWord, (∀ e, vb e = s.vregAt (vkey n (frB ws) e)) → (∀ e, vc e = s.vregAt (vkey n (frC ws) e)) →
    ∀ lb lc r : List FWord, lb = (List.range (frLen ws)).map vb → lc = (List.range (frLen ws)).map vc →
    (s.LaneRun n 0x01 c ws a → r = lanesOf a (fun e x => { val := ar.op fma32 x.val (vb e).val (vc e).val, poison := x.poison || (vb e).poison || (vc e).poison }) →
      ∃ t, exec (.fma n {}) s = .next t ∧ s.laneResult t n ws r (rawTransfers r) (a ++ lb ++ lc)) ∧
    (s.LaneRun n 0x02 c ws a → r = lanesOf a (fun e x => { val := ar.op (fun x y _ => add32 x y) x.val (vb e).val 0, poison := x.poison || (vb e).poison }) →
      ∃ t, exec (.add n {}) s = .next t ∧ s.laneResult t n ws r (rawTransfers r) (a ++ lb)) ∧
    (s.LaneRun n 0x03 c ws a → r = lanesOf a (fun e x => { val := ar.op (fun x y _ => mul32 x y) x.val (vb e).val 0, poison := x.poison || (vb e).poison }) →
      ∃ t, exec (.mul n {}) s = .next t ∧ s.laneResult t n ws r (rawTransfers r) (a ++ lb)) ∧
    (s.LaneRun n 0x04 c ws a → r = lanesOf a (fun e x => { val := ar.op (fun x y _ => max32 x y) x.val (vb e).val 0, poison := x.poison || (vb e).poison }) →
      ∃ t, exec (.max n {}) s = .next t ∧ s.laneResult t n ws r (rawTransfers r) (a ++ lb)) ∧
    (s.LaneRun n 0x05 c ws a → r = lanesOf a (fun e x => { val := ar.op (fun x y _ => min32 x y) x.val (vb e).val 0, poison := x.poison || (vb e).poison }) →
      ∃ t, exec (.min n {}) s = .next t ∧ s.laneResult t n ws r (rawTransfers r) (a ++ lb)) ∧
    (s.LaneRun n 0x06 c ws a → r = lanesOf a (fun _ x => { val := (ar.special 0x06 x.val).1, poison := x.poison }) →
      ∃ t, exec (.exp n {}) s = .next t ∧ s.laneResult t n ws r (rawTransfers r) a) ∧
    (s.LaneRun n 0x07 c ws a → r = lanesOf a (fun _ x => { val := (ar.special 0x07 x.val).1, poison := x.poison }) →
      ∃ t, exec (.log n {}) s = .next t ∧ s.laneResult t n ws r (rawTransfers r) a) ∧
    (s.LaneRun n 0x08 c ws a → r = lanesOf a (fun _ x => { val := (ar.special 0x08 x.val).1, poison := x.poison }) →
      ∃ t, exec (.rsqrt n {}) s = .next t ∧ s.laneResult t n ws r (rawTransfers r) a) ∧
    (s.LaneRun n 0x09 c ws a → r = lanesOf a (fun _ x => { val := (ar.special 0x09 x.val).1, poison := x.poison }) →
      ∃ t, exec (.recip n {}) s = .next t ∧ s.laneResult t n ws r (rawTransfers r) a) ∧
    (s.LaneRun n 0x0A c ws a → r = lanesOf a (fun _ x => { val := (ar.special 0x0A x.val).1, poison := x.poison }) →
      ∃ t, exec (.tanh n {}) s = .next t ∧ s.laneResult t n ws r (rawTransfers r) a) ∧
    (s.LaneRun n 0x0B c ws a → r = lanesOf a (fun _ x => { val := (ar.special 0x0B x.val).1, poison := x.poison }) →
      ∃ t, exec (.erf n {}) s = .next t ∧ s.laneResult t n ws r (rawTransfers r) a) ∧
    (s.LaneRun n 0x22 c ws a → ∃ t, exec (.dequantise n {}) s = .next t ∧ s.laneResult t n ws a (rawTransfers a) a) ∧
    (s.LaneRun n 0x30 c ws a → ∃ t, exec (.move n {}) s = .next t ∧ s.laneResult t n ws a (rawTransfers a) [])

/-- Reductions, softmax, quantising and compressing lanes; the U2 halt word and the execution mode (R179, R180, R181, R182, R183, R184, R189). -/
def Obligations.LanesReduceAndQuantise : Prop :=
  ∀ (s : State) (n : Site) (c : Nat) (ws : List Nat) (a : List FWord) (ar : Arith), s.Canonical → ar = s.arith n c →
    ∀ vb : Nat → FWord, (∀ e, vb e = s.vregAt (vkey n (frB ws) e)) →
    ∀ (vals : List F32) (po : Bool) (r : List FWord), vals = a.map (fun x => x.val) → po = a.any (fun x => x.poison) →
    (s.LaneRun n 0x10 c ws a → r = { val := ar.reduce add32 0 (frRegs ws) vals, poison := po } :: List.replicate 255 {} →
      ∃ t, exec (.reduceSum n {}) s = .next t ∧ s.laneResult t n ws r (rawTransfers (r.take 16)) a) ∧
    (s.LaneRun n 0x11 c ws a → r = { val := ar.reduce max32 (inf32 true) (frRegs ws) vals, poison := po } :: List.replicate 255 {} →
      ∃ t, exec (.reduceMax n {}) s = .next t ∧ s.laneResult t n ws r (rawTransfers (r.take 16)) a) ∧
    (s.LaneRun n 0x12 c ws a → r = [{ val := (softmaxStats ar (frRegs ws) vals).1, poison := po }, { val := (softmaxStats ar (frRegs ws) vals).2, poison := po }] →
      ∃ t, exec (.softmaxStats n {}) s = .next t ∧ s.laneResult t n ws r (rawTransfers r) a) ∧
    (s.LaneRun n 0x13 c ws a → ∀ x y p, x = a.getD 0 {} → y = a.getD 1 {} →
      p = (x.poison || y.poison || (vb 0).poison || (vb 1).poison) →
      r = [{ val := (softmaxCombine ar x.val y.val (vb 0).val (vb 1).val).1, poison := p }, { val := (softmaxCombine ar x.val y.val (vb 0).val (vb 1).val).2, poison := p }] →
      ∃ t, exec (.softmaxCombine n {}) s = .next t ∧ s.laneResult t n ws r (rawTransfers r) (a ++ [vb 0, vb 1])) ∧
    (s.LaneRun n 0x20 c ws a → ∀ x, x = laneInput s n ws [] 0 a →
      (fwBase (frFw ws) < 5 → ∀ ts, ts = streamTransfers (frFw ws) 0 (x.blocks.length + 1) (x.blocks.map fun b => b.raw) →
        ∃ t, exec (.fQuantise n {}) s = .next t ∧ s.laneResult t n ws ((fileVector (frFw ws) 0 x x.blocks).take (frLen ws)) ts a) ∧
      (5 ≤ fwBase (frFw ws) → ∀ ys, ys = x.elements.map (fun e => (e.1.code, e.2)) → ∃ t, exec (.fQuantise n {}) s = .next t ∧
        s.laneResult t n ws ((ys.map fun y => ({ val := BitVec.ofNat 32 y.1, poison := y.2 } : FWord)).take (frLen ws)) (elementTransfers (rawWidth (frFw ws)) ys) a)) ∧
    (s.LaneRun n 0x21 c ws a → ∀ x bad, x = laneInput s n ws [] (frSf ws) a →
      bad = (sfMask (frSf ws) && (List.range x.vectors).any fun v => (List.range x.vb).any fun b => x.maskBad v b) →
      (fwBase (frFw ws) < 5 → bad = true → s.ctxRuns c = true → ∃ t, exec (.fCompress n {}) s = .next t ∧ t.ctxState c = 2) ∧
      (fwBase (frFw ws) < 5 → bad = false → ∀ ts d, ts = streamTransfers (frFw ws) (sfForm (frSf ws)) (x.blocks.length + 1) (x.blocks.map fun b => b.raw) →
        d = (x.blocks.map fun b => b.dropped).sum → ∃ t, exec (.fCompress n {}) s = .next t ∧
          s.laneResult { t with maskDrops := s.maskDrops } n ws ((fileVector (frFw ws) (sfForm (frSf ws)) x x.blocks).take (frLen ws)) ts a ∧
          (0 < d → t.maskDropsAt n = satAdd 64 (s.maskDropsAt n) d) ∧ ∀ m, (m ≠ n.val ∨ d = 0) → t.maskDropsAt m = s.maskDropsAt m) ∧
      (5 ≤ fwBase (frFw ws) → ∀ ys, ys = x.elements.map (fun e => (e.1.code, e.2)) → ∃ t, exec (.fCompress n {}) s = .next t ∧
        s.laneResult t n ws ((ys.map fun y => ({ val := BitVec.ofNat 32 y.1, poison := y.2 } : FWord)).take (frLen ws)) (elementTransfers (rawWidth (frFw ws)) ys) a)) ∧
    (∀ (q : RunTile) (l k : Nat) (p : SlotPlan), s.active n = some q → s.tileOf n = some l → s.planAt (l * 4 + q.slot) = some p →
      p.u2.isSome = true → ∃ t, exec (.u2HaltWord n k) s = .next t ∧ t.ftile n = { s.ftile n with u2Halted := true } ∧
        (∀ m, m ≠ n.val → t.ftile m = s.ftile m) ∧ (0 < k → t.reg (0x3000 + n) 0x65 = satAdd 64 (s.reg (0x3000 + n) 0x65) k) ∧
        (∀ j, j ≠ rk (0x3000 + n) 0x65 → t.regAt j = s.regAt j) ∧ t = { s with ftiles := t.ftiles, regs := t.regs }) ∧
    (∀ (p : Path) (x : Ctx) (v : Nat), s.serves p = true → s.controllerDown = false → v ≤ 1 → s.hasSlots x = false →
      ∃ t, exec (.executionModeWrite p x v) s = .next t ∧ t.reg (0x2700 + x) 0x20 = v ∧ t = { s.answered t with regs := t.regs } ∧
        ∀ k, k ≠ rk (0x2700 + x) 0x20 → t.regAt k = s.regAt k)

/-- A transfer moves into an X-tile, through a bypass stage, over a link, and out of an engine, an element and a queue, with what the link code found (R38, R190, R192, R193, R197, R203, R204, R205, R208, R295, R296). -/
def Obligations.BondMovesTransfers : Prop :=
  ∀ (s : State) (a h : Nat) (err : LinkError) (tr : Transfer), s.Canonical →
    (err ≠ .token →
      (∀ (x : XTile) (n m : Nat), s.siteOf (xLogical x) = some n → m = (s.xPath x n).headD n → (s.xtile x).orphan = false → s.staged m (xPort x) tr →
        ∃ t, exec (.bondTransferHop (.intoX x) err a h) s = .next t ∧ s.leftStage t m (xPort x) h ∧ s.bondBut t [m] ∧ s.coded t m err ∧ s.hopped t [m] err ∧
          t.xtile x = { s.xtile x with inq := (s.xtile x).inq ++ [tr.after err] } ∧ (∀ y, y ≠ x.val → t.xtile y = s.xtile y) ∧ t.issue = s.issue) ∧
      (∀ (b : Site) (d : Dir), s.bypassOpen b (opposite d) →
        (∀ m, m ≠ b.val → s.bypassFrom b d m → s.staged m (opposite d) tr →
          ∃ t, exec (.bondTransferHop (.bypass b d) err a h) s = .next t ∧ s.leftStage t m (opposite d) h ∧ s.bondBut t [b.val, m] ∧ s.coded t b err ∧
            s.hopped t [b.val, m] err ∧ t.bondOf b = { s.bondOf b with stages := (s.bondOf b).stages.set (opposite d) (some (tr.after err)) } ∧
            s.rose t b 0x75 1 ∧ s.rose t b 0x72 (a + 1) ∧ t.xtiles = s.xtiles ∧ t.issue = s.issue) ∧
        (∀ (x n : Nat) (rest : List Transfer), s.xThrough b d = some (x, n) → xPort x = d → s.deadBetween n (xSite x) = false →
          (s.xPath x n).head? = some b.val → (s.xtile x).orphan = false → (s.xtile x).stopped = false → (s.xtile x).outq = tr :: rest →
          ∃ t, exec (.bondTransferHop (.bypass b d) err a h) s = .next t ∧ s.bondBut t [b.val] ∧ s.coded t b err ∧ s.hopped t [b.val] err ∧
            t.bondOf b = { s.bondOf b with stages := (s.bondOf b).stages.set (opposite d) (some (tr.after err)) } ∧ s.rose t b 0x75 1 ∧ s.rose t b 0x72 (a + 1) ∧
            t.xtile x = { s.xtile x with outq := rest } ∧ (∀ y, y ≠ x → t.xtile y = s.xtile y) ∧ t.issue = s.issue)) ∧
      (∀ (n : Site) (d : Dir) (c : Nat) (p : TilePlan) (u2 : Bool) (ri : Nat) (r : Route) (place dst : Nat), s.takesBond n = some (c, p, u2) →
        routeFrom p d tr.chan 0 = some (ri, r) → s.hasPlace n p u2 ri r place dst →
        (∀ m, m ≠ n.val → s.linkFrom n d m → s.staged m (opposite d) tr →
          ∃ t, exec (.bondTransferHop (.inbound n d) err a h) s = .next t ∧ s.leftStage t m (opposite d) h ∧ s.bondBut t [n.val, m] ∧ s.coded t n err ∧
            s.hopped t [n.val, m] err ∧ t.bondOf n = (s.bondOf n).took p place ri r (tr.after err) ∧ s.rose t n 0x75 1 ∧ s.rose t n 0x72 a ∧
            s.spilt t n c place dst r (tr.after err) ∧ t.xtiles = s.xtiles) ∧
        (∀ (l x : Nat) (rest : List Transfer), s.tileOf n = some l → logicalNeighbour l d = none → xOfTile l d = some x → s.deadBetween n (xSite x) = false →
          s.xPath x n = [] → (s.xtile x).orphan = false → (s.xtile x).stopped = false → (s.xtile x).outq = tr :: rest →
          ∃ t, exec (.bondTransferHop (.inbound n d) err a h) s = .next t ∧ s.bondBut t [n.val] ∧ s.coded t n err ∧ s.hopped t [n.val] err ∧
            t.bondOf n = (s.bondOf n).took p place ri r (tr.after err) ∧ s.rose t n 0x75 1 ∧ s.rose t n 0x72 a ∧
            s.spilt t n c place dst r (tr.after err) ∧ t.xtile x = { s.xtile x with outq := rest } ∧ ∀ y, y ≠ x → t.xtile y = s.xtile y))) ∧
    (∀ (n : Site) (c : Nat) (p : TilePlan) (u2 : Bool) (ri : Nat) (r : Route) (place dst : Nat) (rest : List Transfer), s.takesBond n = some (c, p, u2) →
      (s.hasPlace n p u2 ri r place dst →
        (∀ k : Fin 16, (s.bondOf n).engineOut.getD k [] = tr :: rest → routeFrom p 4 k 0 = some (ri, r) →
          ∃ t, exec (.bondTransferHop (.engineOut n k) err a h) s = .next t ∧ s.bondBut t [n.val] ∧ s.hopped t [n.val] .none ∧
            t.bondOf n = BondTile.took { s.bondOf n with engineOut := (s.bondOf n).engineOut.set k rest } p place ri r { tr with chan := 0 } ∧
            s.rose t n 0x72 a ∧ s.spilt t n c place dst r { tr with chan := 0 } ∧ t.xtiles = s.xtiles) ∧
        (∀ (e : Fin 16) (o : Fin 4), ((s.bondOf n).elems.getD e {}).outs.getD o none = some tr → routeFrom p 5 e o = some (ri, r) →
          ∃ t, exec (.bondTransferHop (.steering n e o) err a h) s = .next t ∧ s.bondBut t [n.val] ∧ s.hopped t [n.val] .none ∧
            t.bondOf n = BondTile.took { s.bondOf n with elems := (s.bondOf n).elems.set e (takeOut ((s.bondOf n).elems.getD e {}) o) } p place ri r { tr with chan := 0 } ∧
            s.rose t n 0x72 a ∧ s.rose t n 0x73 h ∧ s.spilt t n c place dst r { tr with chan := 0 } ∧ t.xtiles = s.xtiles)) ∧
      (p.routes[ri]? = some r → s.queueOf n ri = tr :: rest → s.routeOpen n p u2 r = true →
        ∃ t, exec (.bondTransferHop (.queue n ri) err a h) s = .next t ∧ s.bondBut t [n.val] ∧ s.hopped t [n.val] .none ∧
          t.bondOf n = BondTile.entered { s.bondOf n with queues := (s.bondOf n).queues.set ri rest } p r tr ∧
          s.rose t n 0x72 a ∧ t.xtiles = s.xtiles ∧ t.issue = s.issue)) ∧
    (∀ (x : XTile) (n m : Nat), s.siteOf (xLogical x) = some n → m = (s.xPath x n).headD n → (s.xtile x).orphan = false → s.staged m (xPort x) tr →
      ∃ t, exec (.bondTransferHop (.intoX x) .token a h) s = .next t ∧ s.bondBut t [m] ∧ t.xtiles = s.xtiles ∧ t.mem = s.mem ∧
        t.bondOf m = { s.bondOf m with stopped := (s.bondOf m).stopped.set (xPort x) true } ∧
        t.reg (0x3000 + m) 0x78 = satAdd 32 (s.reg (0x3000 + m) 0x78) 1)

/-- The oldest spilled transfer of a route returns from its ring through the ring engine, to the route's queue or, where it has none, to its destination (R204, R205, R208, R209, R269). -/
def Obligations.SpilledTransfersReturn : Prop :=
  ∀ (s : State) (n : Site) (c ri waited : Nat) (p : TilePlan) (u2 : Bool) (r : Route) (x : Ring) (k dst : Nat) (run : List Nat) (bs : List Byte) (back : Transfer),
    s.Canonical → s.takesBond n = some (c, p, u2) → p.routes[ri]? = some r → r.spill = true → 0 < s.spilledOf n ri →
    (if r.entries = 0 then s.routeOpen n p u2 r = true else (s.queueOf n ri).length < r.entries) →
    x = s.ring r.ring → k = ringTile r.ring → rdEnabled x.desc = true → rdCtx x.desc = c → rdKind x.desc = 0 → 128 < rdSize x.desc →
    s.ringEngineFree k = true → s.sSite k = some dst → run = ringRun x.desc x.head 2 → (∀ j ∈ run, s.slotHeld k j = true) → s.takesWide r.ring dst run →
    x.head < rdSize x.desc → x.head ≠ x.tail → (x.head + 64) % rdSize x.desc ≠ x.tail →
    ((x.head + 128) % rdSize x.desc = x.tail ∨ s.slotTag k (ringSlot x.desc (x.head + 128)) ≠ 0) →
    bs = (run.flatMap fun j => s.wordBytes k (slotWords j)).drop 8 →
    back = transferOf (ofBytes (bs.take 64)) (ofBytes ((bs.drop 64).take 2)) →
    ∃ t, exec (.spillRefill n ri waited {}) s = .next t ∧ (∀ j ∈ run, t.slotTag k j = 0) ∧ s.slotsBut t k r.ring run ∧
      t.ring r.ring = { x with head := (x.head + 128) % rdSize x.desc } ∧ (∀ q, q ≠ r.ring → t.ring q = s.ring q) ∧ s.bondBut t [n.val] ∧
      t.bondOf n = BondTile.took { s.bondOf n with spilled := (s.bondOf n).spilled.set ri (s.spilledOf n ri - 1) } p (if r.entries = 0 then 1 else 2) ri r
        { back with poison := back.poison || run.any fun j => s.slotTag k j == 2 } ∧
      s.rose t n 0x72 (if r.entries = 0 then waited else 0) ∧
      t = { s with bond := t.bond, tags := t.tags, rings := t.rings, mem := t.mem, stiles := t.stiles, regs := t.regs } ∧
      ∀ j, j ≠ rk (0x3000 + n) 0x72 → j ∉ beatKeys [dst] → t.regAt j = s.regAt j

/-- A fork, a join, a switch, a merge and a filter move the transfers that Table 08-3 says (R198, R199, R202). -/
def Obligations.SteeringElementsFire : Prop :=
  ∀ (s : State) (n : Site) (e : Fin 16) (w : Elem) (x : ElemState), s.Canonical →
    (∀ tr rest, s.Steers n e 1 w x → x.ins.getD 0 [] = tr :: rest → (∀ o, o < w.ways → x.outs.getD o none = none) →
      ∃ t, exec (.forkFire n e) s = .next t ∧ t = { s with bond := t.bond } ∧
        s.steered t n e { x with ins := x.ins.set 0 rest, outs := List.replicate w.ways (some tr) ++ x.outs.drop w.ways }) ∧
    (∀ (taken : Nat → List Transfer) (bad : Bool) (a : Transfer) (more : List Transfer), s.Steers n e 2 w x →
      (∀ i, taken i = (x.ins.getD i []).take (w.takes.getD i 1)) → (∀ i, i < w.ways → w.takes.getD i 1 ≤ (x.ins.getD i []).length) →
      x.outs.getD 0 none = none → x.emit = [] → bad = (List.range w.ways).any (fun i => (taken i).any fun t => t.poison) →
      a :: more = ((List.range w.ways).filter fun i => w.carriers.testBit i).flatMap (fun i => (taken i).map fun t => ({ t with poison := t.poison || bad } : Transfer)) →
      ∃ t, exec (.joinFire n e) s = .next t ∧ t = { s with bond := t.bond } ∧
        s.steered t n e { x with ins := (List.range 4).map (fun i => if i < w.ways then (x.ins.getD i []).drop (w.takes.getD i 1) else x.ins.getD i []), outs := x.outs.set 0 (some a), emit := more }) ∧
    (∀ k ks tr rest, s.Steers n e 3 w x → x.ctl = k :: ks → k.poison = false → x.ins.getD 0 [] = tr :: rest →
      (k.value < w.ways → x.outs.getD k.value none = none → ∃ t, exec (.switchFire n e) s = .next t ∧ t = { s with bond := t.bond } ∧
        s.steered t n e (x.moved 0 k.value w.group (some tr) ks)) ∧
      (w.ways ≤ k.value → ∃ t, exec (.switchFire n e) s = .next t ∧ t = { s.reported t with bond := t.bond } ∧
        s.steered t n e (x.moved 0 0 w.group none ks) ∧ t.reg (0x3000 + n) 0x79 = satAdd 32 (s.reg (0x3000 + n) 0x79) 1)) ∧
    (∀ k ks tr rest, s.Steers n e 4 w x → x.ctl = k :: ks → k.poison = false → k.value < w.ways → x.ins.getD k.value [] = tr :: rest →
      x.outs.getD 0 none = none → ∃ t, exec (.mergeFire n e) s = .next t ∧ t = { s with bond := t.bond } ∧
        s.steered t n e (x.moved k.value 0 w.group (some tr) ks)) ∧
    (∀ k ks tr rest, s.Steers n e 5 w x → x.ctl = k :: ks → k.poison = false → x.ins.getD 0 [] = tr :: rest →
      (k.value % 2 = 1 → x.outs.getD 0 none = none → ∃ t, exec (.filterFire n e) s = .next t ∧ t = { s with bond := t.bond } ∧
        s.steered t n e (x.moved 0 0 w.group (some tr) ks)) ∧
      (k.value % 2 = 0 → ∃ t, exec (.filterFire n e) s = .next t ∧ t = { s with bond := t.bond } ∧
        s.steered t n e (x.moved 0 0 w.group none ks)))

/-- A packet is injected or returned, hops on by the X-Y route, is carried along a multicast line, and is taken by its endpoint, which acts on a RETURN (R228, R232, R233, R235, R243, R244, R245, R246, R248, R249). -/
def Obligations.MortarCarriesPackets : Prop :=
  ∀ s : State, s.Canonical →
    (∀ (src : Endpoint) (beats : Nat) (q : Request) (rest : List Request) (p : Packet), s.issue = q :: rest → q.packet.src = src.val → q.byAddr = false →
      p = { q.packet with plane := s.planeFor q.packet src } → s.injectStopped q.packet = false →
      (s.injectReason p = none → p.dst ≠ 0xFFF → s.room (netKey p.plane src 0 p.cls) 18 p = true →
        (p.cls ≠ 0 ∨ 3264 ≤ src.val ∨ s.reg 0x2A00 0x04 ≤ beats) → ∃ t, exec (.packetInject src beats) s = .next t ∧ t.issue = rest ∧
          t.netAt (netKey p.plane src 0 p.cls) = s.netAt (netKey p.plane src 0 p.cls) ++ [p] ∧
          (∀ k, k ≠ netKey p.plane src 0 p.cls → t.netAt k = s.netAt k) ∧ (p.cls ≠ 0 → t.claims = s.claims) ∧
          t = { s with issue := rest, net := t.net, regs := t.regs, ctxs := t.ctxs, claims := t.claims }) ∧
      (∀ r, s.injectReason p = some r → ∃ t, exec (.packetInject src beats) s = .next t ∧
        t.issue = rest ++ [{ packet := returnOf p r src }] ∧ t.reg 0x2A00 0x07 = satAdd 64 (s.reg 0x2A00 0x07) 1 ∧
        t = { s.reported t with issue := t.issue, ctxs := t.ctxs })) ∧
    (∀ (plane : Plane) (node : Endpoint) (port : Fin 5) (cls : Cls) (p : Packet) (rest : List Packet),
      s.netAt (netKey plane node port cls) = p :: rest → p.cls = cls.val → p.dst ≠ 0xFFF →
      (∀ d n', node.val < 3264 → adaptive p = false → p.detoured = false → xyDir node (endpointSite p.dst) = some d → neighbour node d = some n' →
        s.deadSite n' = false → s.deadSite (endpointSite p.dst) = false → s.linkFailed plane node d = false →
        s.moveOf plane node port p = .link d n' (1 + opposite d) false) ∧
      (∀ d next inPort off dest, s.moveOf plane node port p = .link d next inPort off → s.granted plane node (1 + d) = some (cls.val, port.val) →
        dest = landing plane next inPort p off → s.room dest.1 dest.2 p = true → (s.link (linkKey plane node d)).unacked + flits p ≤ 32 →
        ∃ t, exec (.routerHop plane node port cls 0) s = .next t ∧ t.netAt (netKey plane node port cls) = rest ∧
          t.netAt dest.1 = s.netAt dest.1 ++ [{ p with detoured := p.detoured || off }] ∧
          (node.val < 3264 → t.reg (0x3000 + node) 0x82 = satAdd 64 (s.reg (0x3000 + node) 0x82) (flits p)) ∧
          (t.link (linkKey plane node d)).unacked = (s.link (linkKey plane node d)).unacked + flits p ∧
          (∀ k, k ≠ netKey plane node port cls → k ≠ dest.1 → t.netAt k = s.netAt k) ∧ (∀ k, k ≠ linkKey plane node d → t.link k = s.link k) ∧
          t = { s.reported t with net := t.net, links := t.links, claims := t.claims, arbs := t.arbs }) ∧
      (s.moveOf plane node port p = .eject → s.granted plane node 0 = some (cls.val, port.val) → s.ejectRoom plane node p = true →
        ∃ t, exec (.routerHop plane node port cls 0) s = .next t ∧ t.netAt (netKey plane node port cls) = rest ∧
          t.netAt (netKey plane node 5 cls) = s.netAt (netKey plane node 5 cls) ++ [p] ∧
          (∀ k, k ≠ netKey plane node port cls → k ≠ netKey plane node 5 cls → t.netAt k = s.netAt k) ∧
          t = { s with net := t.net, regs := t.regs, arbs := t.arbs }) ∧
      (∀ r, s.moveOf plane node port p = .back r → p.typ ≠ 0x3E → ∃ t, exec (.routerHop plane node port cls 0) s = .next t ∧
        t.netAt (netKey plane node port cls) = rest ∧ t.issue = s.issue ++ [{ packet := returnOf p r node }] ∧
        (∀ k, k ≠ netKey plane node port cls → t.netAt k = s.netAt k) ∧
        t = { s.reported t with net := t.net, issue := t.issue, claims := t.claims, ctxs := t.ctxs })) ∧
    (∀ (plane : Plane) (node : Endpoint) (port : Fin 5) (cls : Cls) (p : Packet) (rest : List Packet) (d n' : Nat), node.val < 3264 →
      s.netAt (netKey plane node port cls) = p :: rest → p.cls = cls.val → p.dst = 0xFFF → d = lineDir p node → neighbour node d = some n' →
      (s.deadSite n' = false → s.linkFailed plane node d = false → s.lineAccepts plane n' d p = true →
        (s.link (linkKey plane node d)).unacked + flits p ≤ 32 → s.granted plane node (1 + d) = some (cls.val, port.val) →
        ∃ t, exec (.multicastForward plane node port cls) s = .next t ∧ t.netAt (netKey plane node port cls) = rest ∧
          t.netAt (netKey plane n' 5 cls) = s.netAt (netKey plane n' 5 cls) ++ (if s.lineTarget n' then [{ p with dst := n', copy := true }] else []) ∧
          t.netAt (netKey plane n' (1 + opposite d) cls) = s.netAt (netKey plane n' (1 + opposite d) cls) ++ (if n' = p.farEnd then [] else [p]) ∧
          t = { s with net := t.net, regs := t.regs, links := t.links, claims := t.claims, arbs := t.arbs }) ∧
      (s.deadSite n' = true → p.typ ≠ 0x3E → ∃ t, exec (.multicastForward plane node port cls) s = .next t ∧
        t.netAt (netKey plane node port cls) = rest ∧ t.issue = s.issue ++ [{ packet := returnOf p 4 node }] ∧
        t = { s.reported t with net := t.net, issue := t.issue, claims := t.claims, ctxs := t.ctxs }) ∧
      (s.lineAccepts plane n' d p = false → ∀ beats, ∃ t, exec (.multicastHoldThreshold plane node port cls beats) s = .next t ∧
        t.reg (0x3000 + node) 0x87 = satAdd 64 (s.reg (0x3000 + node) 0x87) beats ∧ t = { s.reported t with net := t.net } ∧
        ∀ k, k ≠ netKey plane node port cls → t.netAt k = s.netAt k)) ∧
    (∀ (plane : Plane) (node : Endpoint) (cls : Cls) (p : Packet) (rest : List Packet), node.val < 3264 → s.netAt (netKey plane node 5 cls) = p :: rest →
      s.endpointHolds node p = false → (malformed p = false → p.poison = false → s.isFenced node = false → ∃ t, exec (.packetEject plane node cls none) s = .next t ∧
        t.delivered = s.delivered ++ [p] ∧ t.netAt (netKey plane node 5 cls) = rest ∧ t.reg (0x3000 + node) 0x81 = satAdd 64 (s.reg (0x3000 + node) 0x81) 1 ∧
        (∀ k, k ≠ netKey plane node 5 cls → t.netAt k = s.netAt k) ∧ t = { s with net := t.net, regs := t.regs, delivered := t.delivered }) ∧
      ∀ r crc, packetCrc r ≠ crc → ∃ t, exec (.packetEject plane node cls (some (r, crc))) s = .next t ∧ t.netAt (netKey plane node 5 cls) = rest ∧
        t.delivered = s.delivered ∧ t.reg (0x3000 + node) 0x85 = satAdd 32 (s.reg (0x3000 + node) 0x85) 1 ∧
        t.reg 0x2A00 0x08 = satAdd 64 (s.reg 0x2A00 0x08) 1 ∧ t = { s.reported t with net := t.net, ctxs := t.ctxs }) ∧
    (∀ p : Packet, p.typ = 0x3E → s.isNext p = true → returnedField p 95 90 ∉ [0x02, 0x03, 0x25] →
      ((p.management = true ∨ (p.payload.getD 16 0 = 1 ∧ s.returnedAbsent p = true)) → ∃ t, exec (.returnPacket p {}) s = .next t ∧
        t = { s with delivered := s.delivered.erase p, out := s.out ++ (if returnedField p 95 90 = 0x12 then [.readData p.dst (List.replicate (bits (returnedField p 63 0) 58 48) 0) true] else []) }) ∧
      (p.management = false → p.payload.getD 16 0 ≠ 1 → s.ctxRuns p.ctx = true → ∃ t, exec (.returnPacket p {}) s = .next t ∧ t.ctxState p.ctx = 2 ∧
        t.delivered = s.delivered.erase p))

/-- Flits are taken, corrected, rejected and resent, and a link fails above its retry threshold (R247, R248). -/
def Obligations.MortarLinksRetryAndFail : Prop :=
  ∀ (s : State) (n : Endpoint) (plane : Plane) (d : Dir) (l l' : LinkState) (f : Flight) (fs : List Flight), s.Canonical →
    s.link (linkKey plane n d) = l → s.linkFailed plane n d = false → l.flight = f :: fs →
    l' = { l with flight := if f.left ≤ 1 then fs else { f with left := f.left - 1 } :: fs, expected := (l.expected + 1) % 64, fails := 0 } →
    (0 < f.left → l.rejecting = false →
      (∃ t, exec (.flitReceive n plane d .none) s = .next t ∧ t = { s with links := t.links } ∧ t.link (linkKey plane n d) = l' ∧
        ∀ k, k ≠ linkKey plane n d → t.link k = s.link k) ∧
      (∀ m, routerBeyond n d = some m → m < 3264 → ∃ t, exec (.flitReceive n plane d .corrected) s = .next t ∧ t = { s with links := t.links, regs := t.regs } ∧
        t.link (linkKey plane n d) = l' ∧
        t.reg (0x3000 + m) 0x83 = satAdd 32 (s.reg (0x3000 + m) 0x83) 1 ∧ ∀ k, k ≠ rk (0x3000 + m) 0x83 → t.regAt k = s.regAt k) ∧
      (l.fails + 1 ≤ s.reg 0x2A00 0x03 → ∃ t, exec (.flitReceive n plane d .bad) s = .next t ∧ t = { s with links := t.links } ∧
        t.link (linkKey plane n d) = { l with rejecting := true, fails := l.fails + 1 } ∧ ∀ k, k ≠ linkKey plane n d → t.link k = s.link k) ∧
      (s.reg 0x2A00 0x03 < l.fails + 1 → ∃ t, exec (.flitReceive n plane d .bad) s = .next t ∧
        (n.val < 3264 → (t.reg (0x3000 + n) 0x8A).testBit (4 * plane + d) = true) ∧ t.link (linkKey plane n d) = { failed := decide (3264 ≤ n.val) } ∧
        (∀ k, k ≠ linkKey plane n d → t.link k = s.link k) ∧ t.mem = s.mem ∧ t.running = s.running)) ∧
    (l.rejecting = true → ∃ t, exec (.linkRetry n plane d) s = .next t ∧ t = { s.reported t with links := t.links } ∧
      t.link (linkKey plane n d) = { l with rejecting := false, second := s.now / second + 1, retries := if l.second = s.now / second + 1 then l.retries + 1 else 1 } ∧
      (n.val < 3264 → t.reg (0x3000 + n) 0x84 = satAdd 32 (s.reg (0x3000 + n) 0x84) 1) ∧ ∀ k, k ≠ linkKey plane n d → t.link k = s.link k)

/-- Endpoints apply writes, reads, synchronised writes, read responses and plan writes (R146, R148, R162, R219, R231, R235, R250, R261, R262, R296). -/
def Obligations.EndpointsApplyPackets : Prop :=
  ∀ (s : State) (p : Packet), s.Canonical → s.atEndpoint p → p.payload.length = p.len →
    (∀ c : Instr, (p.typ = 0x20 ∧ c = .write p {}) ∨ (p.typ = 0x21 ∧ c = .writeOrdered p {}) →
      (∀ x : XTile, p.dst = 0xD00 + x → s.xRefuses x (packetAddr p) p.len = false → (∀ l ∈ linesOf (packetAddr p) p.len, s.retiredLine l = false) →
        ∃ t, exec c s = .next t ∧ s.wrote t (packetAddr p) p.payload ∧
          t = { s with delivered := s.delivered.erase p, mem := t.mem, poisonLines := t.poisonLines }) ∧
      (∀ k ws, s.reaches p p.len k ws → ws.Nodup → ∃ t, exec c s = .next t ∧
        s.wroteWords t k ws p.payload ∧ t = { s with delivered := s.delivered.erase p, regs := t.regs, mem := t.mem, tags := t.tags, stiles := t.stiles }) ∧
      (∀ l off, p.dst < 3264 → s.tileOf p.dst = some l → tileType l = 0 → placeOf (packetAddr p) = .store (mIndex l) off → off + p.len ≤ 0x80000 →
        s.writeLocked p.dst off p.len = none → ∃ t, exec c s = .next t ∧
          s.wrote t (storeAddr (mIndex l) off) p.payload ∧ t = { s with delivered := s.delivered.erase p, mem := t.mem, poisonWords := t.poisonWords })) ∧
    (p.typ = 0x12 → 0 < packetLen p → packetLen p ≤ 1024 →
      (∀ x : XTile, p.dst = 0xD00 + x → s.xRefuses x (packetAddr p) (packetLen p) = false → ∃ t, exec (.readRequest p {}) s = .next t ∧
        t = { s with delivered := s.delivered.erase p, issue := s.issue ++ [({ packet := readAnswer p (s.bytesAt (packetAddr p) (packetLen p)) (s.rangeBad (packetAddr p) (packetLen p)) } : Request)] }) ∧
      (∀ k ws, s.reaches p (packetLen p) k ws → ∃ t, exec (.readRequest p {}) s = .next t ∧
        t.issue = s.issue ++ [{ packet := readAnswer p (s.wordBytes k ws) (s.slotsPoisoned k ws) }] ∧
        t = { s with delivered := s.delivered.erase p, issue := t.issue, regs := t.regs })) ∧
    (p.typ = 0x22 → ∀ k j, s.reaches p 64 k (slotWords j) → p.len = 64 → packetAddr p % 64 = 0 →
      (s.syncReady k j .write = true → s.isWide p.dst (8 * j) = true → ∃ t, exec (.syncWrite p {}) s = .next t ∧ s.wroteWords t k (slotWords j) p.payload ∧
        t.slotTag k j = (if p.poison then 2 else 1) ∧ (∀ i, i ≠ k * 65536 + j → t.tagAt i = s.tagAt i) ∧
        t = { s with delivered := s.delivered.erase p, regs := t.regs, mem := t.mem, tags := t.tags, stiles := t.stiles }) ∧
      (s.syncReady k j .write = true → s.isWide p.dst (8 * j) = false → ∃ t, exec (.syncWrite p {}) s = .next t ∧ t.slotTag k j = 3 ∧
        (t.stile k).passages.length = (s.stile k).passages.length + 1 ∧ (∀ i, i ≠ k * 65536 + j → t.tagAt i = s.tagAt i) ∧
        t = { s with delivered := s.delivered.erase p, regs := t.regs, tags := t.tags, stiles := t.stiles }) ∧
      (s.syncReady k j .write = false → ∃ t, exec (.syncWrite p {}) s = .next t ∧ (t.stile k).blocked.length = (s.stile k).blocked.length + 1 ∧
        t = { s with delivered := s.delivered.erase p, regs := t.regs, stiles := t.stiles })) ∧
    (p.typ = 0x23 → (p.dst < 0xD00 ∨ 0xD80 ≤ p.dst) → ∃ t, exec (.readResponse p) s = .next t ∧
      t = { s with delivered := s.delivered.erase p, out := s.out ++ [.readData p.dst p.payload p.poison] }) ∧
    (p.typ = 0x25 → p.management = false → p.dst < 3264 → s.stewardUp (siteField p.dst) = true →
      ∀ (l k : Nat) (x : SlotPlan), s.tileOf p.dst = some l → k = l * 4 + bits p.operand 1 0 → s.planAt k = some x → x.ctx = p.ctx → x.left ≠ 0 →
        ∃ t, exec (.planWrite p) s = .next t ∧ t.planAt k = some { x with left := x.left - p.len, poison := x.poison || p.poison } ∧ (∀ j, j ≠ k → t.planAt j = s.planAt j) ∧
          (x.left ≤ p.len → s.slotState p.dst (bits p.operand 1 0) = 1 → t.slotState p.dst (bits p.operand 1 0) = 2) ∧
          (∀ d : ActiveDesc, x.left ≤ p.len → (s.ctx p.ctx).active = [d] → dOp d = 1 → d.started = true → d.status = none →
            (∀ j y, j ≠ k → s.planAt j = some y → ¬(y.ctx = p.ctx ∧ y.desc = d.num ∧ y.left ≠ 0)) → (t.ctx p.ctx).active = [{ d with status := some 0 }]) ∧
          t = { s with delivered := s.delivered.erase p, plans := t.plans, regs := t.regs, ctxs := t.ctxs })

/-- A tile becomes done and tells the coordinator or ends the RUN_SECTION, SECTION_DONE is collected and releases the union, and SECTION_RELEASE switches a tile (R212, R213, R220, R222, R223, R261, R262). -/
def Obligations.SectionsSwitch : Prop :=
  ∀ s : State, s.Canonical →
    (∀ (n : Site) (r : RunTile) (l : Nat), s.canBeDone n = true → s.active n = some r → s.tileOf n = some l →
      ((∀ c, (s.ctx c).switch = none) → (s.ctx r.ctx).runDesc = none → ∃ t, exec (.tileDone n) s = .next t ∧
        t.runningAt n = some { r with done := true } ∧ (∀ m, m ≠ n.val → t.runningAt m = s.runningAt m) ∧ t = { s with running := t.running }) ∧
      (∀ (c : Ctx) (w : SwitchState), (∀ c', c' ≠ c.val → (s.ctx c').switch = none) → (s.ctx r.ctx).runDesc = none → (s.ctx c).switch = some w → s.ctxRuns c = true →
        w.union.contains l = true → w.released = false → w.coordinator ≠ n.val → ∃ t, exec (.tileDone n) s = .next t ∧
        t.runningAt n = some { r with done := true } ∧ (∀ m, m ≠ n.val → t.runningAt m = s.runningAt m) ∧
        t = { s with running := t.running, issue := s.issue ++ [{ packet := flagPacket 0x05 c n w.coordinator w.next }] }) ∧
      (∀ d, (∀ c, (s.ctx c).switch = none) → (s.ctx r.ctx).runDesc = some d → (∀ m ∈ s.sectionSites r.ctx, m ≠ n.val → s.siteFree m = true) →
        ∃ t, exec (.tileDone n) s = .next t ∧ t.runningAt n = some { r with done := true } ∧ (∀ m, m ≠ n.val → t.runningAt m = s.runningAt m) ∧
        t.ctx r.ctx = { s.ctx r.ctx with runDesc := none, active := (s.ctx r.ctx).active.map fun e => if e.num = d ∧ e.status = none then { e with status := some 0 } else e } ∧
        s.ctxsBut t r.ctx ∧ t = { s with running := t.running, ctxs := t.ctxs })) ∧
    ∀ (p : Packet) (w : SwitchState) (l : Nat), s.isNext p = true → (s.ctx p.ctx).switch = some w → s.ctxRuns p.ctx = true →
      (∀ w' : SwitchState, p.typ = 0x05 → w.coordinator = p.dst → w.released = false → p.src < 0xD80 → s.tileOf p.src = some l → w.doneFrom.contains l = false →
        w' = { w with doneFrom := w.doneFrom ++ [l] } →
        (s.allDone w' = false → ∃ t, exec (.sectionDone p) s = .next t ∧ t.ctx p.ctx = { s.ctx p.ctx with switch := some w' } ∧ s.ctxsBut t p.ctx ∧
          t = { s with delivered := s.delivered.erase p, ctxs := t.ctxs }) ∧
        (s.allDone w' = true → s.invalidNext w' = none → ∃ t, exec (.sectionDone p) s = .next t ∧
          t.ctx p.ctx = { s.ctx p.ctx with switch := some { w' with released := true } } ∧ s.ctxsBut t p.ctx ∧
          t = { s with delivered := t.delivered, ctxs := t.ctxs, issue := t.issue })) ∧
      (∀ g : Nat, p.typ = 0x06 → s.awaits p = some (l, w) → s.tileFree l = true → p.includeSource = true → w.next < 4 → w.replay = false →
        (∀ x, w.foot.tiles.contains l = true → s.planAt (l * 4 + w.next) = some x → x.poison = false) →
        ∃ t, exec (.sectionRelease p g) s = .next t ∧ (t.mem = s.mem ∨ ∃ x ws, s.planAt (l * 4 + w.next) = some x ∧ x.u2 = some ws ∧ ws ≠ [] ∧ tileType l = 0) ∧
          (0 < g → (s.runningAt p.dst).isSome = true → t.reg (0x3000 + p.dst) 0x7A = satAdd 64 (s.reg (0x3000 + p.dst) 0x7A) g) ∧ t.delivered = s.delivered.erase p ∧
          (∀ m, m ≠ p.dst → t.runningAt m = s.runningAt m ∧ t.bondOf m = s.bondOf m) ∧
          (w.foot.tiles.contains l = false → t.runningAt p.dst = none ∧ t.bondOf p.dst = { stopped := (s.bondOf p.dst).stopped } ∧ t.reg (0x3000 + p.dst) 0x71 = 0xFF) ∧
          (∀ x : SlotPlan, w.foot.tiles.contains l = true → s.planAt (l * 4 + w.next) = some x → t.runningAt p.dst = some { ctx := p.ctx, slot := w.next } ∧
            t.bondOf p.dst = freshBond x.plan x.u2.isSome (s.bondOf p.dst).stopped ∧
            t.reg (0x3000 + p.dst) 0x71 = p.ctx ∧ t.slotState p.dst w.next = 4) ∧
          ((∀ u ∈ w.union, u = l ∨ w.switched.contains u = true) → t.reg (0x2700 + p.ctx) 0x31 = w.next ∧ t.reg (0x2700 + p.ctx) 0x32 = 0xFF ∧
            (t.ctx p.ctx).switch = none ∧ t.reg (0x2700 + p.ctx) 0x33 = satAdd 64 (s.reg (0x2700 + p.ctx) 0x33) 1) ∧
          (¬(∀ u ∈ w.union, u = l ∨ w.switched.contains u = true) → (t.ctx p.ctx).switch = some { w with switched := w.switched ++ [l] }))

/-- LOAD_PLAN, RUN_SECTION, COPY, FILL, POST_RING, QUANTISE and COMPRESS do what they do (R216, R219, R221, R224, R257, R259, R261, R262, R263, R264, R265, R270). -/
def Obligations.DataDescriptorsRun : Prop :=
  ∀ (s : State) (c : Ctx) (p : Nat) (before : List ActiveDesc) (d : ActiveDesc), s.Canonical → s.hostCame (dOrigin c p) = false →
    (s.Startable c p 0x01 before d → imageWaits c d s = false → ∀ (a slot : Nat), a = bits (dWord d 1) 47 0 → slot = bits (dWord d 2) 1 0 →
      (a % 64 ≠ 0 → ∃ t, exec (.loadPlan c p) s = .next t ∧ t.ctx c = (s.ctx c).began before d s.now (some 0x8001) ∧
        t = { s.reported t with ctxs := t.ctxs } ∧ s.ctxsBut t c) ∧
      (∀ (bs : List Byte) ps sect links (x : LoadTile) n, a % 64 = 0 → s.imageHeadOk c (s.bytesAt a 64) = true → bs = s.bytesAt a (imLength (s.bytesAt a 64)) →
        a + bs.length ≤ hbmEnd → touchesDump a bs.length = false → s.hbmServes a bs.length = true → s.rangeBad a bs.length = false → s.siteOf x.tile = some n →
        s.checkImage c slot bs = .good ps sect links [x] → ∃ t, exec (.loadPlan c p) s = .next t ∧ t.reg 0x2B00 0x02 = satAdd 64 (s.reg 0x2B00 0x02) 1 ∧
          t.planAt (x.tile * 4 + slot) = some { ctx := c, stamp := s.reg (0x2410 + tileRegion x.tile) 0x1B, section_ := sect, plan := x.plan, u2 := x.u2, left := x.bytes.length, desc := p } ∧
          t.slotState n slot = 1 ∧ t.issue = s.issue ++ planWrites c p slot n x.bytes ∧
          t.ctx c = { (s.ctx c).began before d s.now none with foot := ((s.ctx c).foot.filter fun f => decide (f.slot ≠ slot)) ++ [{ slot := slot, tiles := [x.tile], image := a, section_ := sect, links := links }] } ∧
          (∀ k, k ≠ x.tile * 4 + slot → t.planAt k = s.planAt k) ∧ s.ctxsBut t c ∧
          t = { s.reported t with ctxs := t.ctxs, plans := t.plans, issue := t.issue })) ∧
    (s.Startable c p 0x02 before d → (∀ e ∈ before, dOp e ≠ 0x01) → s.reg (0x2700 + c) 0x32 = 0xFF → s.fenceHolds c = false → ∀ slot, slot = bits (dWord d 1) 1 0 →
      (s.footOf c slot = none → ∃ t, exec (.runSection c p) s = .next t ∧ t.ctx c = (s.ctx c).began before d s.now (some 0x8001) ∧
        t = { s.reported t with ctxs := t.ctxs } ∧ s.ctxsBut t c) ∧
      (∀ (f : Footprint) (union : List Nat) (l0 k : Nat), s.footOf c slot = some f → f.tiles ≠ [] → (∀ l ∈ f.tiles, s.holdsLoad c slot l = true ∧ s.tileSlot l slot ≠ 5) →
        channelCycle (s.channels c) f.links = none → union = (List.range 3072).filter (fun l => f.tiles.contains l || (s.runningTiles c).contains l) →
        union.head? = some l0 → s.siteOf l0 = some k → ∃ t, exec (.runSection c p) s = .next t ∧ t.reg (0x2700 + c) 0x32 = slot ∧
          t.ctx c = { (s.ctx c).began before d s.now none with armDesc := some p, armFoot := some f, switch := some { next := slot, union := union, coordinator := k, foot := f } } ∧
          (∀ l ∈ f.tiles, ∀ n, s.siteOf l = some n → t.slotState n slot = 3) ∧ s.ctxsBut t c ∧
          t = { s with ctxs := t.ctxs, regs := t.regs, issue := t.issue, delivered := t.delivered })) ∧
    (∀ src dst n, src = bits (dWord d 1) 47 0 → dst = bits (dWord d 2) 47 0 → n = bits (dWord d 3) 39 0 → n % 8 = 0 → n ≠ 0 → dst % 8 = 0 →
      bits (dWord d 4) 1 0 ≠ 3 → s.hbmFree c true dst n → s.rangesWait (moveRanges d) = false →
      (s.Startable c p 0x03 before d → src % 8 = 0 → s.hbmFree c false src n → ∃ t, exec (.copy c p []) s = .next t ∧ s.wrote t dst (s.bytesAt src n) ∧
        t.ctx c = (s.ctx c).began before d s.now (some 0) ∧ s.ctxsBut t c ∧ t = { s with mem := t.mem, poisonLines := t.poisonLines, ctxs := t.ctxs }) ∧
      (s.Startable c p 0x04 before d → ∃ t, exec (.fill c p []) s = .next t ∧ s.wrote t dst (List.replicate (n / 8) (toBytes 8 (dWord d 5))).flatten ∧
        t.ctx c = (s.ctx c).began before d s.now (some 0) ∧ s.ctxsBut t c ∧ t = { s with mem := t.mem, poisonLines := t.poisonLines, ctxs := t.ctxs })) ∧
    (s.Startable c p 0x08 before d → ∀ r a l dst, r = bits (dWord d 1) 13 0 → a = bits (dWord d 2) 47 0 → l = bits (dWord d 3) 10 0 → r < 12288 → 0 < l → l ≤ 1024 →
      (rdEnabled (s.ring r).desc = true → l + 72 ≤ rdSize (s.ring r).desc) → s.sSite (ringTile r) = some dst → s.hbmFree c false a l →
      s.rangesWait (postSource d) = false →
      ∃ (t : State) (q : Request), exec (.postRing c p []) s = .next t ∧ t.issue = s.issue ++ [q] ∧ q.packet.typ = 0x24 ∧ q.packet.dst = dst ∧ q.packet.src = queueEndpoint c ∧
        q.packet.ctx = c ∧ q.packet.len = l ∧ q.packet.payload = s.bytesAt a l ∧ bits q.packet.operand 13 0 = r ∧
        t.ctx c = { (s.ctx c).began before d s.now none with ringPosts := (s.ctx c).ringPosts ++ [r] } ∧ s.ctxsBut t c ∧ t = { s with ctxs := t.ctxs, issue := t.issue }) ∧
    (∀ vs xs, (conversionOf d).Runs s c p vs xs → s.rangesWait (convertRanges d) = false →
      (s.Startable c p 0x09 before d → ∃ t, exec (.quantise c p []) s = .next t ∧ s.converted t xs ∧ t.ctx c = (s.ctx c).began before d s.now (some 0) ∧ s.ctxsBut t c) ∧
      (s.Startable c p 0x0A before d → ∃ t, exec (.compress c p []) s = .next t ∧ s.converted t xs ∧ t.ctx c = (s.ctx c).began before d s.now (some 0) ∧ s.ctxsBut t c))

/-- Bond memory requests, lines, the patrol, temperature, memory tests and orphaned X-tiles (R295, R297, R298, R299, R301, R302, R303, R307, R308, R309). -/
def Obligations.MemoryEdgesServe : Prop :=
  ∀ s : State, s.Canonical →
    (∀ (x : XTile) (tr : Transfer) (rest : List Transfer), (s.xtile x).inq = tr :: rest → (s.xtile x).orphan = false → s.lintelOpen x = true →
      tr.control = false → tr.isMeta = false →
      (∀ (k part waited : Nat) (y : XCore), brOp tr = 0 → k = (s.xtile x).served → part = min 256 (brLines tr - k) → (s.xtile x).inFlight + part ≤ 256 →
        y = (if brLines tr ≤ k + part then { s.xtile x with inq := rest, served := 0 } else { s.xtile x with served := k + part }) →
        (s.brFails x tr = false → ∃ t, exec (.bondMemoryRead x {} waited) s = .next t ∧ (∀ z, z ≠ x.val → t.xtile z = s.xtile z) ∧ t = { s with xtiles := t.xtiles, regs := t.regs } ∧
          (0 < waited → t.reg (0x3000 + xSite x) 0x73 = satAdd 64 (s.reg (0x3000 + xSite x) 0x73) waited) ∧
          (∀ j, j ≠ rk (0x3000 + xSite x) 0x73 → t.regAt j = s.regAt j) ∧
          t.xtile x = { y with outq := (s.xtile x).outq ++ (List.range part).map (fun i => ({ data := s.load (brAddr tr + 64 * k + 64 * i) 64, chan := tr.chan, poison := s.lineBad (brAddr tr / 64 + k + i) } : Transfer)) }) ∧
        (s.brFails x tr = true → ∃ t, exec (.bondMemoryRead x {} waited) s = .next t ∧ (∀ z, z ≠ x.val → t.xtile z = s.xtile z) ∧ t = { s.reported t with xtiles := t.xtiles } ∧
          t.xtile x = { y with outq := (s.xtile x).outq ++ List.replicate part { chan := tr.chan, poison := true } })) ∧
      (∀ (ds : List Transfer) (c : Instr), (brOp tr = 1 ∧ c = .bondMemoryWrite x) ∨ (brOp tr = 2 ∧ c = .bondMemoryWriteAck x) → s.brFails x tr = false → ds = channelFirst tr.chan (brLines tr) rest → ds.length = brLines tr →
        (∀ i, i < brLines tr → s.retiredLine (brAddr tr / 64 + i) = false) →
        ∃ t, exec c s = .next t ∧
          s.wrote t (brAddr tr) (ds.flatMap fun d => d.bytes) ∧ (∀ y, y ≠ x.val → t.xtile y = s.xtile y) ∧
          t.xtile x = { s.xtile x with inq := channelRest tr.chan (brLines tr) rest, outq := (s.xtile x).outq ++ (if brOp tr = 2 then [{ chan := tr.chan, control := true }] else []) } ∧
          t = { s with xtiles := t.xtiles, mem := t.mem, poisonLines := t.poisonLines })) ∧
    (∀ (c : Ctx) (line : HbmLine) (l k : Nat), l = deinterleave line.stack line.channel line.offset / 64 → k = (interleave (64 * l)).1 → s.stackServes k = true → s.lineBad l = false →
      (∃ t, exec (.hbmLineReady c line .corrected) s = .next t ∧ t.reg 0x2D00 0x09 = satAdd 64 (s.reg 0x2D00 0x09) 1 ∧
        t.reg (0x4100 + k) 0x05 = satAdd 64 (s.reg (0x4100 + k) 0x05) 1 ∧ t = { s.reported t with hbm := t.hbm }) ∧
      (∃ t, exec (.hbmLineReady c line .uncorrectable) s = .next t ∧ t.linePoisoned l = true ∧ (∀ j, j ≠ l → t.linePoisoned j = s.linePoisoned j) ∧
        t.reg 0x2D00 0x0A = satAdd 64 (s.reg 0x2D00 0x0A) 1 ∧ t.reg (0x4100 + k) 0x06 = satAdd 32 (s.reg (0x4100 + k) 0x06) 1 ∧ t = { s.reported t with poisonLines := t.poisonLines })) ∧
    (∀ (st : Stack) (ch : Fin 32), s.reg 0x2D00 0x03 ≠ 0 → s.reg (0x4100 + st) 0x01 = 1 → ∃ t, exec (.hbmPatrol st ch .none) s = .next t ∧
      t.stackOf st = { s.stackOf st with patrol := (s.stackOf st).patrol.set ch (((s.stackOf st).patrol.getD ch 0 + 1) % 2 ^ 25) } ∧
      (∀ j, j ≠ st.val → t.stackOf j = s.stackOf j) ∧ t = { s with hbm := t.hbm, regs := t.regs } ∧ ∀ k, k ≠ rk (0x4100 + st) 0x07 → t.regAt k = s.regAt k) ∧
    (∀ (st : Stack) (celsius : Int), s.mainOn = true → ∃ t, exec (.stackTemperature st celsius) s = .next t ∧ t.reg (0x4100 + st) 0x04 = unsigned 16 celsius ∧
      t.stackOf st = { s.stackOf st with doubled := (if 85 < celsius then true else if celsius < 80 then false else (s.stackOf st).doubled), level := throttleLevel (s.stackOf st).level celsius } ∧
      (∀ j, j ≠ st.val → t.stackOf j = s.stackOf j) ∧ t = { s.reported t with hbm := t.hbm } ∧ s.scalarsBut [rk (0x4100 + st) 0x04] t) ∧
    (∀ p : Path, s.serves p = true → s.controllerDown = false → s.allFree = true → s.memTest = none →
      (∃ t, exec (.memoryTestQuick p) s = .next t ∧ t = { s.answered t with memTest := some 1 } ∧ t.out = s.out ++ [.dictDone p 0 0]) ∧
      ∃ t, exec (.memoryTestFull p) s = .next t ∧ t = { s.answered t with memTest := some 2 } ∧ t.out = s.out ++ [.dictDone p 0 0]) ∧
    (∀ m, s.memTest = some m → ∃ t, exec (.memoryTestEnd []) s = .next t ∧ t.memTest = none ∧ t.retired = (if m = 2 then [] else s.retired) ∧
      (∀ a, a < hbmEnd → s.reg (0x4100 + (interleave a).1) 0x01 = 1 → t.retiredLine (a / 64) = false → readByte t.mem a = 0) ∧
      (∀ a, hbmEnd ≤ a ∨ s.reg (0x4100 + (interleave a).1) 0x01 ≠ 1 ∨ t.retiredLine (a / 64) = true → readByte t.mem a = readByte s.mem a) ∧
      t = { s with mem := t.mem, poisonLines := t.poisonLines, dumps := t.dumps, retired := t.retired, memTest := none }) ∧
    (∀ (f : TestFinding) (g : Nat), s.memTest = some 1 → g = f.address / 256 * 256 → s.reg (0x4100 + (interleave g).1) 0x01 = 1 → (∀ e ∈ s.retired, e.1 ≠ g) →
      s.retired.length < 4096 → s.retiredOf (homeX g) < 32 → ∃ t, exec (.memoryTestEnd [f]) s = .next t ∧ t.retired = s.retired ++ [(g, f.cause)] ∧ t.memTest = none) ∧
    (∀ x : XTile, (s.xtile x).orphan = false → ∃ t, exec (.xTileOrphaned x) s = .next t ∧ t.xtile x = { orphan := true } ∧
      (∀ y, y ≠ x.val → t.xtile y = s.xtile y) ∧ t = { s.reported t with xtiles := t.xtiles, free := t.free })

/-- Die links, lintels, BAR4, the host ports and the Ethernet links (R311, R312, R314, R315, R321, R324, R325, R326, R327, R328, R329, R479). -/
def Obligations.PortsAndLinksWork : Prop :=
  ∀ s : State, s.Canonical →
    (∀ (q : Die) (k : Nat) (ms : List (Fin 2)) (now : Nat), s.mainOn = true → s.dieUp q = true →
      now = (ms.map (·.val)).eraseDups.foldl setBit (s.modulesFailed q) →
      (now ≠ 3 → ∃ t, exec (.ucieLinkFailure q ms k) s = .next t ∧ t.modulesFailed q = now ∧ (∀ j, j ≠ q.val → t.modulesFailed j = s.modulesFailed j) ∧
        t.reg (0x4200 + q) 0x01 = (if now = s.modulesFailed q then s.reg (0x4200 + q) 0x01 else 1) ∧ t.reg (0x4200 + q) 0x02 = satAdd 32 (s.reg (0x4200 + q) 0x02) 1 ∧
        t.reg (0x4200 + q) 0x03 = satAdd 64 (s.reg (0x4200 + q) 0x03) k ∧ t = { s.reported t with dieModules := t.dieModules } ∧
        s.scalarsBut [rk (0x4200 + q) 0x01, rk (0x4200 + q) 0x02, rk (0x4200 + q) 0x03] t) ∧
      (now = 3 → ∃ t, exec (.ucieLinkFailure q ms k) s = .next t ∧ t.modulesFailed q = 3 ∧ t.reg (0x4200 + q) 0x01 = 2 ∧
        ∀ c : Ctx, queueDie c = q → s.ctxRuns c = true → t.ctxState c = 2)) ∧
    (∀ (l : Lintel) (k : Nat), k = lintelKey l →
      (clockMayStop l = true → ∃ t, exec (.lintelClockStop l 0) s = .next t ∧ t.lintel k = { s.lintel k with stopped := true } ∧ (∀ j, j ≠ k → t.lintel j = s.lintel j) ∧ t = { s with lintels := t.lintels }) ∧
      (∃ t, exec (.lintelClockReturn l) s = .next t ∧
        t.lintel k = { s.lintel k with stopped := false, bell := if 128 ≤ k ∧ k < 132 ∧ (s.lintel k).closed = false then {} else (s.lintel k).bell } ∧
        (∀ j, j ≠ k → t.lintel j = s.lintel j) ∧ (∀ c : Ctx, k = 128 + queueDie c → (s.lintel k).closed = false → (t.ctx c).doorbell = none) ∧
        ((k < 128 ∨ 132 ≤ k) → t = { s with lintels := t.lintels }) ∧ t = { s.reported t with lintels := t.lintels, ctxs := t.ctxs }) ∧
      ((s.lintel k).clockedReset = false → (s.lintel k).coreReset = false → (s.lintel k).stopped = false →
        (∀ r ∈ s.issue, 128 ≤ k → lintelEndpoint k ≠ some r.packet.src) → (∀ a ∈ s.hostWindow, 128 + 2 * a.port ≠ k) → ∃ t, exec (.lintelReset l .clocked) s = .next t ∧
        t.lintel k = { s.lintel k with closed := true, clockedReset := true } ∧ (∀ p ∈ t.delivered, lintelEndpoint k ≠ some p.dst) ∧ t.xTransfers k = 0 ∧
        t.reg 0x2E00 0x03 = satAdd 64 (s.reg 0x2E00 0x03) ((s.delivered.filter fun p => lintelEndpoint k == some p.dst).length + s.xTransfers k) ∧
        (∀ j, j ≠ k → t.lintel j = s.lintel j) ∧ t = { s.reported t with lintels := t.lintels, delivered := t.delivered, xtiles := t.xtiles, issue := t.issue, ctxs := t.ctxs }) ∧
      ((s.lintel k).coreReset = false → (s.lintel k).clockedReset = false → (s.lintel k).stopped = true → ∃ t, exec (.lintelReset l .core) s = .next t ∧
        t.lintel k = { s.lintel k with closed := true, coreReset := true, owed := true } ∧ (∀ j, j ≠ k → t.lintel j = s.lintel j) ∧ t = { s with lintels := t.lintels }) ∧
      ((s.lintel k).closed = true → (s.lintel k).stopped = false → (s.lintel k).owed = false → ∃ t, exec (.lintelReopen l) s = .next t ∧
        t.lintel k = {} ∧ (∀ j, j ≠ k → t.lintel j = s.lintel j) ∧ ((k < 128 ∨ 132 ≤ k) → t = { s with lintels := t.lintels }) ∧
        t = { s.reported t with lintels := t.lintels, ctxs := t.ctxs })) ∧
    (∀ (h : HostPort) (off n a : Nat), s.serves (hostPath h) = true → off + n ≤ bar4Size → a = s.reg 0x2E10 0x04 + off →
      (s.isActivePort h = true → s.computeReset = false → s.rangesWait [(a, n)] = false → a + n ≤ hbmEnd →
        (∀ (bytes : List Byte) (poison : Bool), bytes.length = n → (∀ x ∈ accessParts a n, (s.hostFault h true x.1 x.2).isNone = true) → (∀ l ∈ linesOf a n, s.retiredLine l = false) →
          ∃ t, exec (.bar4Write h off bytes poison []) s = .next t ∧ s.wrote t a bytes ∧ t = { s with mem := t.mem, poisonLines := t.poisonLines }) ∧
        ((∀ x ∈ accessParts a n, (s.hostFault h false x.1 x.2).isNone = true) → ∃ t, exec (.bar4Read h off n []) s = .next t ∧
          t = { s with out := s.out ++ [.hostRead h 0 (s.bytesAt a n) (s.rangeBad a n)] })) ∧
      (s.isActivePort h = false → ∀ (bytes : List Byte) (poison : Bool), bytes.length = n → ∃ t, exec (.bar4Write h off bytes poison []) s = .next t ∧
        t.reg 0x2E10 0x09 = satAdd 64 (s.reg 0x2E10 0x09) 1 ∧ t = s.reported t ∧ s.scalarsBut [rk 0x2E10 0x09] t) ∧
      (s.isActivePort h = true → s.computeReset = true → ∃ t, exec (.bar4Read h off n []) s = .next t ∧ t = { s with out := s.out ++ [.hostRead h 2 [] false] })) ∧
    (∀ (p : Path) (v : Nat), s.serves p = true → s.controllerDown = false → v < 2 → v ≠ s.reg 0x2E10 0x01 → s.portUp (s.reg 0x2E10 0x01) = true →
      ∃ t, exec (.hostPortSwitch p v) s = .next t ∧ t.reg 0x2E10 0x01 = v ∧ t = (s.reported t).answered t ∧ s.scalarsBut [rk 0x2E10 0x01] t) ∧
    (∀ downMs old, old = s.reg 0x2E10 0x01 → s.reg 0x2E10 0x02 = 1 → s.reg 0x2E10 (0x06 + old) = 0 → s.reg 0x2E10 0x03 ≤ downMs → s.portUp (1 - old) = true →
      (∀ a ∈ s.hostWindow, a.port ≠ old) → ∃ t, exec (.hostFailover downMs) s = .next t ∧ t.reg 0x2E10 0x01 = 1 - old ∧ t = s.reported t ∧ s.scalarsBut [rk 0x2E10 0x01] t) ∧
    (∀ h : HostPort, s.reg 0x2E10 (0x06 + h) ≠ 0 →
      (∃ t, exec (.hostLinkDown h) s = .next t ∧ t.reg 0x2E10 (0x06 + h) = 0 ∧ t = s.reported t ∧ s.scalarsBut [rk 0x2E10 (0x06 + h)] t) ∧
      ∃ t, exec (.perstN h) s = .next t ∧ t.reg 0x2E10 (0x06 + h) = 0 ∧ t = s.reported t ∧ s.scalarsBut [rk 0x2E10 (0x06 + h)] t) ∧
    (∀ (h : HostPort) (rate width : Nat), s.powered 5 = true → s.dieUp (2 * h) = true → s.reg 0x2E10 (0x06 + h) = 0 → rate ∈ [64, 32, 16, 8, 5, 2] → width ∈ [1, 2, 4, 8, 16] →
      ∃ t, exec (.hostLinkUp h rate width) s = .next t ∧ t.reg 0x2E10 (0x06 + h) = rate * 256 + width ∧ t = s.reported t ∧ s.scalarsBut [rk 0x2E10 (0x06 + h)] t) ∧
    (∀ (id : Nat) (bytes : List Byte) (a : HostAccess), (s.hostWindow.find? fun b => decide (b.id = id)) = some a →
      (∀ h, a.packet = none → a.origin = .host h → ∃ t, exec (.hostWindowCompletion id true bytes) s = .next t ∧
        t = { s with hostWindow := s.hostWindow.filter (fun b => decide (b.id ≠ id)), out := s.out ++ [.hostRead h 0 (padTo a.len bytes) false] }) ∧
      (∀ p, a.packet = some p → p.typ = 0x12 → ∃ t, exec (.hostWindowCompletion id true bytes) s = .next t ∧
        t = { s with hostWindow := s.hostWindow.filter (fun b => decide (b.id ≠ id)), issue := s.issue ++ [({ packet := readAnswer p (padTo a.len bytes) false } : Request)] })) ∧
    (∀ e : EthPort, (s.powered 6 = true → s.dieUp (e / 4) = true → s.reg (0x2E20 + e) 0x01 = 0 → s.reg (0x2E20 + e) 0x02 ≠ 0 →
        ∃ t, exec (.ethernetLinkUp e) s = .next t ∧ t.reg (0x2E20 + e) 0x01 = 1 ∧ t = s.reported t ∧ s.scalarsBut [rk (0x2E20 + e) 0x01] t) ∧
      (s.reg (0x2E20 + e) 0x01 = 1 → ∃ t, exec (.ethernetLinkDown e) s = .next t ∧ t.reg (0x2E20 + e) 0x01 = 0 ∧ t = s.reported t ∧
        s.scalarsBut [rk (0x2E20 + e) 0x01, rk 0x2E40 0x04] t))

/-- Queue-pair records, producer counts, requests, completions, packets from the network, rates and timeouts (R330, R331, R332, R333, R334, R335, R336, R337, R338, R339). -/
def Obligations.QueuePairsSendAndReceive : Prop :=
  ∀ (s : State) (q : Die) (i : PairNo) (n : Nat) (x : Pair), s.Canonical → n = 256 * q.val + i.val → s.pair n = x →
    (∀ (p : Path) (bytes : List Byte), s.serves p = true → s.selectedPair p q = n → bytes.length = 64 → (pairRecordCommand p q bytes).code s (0x4200 + q) 0x06 = 0 →
      ∃ t, exec (.queuePairRecordWrite p q bytes) s = .next t ∧ (t.pair n).words = recordImage bytes ∧ (t.pair n).sends = [] ∧ (t.pair n).recvs = [] ∧
        (∀ m, m ≠ n → t.pair m = s.pair m) ∧ t.out = s.out ++ [.dictDone p 0 0] ∧ t = { s.answered t with pairs := t.pairs, rdmaIn := t.rdmaIn, hostData := t.hostData }) ∧
    (∀ v, v < 2 ^ 32 → s.dieUp q = true →
      ((v + 2 ^ 32 - x.sendCons) % 2 ^ 32 ≤ 64 → ∃ t, exec (.sendProducerWrite q i v) s = .next t ∧ s.pairIs t n { x with sendProd := v } ∧ t = { s with pairs := t.pairs }) ∧
      ((v + 2 ^ 32 - x.recvCons) % 2 ^ 32 ≤ 64 → ∃ t, exec (.receiveProducerWrite q i v) s = .next t ∧ s.pairIs t n { x with recvProd := v } ∧ t = { s with pairs := t.pairs }) ∧
      (64 < (v + 2 ^ 32 - x.sendCons) % 2 ^ 32 → ∃ t, exec (.sendProducerWrite q i v) s = .next t ∧
        t.reg (0x4200 + q) 0x08 = satAdd 32 (s.reg (0x4200 + q) 0x08) 1 ∧ t = s.reported t)) ∧
    (∀ (ws : List Nat) (bs : List Byte), bs = s.bytesAt (wrLocal ws) (wrLen ws) →
      (s.localHbm n false (wrLocal ws) (wrLen ws) →
        (s.SendsNext n 1 ws → ∃ t, exec (.send q i []) s = .next t ∧ s.sent t n ws (.send bs)) ∧
        (s.SendsNext n 3 ws → ∃ t, exec (.rdmaWrite q i []) s = .next t ∧ s.sent t n ws (.write (wrKey ws) (wrRemote ws) bs)) ∧
        (s.SendsNext n 4 ws → ∃ t, exec (.rdmaWriteImm q i []) s = .next t ∧ s.sent t n ws (.writeImm (wrKey ws) (wrRemote ws) bs (wrImm ws)))) ∧
      (s.SendsNext n 5 ws → ∃ t, exec (.rdmaRead q i) s = .next t ∧ s.sent t n ws (.readRequest (wrKey ws) (wrRemote ws) (wrLen ws))) ∧
      (∀ (w f y : LocalData) (z : Nat) (msg : List Byte), s.SendsNext n 2 ws → s.localHbm n false (wrWords ws) (8 * wrLen ws) → w = s.localRead [] (.pair n) (wrWords ws) (8 * wrLen ws) →
        z = storedBytes (wrImm ws) (tensorForm ((List.range (wrLen ws)).map fun b => ofBytes (w.bytes (8 * b) 8))) →
        s.localHbm n false (wrLocal ws) (z * wrLen ws) → f = s.localRead [] (.pair (n + 2048)) (wrLocal ws) (z * wrLen ws) →
        s.localHbm n false (wrIndex ws) (4 * wrLen ws) → y = s.localRead [] (.pair (n + 3072)) (wrIndex ws) (4 * wrLen ws) →
        msg = tensorMessage (wrImm ws) (tensorBlocks (wrImm ws) (wrLen ws) w f y) → msg.length ≤ 2 ^ 31 + 16 →
        ∀ ks, ks = malformedKinds (tensorFaults (wrImm ws) (wrLen ws) w f y) → ∃ t, exec (.sendTensor q i []) s = .next t ∧ (ks = (0, 0) → s.sent t n ws (.sendTensor msg)) ∧
          (0 < ks.1 → t.reg 0x2C01 0x08 = satAdd 64 (s.reg 0x2C01 0x08) ks.1) ∧ (t.pair n).sendCons = (x.sendCons + 1) % 2 ^ 32 ∧ ∀ m, m ≠ n → t.pair m = s.pair m) ∧
      (s.ReceivesNext n 8 ws → ∃ t, exec (.receive q i) s = .next t ∧
        s.pairIs t n { x with recvCons := (x.recvCons + 1) % 2 ^ 32, recvs := x.recvs ++ [(ws, none)] } ∧ t = { s with pairs := t.pairs }) ∧
      (s.ReceivesNext n 9 ws → ∃ t, exec (.receiveTensor q i) s = .next t ∧
        s.pairIs t n { x with recvCons := (x.recvCons + 1) % 2 ^ 32, recvs := x.recvs ++ [(ws, none)] } ∧ t = { s with pairs := t.pairs })) ∧
    (s.dieUp q = true → s.lintelOpen (128 + q) = true →
      (∀ (ws : List Nat) (st imm : Nat) rest, x.recvs = (ws, some (st, imm)) :: rest → bit (ws.headD 0) 17 = false → bit (ws.headD 0) 16 = false →
        ∃ t, exec (.workRequestComplete q i true) s = .next t ∧ s.pairIs t n { x with recvs := rest } ∧ t = { s with pairs := t.pairs }) ∧
      (∀ (r : SendReq) (rest : List SendReq) (st a : Nat), x.sends = r :: rest → r.status = some st → a = bits (r.words.getD 5 0) 47 0 →
        (bit (r.words.headD 0) 17 = true → bit (r.words.headD 0) 16 = false → s.localHbm n true a 8 →
          ∃ t, exec (.workRequestComplete q i false) s = .next t ∧ s.pairIs t n { x with sends := rest } ∧ s.wrote t a (toBytes 8 (place st 48)) ∧
            t = { s with pairs := t.pairs, mem := t.mem, poisonLines := t.poisonLines }) ∧
        (∀ m, bit (r.words.headD 0) 17 = false → bit (r.words.headD 0) 16 = true → s.resolve x.owner (bits (r.words.headD 0) 15 0) = .cell m → m < 3264 →
          ∃ t, exec (.workRequestComplete q i false) s = .next t ∧ s.pairIs t n { x with sends := rest } ∧
            t.issue = s.issue ++ [{ packet := flagPacket 0x01 x.owner (0xD80 + q) m (bits (r.words.headD 0) 15 0), origin := .pair n }] ∧ t = { s with pairs := t.pairs, issue := t.issue })) ∧
      (∀ psn k a b, (s.rdmaIn.find? fun e => decide (e.1 / 256 = q.val)) = some (n, psn, .write k a b) → x.state = 1 → x.exposes (k, a, b.length) = true →
        s.localHbm n true a b.length → s.reg (0x2E20 + pairPort n x) 0x01 = 1 → ∃ t, exec (.incomingRdma q []) s = .next t ∧ s.wrote t a b ∧
          t.rdmaIn = s.rdmaIn.erase (n, psn, .write k a b) ∧ s.pairIs t n { x with expPsn := (x.expPsn + x.packets b.length) % 2 ^ 24 } ∧
          t.out = s.out ++ [.roce n .ack ((x.expPsn + x.packets b.length - 1) % 2 ^ 24)] ∧
          t = { s with mem := t.mem, poisonLines := t.poisonLines, pairs := t.pairs, rdmaIn := t.rdmaIn, hostData := t.hostData, out := t.out, regs := t.regs })) ∧
    (∀ (e : EthPort) (psn u v : Nat), e.val / 4 = q.val → s.reg (0x2E20 + e) 0x01 = 1 → s.dieUp q = true → s.lintelOpen (128 + q) = true →
      (∀ op, ∃ t, exec (.rocePacketReceive e ⟨i, psn, false, op, u, v⟩ []) s = .next t ∧ s.pairIs t n { x with icrcErrors := x.icrcErrors + 1 } ∧ t = { s with pairs := t.pairs, regs := t.regs }) ∧
      (x.state = 1 → pairPort n x = e.val →
        (∀ k a b, psn = s.arrivalPsn n → ∃ t, exec (.rocePacketReceive e ⟨i, psn, true, .write k a b, u, v⟩ []) s = .next t ∧
          t = { s with rdmaIn := s.rdmaIn ++ [(n, psn, .write k a b)], regs := t.regs }) ∧
        (∀ op, isRequest op = true → psn ≠ s.arrivalPsn n → psnPast psn (s.arrivalPsn n) = false →
          ∃ t, exec (.rocePacketReceive e ⟨i, psn, true, op, u, v⟩ []) s = .next t ∧ t = { s with out := s.out ++ [.roce n .nakSequence (s.arrivalPsn n)], regs := t.regs }) ∧
        (∀ b, psnPast psn (s.arrivalPsn n) = true → psn ≠ s.arrivalPsn n → ∃ t, exec (.rocePacketReceive e ⟨i, psn, true, .send b, u, v⟩ []) s = .next t ∧
          t = { s with out := s.out ++ [.roce n .ack ((x.expPsn + 2 ^ 24 - 1) % 2 ^ 24)], regs := t.regs }) ∧
        (∀ (b : List Byte) (ws : List Nat), psn = s.arrivalPsn n → (∀ y ∈ s.rdmaIn, y.1 ≠ n) → x.waitingReceive = some ws → wrOp ws = 8 → b.length ≤ wrLen ws → s.localHbm n true (wrLocal ws) b.length →
          ∃ t, exec (.rocePacketReceive e ⟨i, psn, true, .send b, u, v⟩ []) s = .next t ∧ s.wrote t (wrLocal ws) b ∧
            s.pairIs t n { x with recvs := endReceive.mark 0 0 x.recvs, expPsn := (x.expPsn + x.packets b.length) % 2 ^ 24 } ∧
            t.out = s.out ++ [.roce n .ack ((x.expPsn + x.packets b.length - 1) % 2 ^ 24)] ∧
            t = { s with mem := t.mem, poisonLines := t.poisonLines, pairs := t.pairs, out := t.out, regs := t.regs }))) ∧
    (∀ (e : EthPort) (psn u v : Nat) (b : List Byte), e.val / 4 = q.val → s.reg (0x2E20 + e) 0x01 = 1 → s.dieUp q = true → s.lintelOpen (128 + q) = false →
      x.state = 1 → pairPort n x = e.val → psn = s.arrivalPsn n →
      ∃ t, exec (.rocePacketReceive e ⟨i, psn, true, .send b, u, v⟩ []) s = .next t ∧ t.reg (0x2E20 + e) 0x0A = satAdd 64 (s.reg (0x2E20 + e) 0x0A) 1 ∧
        t = { s with rdmaIn := s.rdmaIn ++ [(n, psn, .send b)], out := s.out ++ [.pause e (bits (x.words.headD 0) 50 48)], regs := t.regs }) ∧
    (s.dieUp q = true → x.state = 1 →
      (∀ us, 50 ≤ us → ∃ t, exec (.cnpReceive q i us) s = .next t ∧ s.pairIs t n { x with rate := x.rate / 2 } ∧ t = { s with pairs := t.pairs }) ∧
      (∃ t, exec (.rateIncreaseTick q i) s = .next t ∧ s.pairIs t n { x with rate := min (2 ^ 64) (x.rate + 2 ^ 58) } ∧ t = { s with pairs := t.pairs }) ∧
      (x.outstanding ≠ [] → x.retries ≠ 0 → ∃ t, exec (.ackTimeout q i) s = .next t ∧ s.pairIs t n { x with retries := x.retries - 1 } ∧
        t = { s with pairs := t.pairs, out := t.out, regs := t.regs }) ∧
      (x.outstanding ≠ [] → x.retries = 0 → ∃ t, exec (.ackTimeout q i) s = .next t ∧ (t.pair n).state = 2 ∧ (t.pair n).outstanding = [] ∧
        t = { s.reported t with pairs := t.pairs }))

/-- A watchdog expires, and dumps are captured, finished, copied to flash and emptied (R446, R448, R449, R451, R452). -/
def Obligations.WatchdogsAndDumps : Prop :=
  ∀ s : State, s.Canonical →
    (∀ (c : Ctx) (beats : Nat), s.watchdogDue c beats = true →
      (∀ k, s.dumpSlot = some k → k < s.dumps.length → ∃ t, exec (.watchdogExpiry c beats) s = .next t ∧ t.reg (0x2700 + c) 0x36 = beats ∧
        t.reg (0x2700 + c) 0x3A = (s.stopPoint c).site ∧ t.reg (0x2700 + c) 0x3C = satAdd 32 (s.reg (0x2700 + c) 0x3C) 1 ∧ t.ctxState c = 1 ∧
        (∃ d : DumpSlot, d.state = 1 ∧ d.ctx = c ∧ d.watchdog = true ∧ t.dumps = s.dumps.set k d) ∧ t = { s.reported t with dumps := t.dumps, free := t.free }) ∧
      (s.dumpSlot = none → ∃ t, exec (.watchdogExpiry c beats) s = .next t ∧ t.ctxState c = 2 ∧ t.dumps = s.dumps)) ∧
    (∀ (p : Path) (c : Ctx) (k : Nat), s.serves p = true → s.controllerDown = false → s.ctxState c = 2 → s.dumpSlot = some k →
      ∃ t, exec (.capture p c) s = .next t ∧ (∃ d : DumpSlot, d.state = 1 ∧ d.ctx = c ∧ d.watchdog = false ∧ t.dumps = s.dumps.set k d) ∧
        t.out = s.out ++ [.dictDone p 0 0] ∧ t = { s.answered t with dumps := t.dumps, free := t.free }) ∧
    (∀ (k : Fin 4) (d : DumpSlot), s.dumps.getD k {} = d → d.state = 1 →
      (d.watchdog = false → ∃ t, exec (.dumpCaptureComplete k) s = .next t ∧ t.dumps = s.dumps.set k { d with state := 2, since := s.now } ∧
        t.reg (0x2700 + d.ctx) 0x3B = k ∧ t.dumpCopying = some d.bytes ∧ t = { s.reported t with dumps := t.dumps, dumpCopying := t.dumpCopying } ∧
        s.scalarsBut [rk (0x2700 + d.ctx) 0x3B] t) ∧
      (d.watchdog = true → s.ctxRuns d.ctx = true → ∃ t, exec (.dumpCaptureComplete k) s = .next t ∧ t.ctxState d.ctx = 2 ∧
        t.dumps = s.dumps.set k { d with state := 2, since := s.now, watchdog := false } ∧ t.dumpCopying = some d.bytes)) ∧
    (∀ bs, s.dumpCopying = some bs → ∃ t, exec .dumpFlashCopyComplete s = .next t ∧ t = { s with dumpFlash := bs, dumpCopying := none }) ∧
    (∀ (p : Path) (v : Nat), s.serves p = true → s.controllerDown = false → v ≠ 0 → (s.dumps.getD (s.selectedDump p) {}).state ≠ 1 →
      ∃ t, exec (.emptySlot p v) s = .next t ∧ t.dumps = s.dumps.set (s.selectedDump p) {} ∧ t.out = s.out ++ [.dictDone p 0 0] ∧
        t = { s.answered t with dumps := t.dumps })

/-- The state field of a course entry follows its fenced count (R42). -/
def Obligations.CourseStateField : Prop :=
  ∀ mask k : Nat, mask < 2 ^ 17 → k = ((List.range 17).filter fun b => mask.testBit b).length →
    (k = 0 → bits (courseEntry mask) 23 22 = 0) ∧ (k = 1 → bits (courseEntry mask) 23 22 = 1) ∧ (2 ≤ k → bits (courseEntry mask) 23 22 = 2)

/-- An incoming RDMA WRITE or READ is served only with the pair's key and inside the exposed range, else answered with a NAK and counted (R336). -/
def Obligations.RdmaOutsideTheExposedRange : Prop :=
  ∀ (s : State) (q : Die) (n psn : Nat) (op : RoceOp) (x : Pair) (key base len : Nat), s.Canonical → s.dieUp q = true → s.lintelOpen (128 + q) = true →
    (s.rdmaIn.find? fun e => decide (e.1 / 256 = q.val)) = some (n, psn, op) → s.pair n = x → x.state = 1 → s.reg (0x2E20 + pairPort n x) 0x01 = 1 →
    base = x.words.getD 2 0 → len = x.words.getD 3 0 → key = x.words.getD 4 0 →
    (∀ k a m, (op = .readRequest k a m ∨ ∃ b : List Byte, b.length = m ∧ (op = .write k a b ∨ ∃ imm, op = .writeImm k a b imm)) →
      (k ≠ key ∨ a < base ∨ base + len < a + m) → ∃ t, exec (.incomingRdma q []) s = .next t ∧ t.out = s.out ++ [.roce n .nakRemoteAccess x.expPsn] ∧
        s.pairIs t n { x with nakked := x.nakked + 1 } ∧ t.rdmaIn = (s.rdmaIn.erase (n, psn, op)).filter (fun e => decide (e.1 ≠ n)) ∧
        t = { s with rdmaIn := t.rdmaIn, hostData := t.hostData, pairs := t.pairs, out := t.out, regs := t.regs })
end

