-- ==== Sys2Proof/Laws/State.lean ====
section
/-! SUPPORT. Which field of State each primitive effect writes, and that it writes no other. -/

namespace Sys2Proof.Machine

open Sys2Proof

/-- The fields of State that some effect writes. -/
inductive Field where
  | regs | selectors | mem | tags | poisonLines | poisonWords | acc | vreg | mtiles | stiles | ftiles | bond
  | running | plans | ctxs | snaps | cells | waiters | fmap | rings | idle | offerHold | net | claims | links
  | issue | delivered | injectStop | routeState | fencedAs | hbm | xtiles | retired | memTest | pairs
  | rdmaIn | lintels | hostWindow | hostData | nextHostId | islands | input | loans | limits | onceUsed
  | fences | heldFences | fence | releases | candidates | policyTimes | restartTimes | evidence | sliceTimes
  | votesWaiting | votes | controllerDown | heldEvents | replanning | findings | health | due | slices
  | heldResults | marigold | resultLog | cal | calNext | selfCal | licence | firmware | auxOk | mainOn
  | hresetLow | booted | recovery | reset_ | resetWaiting | partResets | restoreDefaults | dumps | dumpFlash
  | dumpCopying | raised | log | logSeq | errorHistory | emcyBusy | emcyResetOwed | can | nmt | nodeId
  | windows | dictSnaps | entryWaits | ir | dr | boundary | slew | oscillator | ppsNext | msixWaiting | out
  | free | maskDrops | slotFixes | arbs | microcode | unpersisted | retiredDrops | phyStale | fieldsOff | heldPolicies | dieModules
  deriving DecidableEq, Repr

/-- The field that an effect writes. -/
def Eff.field (e : Eff) : Field :=
  match e with
  | .regs _ _ => .regs
  | .dropRegs _ _ => .regs
  | .selectors _ _ => .selectors
  | .dropSelectors _ _ => .selectors
  | .tags _ _ => .tags
  | .dropTags _ _ => .tags
  | .poisonLines _ _ => .poisonLines
  | .dropPoisonLines _ _ => .poisonLines
  | .poisonWords _ _ => .poisonWords
  | .dropPoisonWords _ _ => .poisonWords
  | .acc _ _ => .acc
  | .dropAcc _ _ => .acc
  | .vreg _ _ => .vreg
  | .dropVreg _ _ => .vreg
  | .dieModules _ _ => .dieModules
  | .dropDieModules _ _ => .dieModules
  | .microcode _ _ => .microcode
  | .dropMicrocode _ _ => .microcode
  | .arbs _ _ => .arbs
  | .dropArbs _ _ => .arbs
  | .slotFixes _ _ => .slotFixes
  | .dropSlotFixes _ _ => .slotFixes
  | .maskDrops _ _ => .maskDrops
  | .dropMaskDrops _ _ => .maskDrops
  | .mtiles _ _ => .mtiles
  | .dropMtiles _ _ => .mtiles
  | .stiles _ _ => .stiles
  | .dropStiles _ _ => .stiles
  | .ftiles _ _ => .ftiles
  | .dropFtiles _ _ => .ftiles
  | .bond _ _ => .bond
  | .dropBond _ _ => .bond
  | .running _ _ => .running
  | .dropRunning _ _ => .running
  | .plans _ _ => .plans
  | .dropPlans _ _ => .plans
  | .ctxs _ _ => .ctxs
  | .dropCtxs _ _ => .ctxs
  | .snaps _ _ => .snaps
  | .dropSnaps _ _ => .snaps
  | .cells _ _ => .cells
  | .dropCells _ _ => .cells
  | .waiters _ _ => .waiters
  | .dropWaiters _ _ => .waiters
  | .fmap _ _ => .fmap
  | .dropFmap _ _ => .fmap
  | .rings _ _ => .rings
  | .dropRings _ _ => .rings
  | .idle _ _ => .idle
  | .dropIdle _ _ => .idle
  | .offerHold _ _ => .offerHold
  | .dropOfferHold _ _ => .offerHold
  | .net _ _ => .net
  | .dropNet _ _ => .net
  | .claims _ _ => .claims
  | .dropClaims _ _ => .claims
  | .links _ _ => .links
  | .dropLinks _ _ => .links
  | .routeState _ _ => .routeState
  | .dropRouteState _ _ => .routeState
  | .fencedAs _ _ => .fencedAs
  | .dropFencedAs _ _ => .fencedAs
  | .hbm _ _ => .hbm
  | .dropHbm _ _ => .hbm
  | .xtiles _ _ => .xtiles
  | .dropXtiles _ _ => .xtiles
  | .pairs _ _ => .pairs
  | .dropPairs _ _ => .pairs
  | .lintels _ _ => .lintels
  | .dropLintels _ _ => .lintels
  | .islands _ _ => .islands
  | .dropIslands _ _ => .islands
  | .limits _ _ => .limits
  | .dropLimits _ _ => .limits
  | .candidates _ _ => .candidates
  | .dropCandidates _ _ => .candidates
  | .sliceTimes _ _ => .sliceTimes
  | .dropSliceTimes _ _ => .sliceTimes
  | .marigold _ _ => .marigold
  | .dropMarigold _ _ => .marigold
  | .can _ _ => .can
  | .dropCan _ _ => .can
  | .windows _ _ => .windows
  | .dropWindows _ _ => .windows
  | .dictSnaps _ _ => .dictSnaps
  | .dropDictSnaps _ _ => .dictSnaps
  | .store _ _ => .mem
  | .dropMem _ _ => .mem
  | .issue _ => .issue
  | .delivered _ => .delivered
  | .injectStop _ => .injectStop
  | .retired _ => .retired
  | .memTest _ => .memTest
  | .rdmaIn _ => .rdmaIn
  | .hostWindow _ => .hostWindow
  | .hostData _ => .hostData
  | .nextHostId _ => .nextHostId
  | .loans _ => .loans
  | .onceUsed _ => .onceUsed
  | .fences _ => .fences
  | .heldFences _ => .heldFences
  | .fence _ => .fence
  | .releases _ => .releases
  | .policyTimes _ => .policyTimes
  | .restartTimes _ => .restartTimes
  | .evidence _ => .evidence
  | .votesWaiting _ => .votesWaiting
  | .votes _ => .votes
  | .controllerDown _ => .controllerDown
  | .heldEvents _ => .heldEvents
  | .replanning _ => .replanning
  | .due _ => .due
  | .slices _ => .slices
  | .heldResults _ => .heldResults
  | .input _ => .input
  | .fillTags _ _ _ => .tags
  | .fillPoisonWords _ _ => .poisonWords
  | .cal _ => .cal
  | .calNext _ => .calNext
  | .selfCal _ => .selfCal
  | .licence _ => .licence
  | .firmware _ => .firmware
  | .auxOk _ => .auxOk
  | .mainOn _ => .mainOn
  | .hresetLow _ => .hresetLow
  | .booted _ => .booted
  | .recovery _ => .recovery
  | .reset_ _ => .reset_
  | .resetWaiting _ => .resetWaiting
  | .partResets _ => .partResets
  | .restoreDefaults _ => .restoreDefaults
  | .dumps _ => .dumps
  | .dumpFlash _ => .dumpFlash
  | .dumpCopying _ => .dumpCopying
  | .raised _ => .raised
  | .logSeq _ => .logSeq
  | .emcyBusy _ => .emcyBusy
  | .emcyResetOwed _ => .emcyResetOwed
  | .nmt _ => .nmt
  | .nodeId _ => .nodeId
  | .entryWaits _ => .entryWaits
  | .ir _ => .ir
  | .dr _ => .dr
  | .boundary _ => .boundary
  | .msixWaiting _ => .msixWaiting
  | .findings _ => .findings
  | .health _ => .health
  | .resultLog _ => .resultLog
  | .log _ => .log
  | .errorHistory _ => .errorHistory
  | .slew _ => .slew
  | .oscillator _ => .oscillator
  | .ppsNext _ => .ppsNext
  | .heldPolicies _ => .heldPolicies
  | .fieldsOff _ => .fieldsOff
  | .phyStale _ => .phyStale
  | .retiredDrops _ => .retiredDrops
  | .unpersisted _ => .unpersisted
  | .emit _ => .out
  | .draw => .free

@[simp] theorem Eff.field_regs {a} {b} : (Eff.regs a b).field = .regs := rfl
@[simp] theorem Eff.field_dropRegs {a} {b} : (Eff.dropRegs a b).field = .regs := rfl
@[simp] theorem Eff.field_selectors {a} {b} : (Eff.selectors a b).field = .selectors := rfl
@[simp] theorem Eff.field_dropSelectors {a} {b} : (Eff.dropSelectors a b).field = .selectors := rfl
@[simp] theorem Eff.field_tags {a} {b} : (Eff.tags a b).field = .tags := rfl
@[simp] theorem Eff.field_dropTags {a} {b} : (Eff.dropTags a b).field = .tags := rfl
@[simp] theorem Eff.field_poisonLines {a} {b} : (Eff.poisonLines a b).field = .poisonLines := rfl
@[simp] theorem Eff.field_dropPoisonLines {a} {b} : (Eff.dropPoisonLines a b).field = .poisonLines := rfl
@[simp] theorem Eff.field_poisonWords {a} {b} : (Eff.poisonWords a b).field = .poisonWords := rfl
@[simp] theorem Eff.field_dropPoisonWords {a} {b} : (Eff.dropPoisonWords a b).field = .poisonWords := rfl
@[simp] theorem Eff.field_acc {a} {b} : (Eff.acc a b).field = .acc := rfl
@[simp] theorem Eff.field_dropAcc {a} {b} : (Eff.dropAcc a b).field = .acc := rfl
@[simp] theorem Eff.field_vreg {a} {b} : (Eff.vreg a b).field = .vreg := rfl
@[simp] theorem Eff.field_dropVreg {a} {b} : (Eff.dropVreg a b).field = .vreg := rfl
@[simp] theorem Eff.field_dieModules {a} {b} : (Eff.dieModules a b).field = .dieModules := rfl
@[simp] theorem Eff.field_dropDieModules {a} {b} : (Eff.dropDieModules a b).field = .dieModules := rfl
@[simp] theorem Eff.field_microcode {a} {b} : (Eff.microcode a b).field = .microcode := rfl
@[simp] theorem Eff.field_dropMicrocode {a} {b} : (Eff.dropMicrocode a b).field = .microcode := rfl
@[simp] theorem Eff.field_arbs {a} {b} : (Eff.arbs a b).field = .arbs := rfl
@[simp] theorem Eff.field_dropArbs {a} {b} : (Eff.dropArbs a b).field = .arbs := rfl
@[simp] theorem Eff.field_slotFixes {a} {b} : (Eff.slotFixes a b).field = .slotFixes := rfl
@[simp] theorem Eff.field_dropSlotFixes {a} {b} : (Eff.dropSlotFixes a b).field = .slotFixes := rfl
@[simp] theorem Eff.field_maskDrops {a} {b} : (Eff.maskDrops a b).field = .maskDrops := rfl
@[simp] theorem Eff.field_dropMaskDrops {a} {b} : (Eff.dropMaskDrops a b).field = .maskDrops := rfl
@[simp] theorem Eff.field_mtiles {a} {b} : (Eff.mtiles a b).field = .mtiles := rfl
@[simp] theorem Eff.field_dropMtiles {a} {b} : (Eff.dropMtiles a b).field = .mtiles := rfl
@[simp] theorem Eff.field_stiles {a} {b} : (Eff.stiles a b).field = .stiles := rfl
@[simp] theorem Eff.field_dropStiles {a} {b} : (Eff.dropStiles a b).field = .stiles := rfl
@[simp] theorem Eff.field_ftiles {a} {b} : (Eff.ftiles a b).field = .ftiles := rfl
@[simp] theorem Eff.field_dropFtiles {a} {b} : (Eff.dropFtiles a b).field = .ftiles := rfl
@[simp] theorem Eff.field_bond {a} {b} : (Eff.bond a b).field = .bond := rfl
@[simp] theorem Eff.field_dropBond {a} {b} : (Eff.dropBond a b).field = .bond := rfl
@[simp] theorem Eff.field_running {a} {b} : (Eff.running a b).field = .running := rfl
@[simp] theorem Eff.field_dropRunning {a} {b} : (Eff.dropRunning a b).field = .running := rfl
@[simp] theorem Eff.field_plans {a} {b} : (Eff.plans a b).field = .plans := rfl
@[simp] theorem Eff.field_dropPlans {a} {b} : (Eff.dropPlans a b).field = .plans := rfl
@[simp] theorem Eff.field_ctxs {a} {b} : (Eff.ctxs a b).field = .ctxs := rfl
@[simp] theorem Eff.field_dropCtxs {a} {b} : (Eff.dropCtxs a b).field = .ctxs := rfl
@[simp] theorem Eff.field_snaps {a} {b} : (Eff.snaps a b).field = .snaps := rfl
@[simp] theorem Eff.field_dropSnaps {a} {b} : (Eff.dropSnaps a b).field = .snaps := rfl
@[simp] theorem Eff.field_cells {a} {b} : (Eff.cells a b).field = .cells := rfl
@[simp] theorem Eff.field_dropCells {a} {b} : (Eff.dropCells a b).field = .cells := rfl
@[simp] theorem Eff.field_waiters {a} {b} : (Eff.waiters a b).field = .waiters := rfl
@[simp] theorem Eff.field_dropWaiters {a} {b} : (Eff.dropWaiters a b).field = .waiters := rfl
@[simp] theorem Eff.field_fmap {a} {b} : (Eff.fmap a b).field = .fmap := rfl
@[simp] theorem Eff.field_dropFmap {a} {b} : (Eff.dropFmap a b).field = .fmap := rfl
@[simp] theorem Eff.field_rings {a} {b} : (Eff.rings a b).field = .rings := rfl
@[simp] theorem Eff.field_dropRings {a} {b} : (Eff.dropRings a b).field = .rings := rfl
@[simp] theorem Eff.field_idle {a} {b} : (Eff.idle a b).field = .idle := rfl
@[simp] theorem Eff.field_dropIdle {a} {b} : (Eff.dropIdle a b).field = .idle := rfl
@[simp] theorem Eff.field_offerHold {a} {b} : (Eff.offerHold a b).field = .offerHold := rfl
@[simp] theorem Eff.field_dropOfferHold {a} {b} : (Eff.dropOfferHold a b).field = .offerHold := rfl
@[simp] theorem Eff.field_net {a} {b} : (Eff.net a b).field = .net := rfl
@[simp] theorem Eff.field_dropNet {a} {b} : (Eff.dropNet a b).field = .net := rfl
@[simp] theorem Eff.field_claims {a} {b} : (Eff.claims a b).field = .claims := rfl
@[simp] theorem Eff.field_dropClaims {a} {b} : (Eff.dropClaims a b).field = .claims := rfl
@[simp] theorem Eff.field_links {a} {b} : (Eff.links a b).field = .links := rfl
@[simp] theorem Eff.field_dropLinks {a} {b} : (Eff.dropLinks a b).field = .links := rfl
@[simp] theorem Eff.field_routeState {a} {b} : (Eff.routeState a b).field = .routeState := rfl
@[simp] theorem Eff.field_dropRouteState {a} {b} : (Eff.dropRouteState a b).field = .routeState := rfl
@[simp] theorem Eff.field_fencedAs {a} {b} : (Eff.fencedAs a b).field = .fencedAs := rfl
@[simp] theorem Eff.field_dropFencedAs {a} {b} : (Eff.dropFencedAs a b).field = .fencedAs := rfl
@[simp] theorem Eff.field_hbm {a} {b} : (Eff.hbm a b).field = .hbm := rfl
@[simp] theorem Eff.field_dropHbm {a} {b} : (Eff.dropHbm a b).field = .hbm := rfl
@[simp] theorem Eff.field_xtiles {a} {b} : (Eff.xtiles a b).field = .xtiles := rfl
@[simp] theorem Eff.field_dropXtiles {a} {b} : (Eff.dropXtiles a b).field = .xtiles := rfl
@[simp] theorem Eff.field_pairs {a} {b} : (Eff.pairs a b).field = .pairs := rfl
@[simp] theorem Eff.field_dropPairs {a} {b} : (Eff.dropPairs a b).field = .pairs := rfl
@[simp] theorem Eff.field_lintels {a} {b} : (Eff.lintels a b).field = .lintels := rfl
@[simp] theorem Eff.field_dropLintels {a} {b} : (Eff.dropLintels a b).field = .lintels := rfl
@[simp] theorem Eff.field_islands {a} {b} : (Eff.islands a b).field = .islands := rfl
@[simp] theorem Eff.field_dropIslands {a} {b} : (Eff.dropIslands a b).field = .islands := rfl
@[simp] theorem Eff.field_limits {a} {b} : (Eff.limits a b).field = .limits := rfl
@[simp] theorem Eff.field_dropLimits {a} {b} : (Eff.dropLimits a b).field = .limits := rfl
@[simp] theorem Eff.field_candidates {a} {b} : (Eff.candidates a b).field = .candidates := rfl
@[simp] theorem Eff.field_dropCandidates {a} {b} : (Eff.dropCandidates a b).field = .candidates := rfl
@[simp] theorem Eff.field_sliceTimes {a} {b} : (Eff.sliceTimes a b).field = .sliceTimes := rfl
@[simp] theorem Eff.field_dropSliceTimes {a} {b} : (Eff.dropSliceTimes a b).field = .sliceTimes := rfl
@[simp] theorem Eff.field_marigold {a} {b} : (Eff.marigold a b).field = .marigold := rfl
@[simp] theorem Eff.field_dropMarigold {a} {b} : (Eff.dropMarigold a b).field = .marigold := rfl
@[simp] theorem Eff.field_can {a} {b} : (Eff.can a b).field = .can := rfl
@[simp] theorem Eff.field_dropCan {a} {b} : (Eff.dropCan a b).field = .can := rfl
@[simp] theorem Eff.field_windows {a} {b} : (Eff.windows a b).field = .windows := rfl
@[simp] theorem Eff.field_dropWindows {a} {b} : (Eff.dropWindows a b).field = .windows := rfl
@[simp] theorem Eff.field_dictSnaps {a} {b} : (Eff.dictSnaps a b).field = .dictSnaps := rfl
@[simp] theorem Eff.field_dropDictSnaps {a} {b} : (Eff.dropDictSnaps a b).field = .dictSnaps := rfl
@[simp] theorem Eff.field_store {a} {b} : (Eff.store a b).field = .mem := rfl
@[simp] theorem Eff.field_dropMem {a} {b} : (Eff.dropMem a b).field = .mem := rfl
@[simp] theorem Eff.field_issue {a} : (Eff.issue a).field = .issue := rfl
@[simp] theorem Eff.field_delivered {a} : (Eff.delivered a).field = .delivered := rfl
@[simp] theorem Eff.field_injectStop {a} : (Eff.injectStop a).field = .injectStop := rfl
@[simp] theorem Eff.field_retired {a} : (Eff.retired a).field = .retired := rfl
@[simp] theorem Eff.field_memTest {a} : (Eff.memTest a).field = .memTest := rfl
@[simp] theorem Eff.field_rdmaIn {a} : (Eff.rdmaIn a).field = .rdmaIn := rfl
@[simp] theorem Eff.field_hostWindow {a} : (Eff.hostWindow a).field = .hostWindow := rfl
@[simp] theorem Eff.field_hostData {a} : (Eff.hostData a).field = .hostData := rfl
@[simp] theorem Eff.field_nextHostId {a} : (Eff.nextHostId a).field = .nextHostId := rfl
@[simp] theorem Eff.field_loans {a} : (Eff.loans a).field = .loans := rfl
@[simp] theorem Eff.field_onceUsed {a} : (Eff.onceUsed a).field = .onceUsed := rfl
@[simp] theorem Eff.field_fences {a} : (Eff.fences a).field = .fences := rfl
@[simp] theorem Eff.field_heldFences {a} : (Eff.heldFences a).field = .heldFences := rfl
@[simp] theorem Eff.field_fence {a} : (Eff.fence a).field = .fence := rfl
@[simp] theorem Eff.field_releases {a} : (Eff.releases a).field = .releases := rfl
@[simp] theorem Eff.field_policyTimes {a} : (Eff.policyTimes a).field = .policyTimes := rfl
@[simp] theorem Eff.field_restartTimes {a} : (Eff.restartTimes a).field = .restartTimes := rfl
@[simp] theorem Eff.field_evidence {a} : (Eff.evidence a).field = .evidence := rfl
@[simp] theorem Eff.field_votesWaiting {a} : (Eff.votesWaiting a).field = .votesWaiting := rfl
@[simp] theorem Eff.field_votes {a} : (Eff.votes a).field = .votes := rfl
@[simp] theorem Eff.field_controllerDown {a} : (Eff.controllerDown a).field = .controllerDown := rfl
@[simp] theorem Eff.field_heldEvents {a} : (Eff.heldEvents a).field = .heldEvents := rfl
@[simp] theorem Eff.field_replanning {a} : (Eff.replanning a).field = .replanning := rfl
@[simp] theorem Eff.field_due {a} : (Eff.due a).field = .due := rfl
@[simp] theorem Eff.field_slices {a} : (Eff.slices a).field = .slices := rfl
@[simp] theorem Eff.field_heldResults {a} : (Eff.heldResults a).field = .heldResults := rfl
@[simp] theorem Eff.field_input {a} : (Eff.input a).field = .input := rfl
@[simp] theorem Eff.field_fillTags {a} {b} {c} : (Eff.fillTags a b c).field = .tags := rfl
@[simp] theorem Eff.field_fillPoisonWords {a} {b} : (Eff.fillPoisonWords a b).field = .poisonWords := rfl
@[simp] theorem Eff.field_cal {a} : (Eff.cal a).field = .cal := rfl
@[simp] theorem Eff.field_calNext {a} : (Eff.calNext a).field = .calNext := rfl
@[simp] theorem Eff.field_selfCal {a} : (Eff.selfCal a).field = .selfCal := rfl
@[simp] theorem Eff.field_licence {a} : (Eff.licence a).field = .licence := rfl
@[simp] theorem Eff.field_firmware {a} : (Eff.firmware a).field = .firmware := rfl
@[simp] theorem Eff.field_auxOk {a} : (Eff.auxOk a).field = .auxOk := rfl
@[simp] theorem Eff.field_mainOn {a} : (Eff.mainOn a).field = .mainOn := rfl
@[simp] theorem Eff.field_hresetLow {a} : (Eff.hresetLow a).field = .hresetLow := rfl
@[simp] theorem Eff.field_booted {a} : (Eff.booted a).field = .booted := rfl
@[simp] theorem Eff.field_recovery {a} : (Eff.recovery a).field = .recovery := rfl
@[simp] theorem Eff.field_reset_ {a} : (Eff.reset_ a).field = .reset_ := rfl
@[simp] theorem Eff.field_resetWaiting {a} : (Eff.resetWaiting a).field = .resetWaiting := rfl
@[simp] theorem Eff.field_partResets {a} : (Eff.partResets a).field = .partResets := rfl
@[simp] theorem Eff.field_restoreDefaults {a} : (Eff.restoreDefaults a).field = .restoreDefaults := rfl
@[simp] theorem Eff.field_dumps {a} : (Eff.dumps a).field = .dumps := rfl
@[simp] theorem Eff.field_dumpFlash {a} : (Eff.dumpFlash a).field = .dumpFlash := rfl
@[simp] theorem Eff.field_dumpCopying {a} : (Eff.dumpCopying a).field = .dumpCopying := rfl
@[simp] theorem Eff.field_raised {a} : (Eff.raised a).field = .raised := rfl
@[simp] theorem Eff.field_logSeq {a} : (Eff.logSeq a).field = .logSeq := rfl
@[simp] theorem Eff.field_emcyBusy {a} : (Eff.emcyBusy a).field = .emcyBusy := rfl
@[simp] theorem Eff.field_emcyResetOwed {a} : (Eff.emcyResetOwed a).field = .emcyResetOwed := rfl
@[simp] theorem Eff.field_nmt {a} : (Eff.nmt a).field = .nmt := rfl
@[simp] theorem Eff.field_nodeId {a} : (Eff.nodeId a).field = .nodeId := rfl
@[simp] theorem Eff.field_entryWaits {a} : (Eff.entryWaits a).field = .entryWaits := rfl
@[simp] theorem Eff.field_ir {a} : (Eff.ir a).field = .ir := rfl
@[simp] theorem Eff.field_dr {a} : (Eff.dr a).field = .dr := rfl
@[simp] theorem Eff.field_boundary {a} : (Eff.boundary a).field = .boundary := rfl
@[simp] theorem Eff.field_msixWaiting {a} : (Eff.msixWaiting a).field = .msixWaiting := rfl
@[simp] theorem Eff.field_findings {a} : (Eff.findings a).field = .findings := rfl
@[simp] theorem Eff.field_health {a} : (Eff.health a).field = .health := rfl
@[simp] theorem Eff.field_resultLog {a} : (Eff.resultLog a).field = .resultLog := rfl
@[simp] theorem Eff.field_log {a} : (Eff.log a).field = .log := rfl
@[simp] theorem Eff.field_errorHistory {a} : (Eff.errorHistory a).field = .errorHistory := rfl
@[simp] theorem Eff.field_slew {a} : (Eff.slew a).field = .slew := rfl
@[simp] theorem Eff.field_oscillator {a} : (Eff.oscillator a).field = .oscillator := rfl
@[simp] theorem Eff.field_ppsNext {a} : (Eff.ppsNext a).field = .ppsNext := rfl
@[simp] theorem Eff.field_heldPolicies {a} : (Eff.heldPolicies a).field = .heldPolicies := rfl
@[simp] theorem Eff.field_fieldsOff {a} : (Eff.fieldsOff a).field = .fieldsOff := rfl
@[simp] theorem Eff.field_phyStale {a} : (Eff.phyStale a).field = .phyStale := rfl
@[simp] theorem Eff.field_retiredDrops {a} : (Eff.retiredDrops a).field = .retiredDrops := rfl
@[simp] theorem Eff.field_unpersisted {a} : (Eff.unpersisted a).field = .unpersisted := rfl
@[simp] theorem Eff.field_emit {a} : (Eff.emit a).field = .out := rfl
@[simp] theorem Eff.field_draw : Eff.draw.field = .free := rfl

@[simp] theorem Eff.keeps_regs {e : Eff} (h : e.field ≠ .regs) (s : State) : (e.apply s).regs = s.regs := by
  cases e <;> first | rfl | exact absurd rfl h
@[simp] theorem Eff.keeps_mem {e : Eff} (h : e.field ≠ .mem) (s : State) : (e.apply s).mem = s.mem := by
  cases e <;> first | rfl | exact absurd rfl h
@[simp] theorem Eff.keeps_tags {e : Eff} (h : e.field ≠ .tags) (s : State) : (e.apply s).tags = s.tags := by
  cases e <;> first | rfl | exact absurd rfl h
@[simp] theorem Eff.keeps_log {e : Eff} (h : e.field ≠ .log) (s : State) : (e.apply s).log = s.log := by
  cases e <;> first | rfl | exact absurd rfl h
@[simp] theorem Eff.keeps_health {e : Eff} (h : e.field ≠ .health) (s : State) : (e.apply s).health = s.health := by
  cases e <;> first | rfl | exact absurd rfl h
@[simp] theorem Eff.keeps_findings {e : Eff} (h : e.field ≠ .findings) (s : State) : (e.apply s).findings = s.findings := by
  cases e <;> first | rfl | exact absurd rfl h
@[simp] theorem Eff.keeps_resultLog {e : Eff} (h : e.field ≠ .resultLog) (s : State) : (e.apply s).resultLog = s.resultLog := by
  cases e <;> first | rfl | exact absurd rfl h
@[simp] theorem Eff.keeps_errorHistory {e : Eff} (h : e.field ≠ .errorHistory) (s : State) : (e.apply s).errorHistory = s.errorHistory := by
  cases e <;> first | rfl | exact absurd rfl h
@[simp] theorem Eff.keeps_raised {e : Eff} (h : e.field ≠ .raised) (s : State) : (e.apply s).raised = s.raised := by
  cases e <;> first | rfl | exact absurd rfl h
@[simp] theorem Eff.keeps_ctxs {e : Eff} (h : e.field ≠ .ctxs) (s : State) : (e.apply s).ctxs = s.ctxs := by
  cases e <;> first | rfl | exact absurd rfl h
@[simp] theorem Eff.keeps_cells {e : Eff} (h : e.field ≠ .cells) (s : State) : (e.apply s).cells = s.cells := by
  cases e <;> first | rfl | exact absurd rfl h
@[simp] theorem Eff.keeps_rings {e : Eff} (h : e.field ≠ .rings) (s : State) : (e.apply s).rings = s.rings := by
  cases e <;> first | rfl | exact absurd rfl h
@[simp] theorem Eff.keeps_pending (e : Eff) (s : State) : (e.apply s).pending = s.pending := by cases e <;> rfl
@[simp] theorem Eff.keeps_fuseSerial (e : Eff) (s : State) : (e.apply s).fuseSerial = s.fuseSerial := by cases e <;> rfl
@[simp] theorem Eff.keeps_fuseSites (e : Eff) (s : State) : (e.apply s).fuseSites = s.fuseSites := by cases e <;> rfl
@[simp] theorem Eff.keeps_fuseDies (e : Eff) (s : State) : (e.apply s).fuseDies = s.fuseDies := by cases e <;> rfl
@[simp] theorem Eff.keeps_fuseMacs (e : Eff) (s : State) : (e.apply s).fuseMacs = s.fuseMacs := by cases e <;> rfl

/-! ## What each update writes -/

@[simp] theorem Eff.regs_regs {k} {v} (s : State) : (Eff.apply (.regs k v) s).regs = Tab.set (regDefault k) s.regs k v := rfl
@[simp] theorem Eff.dropRegs_regs {lo} {hi} (s : State) : (Eff.apply (.dropRegs lo hi) s).regs = Tab.drop s.regs lo hi := rfl
@[simp] theorem Eff.selectors_selectors {k} {v} (s : State) : (Eff.apply (.selectors k v) s).selectors = Tab.set 0 s.selectors k v := rfl
@[simp] theorem Eff.dropSelectors_selectors {lo} {hi} (s : State) : (Eff.apply (.dropSelectors lo hi) s).selectors = Tab.drop s.selectors lo hi := rfl
@[simp] theorem Eff.tags_tags {k} {v} (s : State) : (Eff.apply (.tags k v) s).tags = Tab.set 0 s.tags k v := rfl
@[simp] theorem Eff.dropTags_tags {lo} {hi} (s : State) : (Eff.apply (.dropTags lo hi) s).tags = Tab.drop s.tags lo hi := rfl
@[simp] theorem Eff.poisonLines_poisonLines {k} {v} (s : State) : (Eff.apply (.poisonLines k v) s).poisonLines = Tab.set false s.poisonLines k v := rfl
@[simp] theorem Eff.dropPoisonLines_poisonLines {lo} {hi} (s : State) : (Eff.apply (.dropPoisonLines lo hi) s).poisonLines = Tab.drop s.poisonLines lo hi := rfl
@[simp] theorem Eff.poisonWords_poisonWords {k} {v} (s : State) : (Eff.apply (.poisonWords k v) s).poisonWords = Tab.set false s.poisonWords k v := rfl
@[simp] theorem Eff.dropPoisonWords_poisonWords {lo} {hi} (s : State) : (Eff.apply (.dropPoisonWords lo hi) s).poisonWords = Tab.drop s.poisonWords lo hi := rfl
@[simp] theorem Eff.acc_acc {k} {v} (s : State) : (Eff.apply (.acc k v) s).acc = Tab.set {} s.acc k v := rfl
@[simp] theorem Eff.dropAcc_acc {lo} {hi} (s : State) : (Eff.apply (.dropAcc lo hi) s).acc = Tab.drop s.acc lo hi := rfl
@[simp] theorem Eff.vreg_vreg {k} {v} (s : State) : (Eff.apply (.vreg k v) s).vreg = Tab.set {} s.vreg k v := rfl
@[simp] theorem Eff.dropVreg_vreg {lo} {hi} (s : State) : (Eff.apply (.dropVreg lo hi) s).vreg = Tab.drop s.vreg lo hi := rfl
@[simp] theorem Eff.dieModules_dieModules {k} {v} (s : State) : (Eff.apply (.dieModules k v) s).dieModules = Tab.set 0 s.dieModules k v := rfl
@[simp] theorem Eff.dropDieModules_dieModules {lo} {hi} (s : State) : (Eff.apply (.dropDieModules lo hi) s).dieModules = Tab.drop s.dieModules lo hi := rfl
@[simp] theorem Eff.microcode_microcode {k} {v} (s : State) : (Eff.apply (.microcode k v) s).microcode = Tab.set {} s.microcode k v := rfl
@[simp] theorem Eff.dropMicrocode_microcode {lo} {hi} (s : State) : (Eff.apply (.dropMicrocode lo hi) s).microcode = Tab.drop s.microcode lo hi := rfl
@[simp] theorem Eff.arbs_arbs {k} {v} (s : State) : (Eff.apply (.arbs k v) s).arbs = Tab.set 0 s.arbs k v := rfl
@[simp] theorem Eff.dropArbs_arbs {lo} {hi} (s : State) : (Eff.apply (.dropArbs lo hi) s).arbs = Tab.drop s.arbs lo hi := rfl
@[simp] theorem Eff.slotFixes_slotFixes {k} {v} (s : State) : (Eff.apply (.slotFixes k v) s).slotFixes = Tab.set 0 s.slotFixes k v := rfl
@[simp] theorem Eff.dropSlotFixes_slotFixes {lo} {hi} (s : State) : (Eff.apply (.dropSlotFixes lo hi) s).slotFixes = Tab.drop s.slotFixes lo hi := rfl
@[simp] theorem Eff.maskDrops_maskDrops {k} {v} (s : State) : (Eff.apply (.maskDrops k v) s).maskDrops = Tab.set 0 s.maskDrops k v := rfl
@[simp] theorem Eff.dropMaskDrops_maskDrops {lo} {hi} (s : State) : (Eff.apply (.dropMaskDrops lo hi) s).maskDrops = Tab.drop s.maskDrops lo hi := rfl
@[simp] theorem Eff.mtiles_mtiles {k} {v} (s : State) : (Eff.apply (.mtiles k v) s).mtiles = Tab.set {} s.mtiles k v := rfl
@[simp] theorem Eff.dropMtiles_mtiles {lo} {hi} (s : State) : (Eff.apply (.dropMtiles lo hi) s).mtiles = Tab.drop s.mtiles lo hi := rfl
@[simp] theorem Eff.stiles_stiles {k} {v} (s : State) : (Eff.apply (.stiles k v) s).stiles = Tab.set {} s.stiles k v := rfl
@[simp] theorem Eff.dropStiles_stiles {lo} {hi} (s : State) : (Eff.apply (.dropStiles lo hi) s).stiles = Tab.drop s.stiles lo hi := rfl
@[simp] theorem Eff.ftiles_ftiles {k} {v} (s : State) : (Eff.apply (.ftiles k v) s).ftiles = Tab.set {} s.ftiles k v := rfl
@[simp] theorem Eff.dropFtiles_ftiles {lo} {hi} (s : State) : (Eff.apply (.dropFtiles lo hi) s).ftiles = Tab.drop s.ftiles lo hi := rfl
@[simp] theorem Eff.bond_bond {k} {v} (s : State) : (Eff.apply (.bond k v) s).bond = Tab.set {} s.bond k v := rfl
@[simp] theorem Eff.dropBond_bond {lo} {hi} (s : State) : (Eff.apply (.dropBond lo hi) s).bond = Tab.drop s.bond lo hi := rfl
@[simp] theorem Eff.running_running {k} {v} (s : State) : (Eff.apply (.running k v) s).running = Tab.set none s.running k v := rfl
@[simp] theorem Eff.dropRunning_running {lo} {hi} (s : State) : (Eff.apply (.dropRunning lo hi) s).running = Tab.drop s.running lo hi := rfl
@[simp] theorem Eff.plans_plans {k} {v} (s : State) : (Eff.apply (.plans k v) s).plans = Tab.set none s.plans k v := rfl
@[simp] theorem Eff.dropPlans_plans {lo} {hi} (s : State) : (Eff.apply (.dropPlans lo hi) s).plans = Tab.drop s.plans lo hi := rfl
@[simp] theorem Eff.ctxs_ctxs {k} {v} (s : State) : (Eff.apply (.ctxs k v) s).ctxs = Tab.set {} s.ctxs k v := rfl
@[simp] theorem Eff.dropCtxs_ctxs {lo} {hi} (s : State) : (Eff.apply (.dropCtxs lo hi) s).ctxs = Tab.drop s.ctxs lo hi := rfl
@[simp] theorem Eff.snaps_snaps {k} {v} (s : State) : (Eff.apply (.snaps k v) s).snaps = Tab.set none s.snaps k v := rfl
@[simp] theorem Eff.dropSnaps_snaps {lo} {hi} (s : State) : (Eff.apply (.dropSnaps lo hi) s).snaps = Tab.drop s.snaps lo hi := rfl
@[simp] theorem Eff.cells_cells {k} {v} (s : State) : (Eff.apply (.cells k v) s).cells = Tab.set {} s.cells k v := rfl
@[simp] theorem Eff.dropCells_cells {lo} {hi} (s : State) : (Eff.apply (.dropCells lo hi) s).cells = Tab.drop s.cells lo hi := rfl
@[simp] theorem Eff.waiters_waiters {k} {v} (s : State) : (Eff.apply (.waiters k v) s).waiters = Tab.set [] s.waiters k v := rfl
@[simp] theorem Eff.dropWaiters_waiters {lo} {hi} (s : State) : (Eff.apply (.dropWaiters lo hi) s).waiters = Tab.drop s.waiters lo hi := rfl
@[simp] theorem Eff.fmap_fmap {k} {v} (s : State) : (Eff.apply (.fmap k v) s).fmap = Tab.set 0 s.fmap k v := rfl
@[simp] theorem Eff.dropFmap_fmap {lo} {hi} (s : State) : (Eff.apply (.dropFmap lo hi) s).fmap = Tab.drop s.fmap lo hi := rfl
@[simp] theorem Eff.rings_rings {k} {v} (s : State) : (Eff.apply (.rings k v) s).rings = Tab.set {} s.rings k v := rfl
@[simp] theorem Eff.dropRings_rings {lo} {hi} (s : State) : (Eff.apply (.dropRings lo hi) s).rings = Tab.drop s.rings lo hi := rfl
@[simp] theorem Eff.idle_idle {k} {v} (s : State) : (Eff.apply (.idle k v) s).idle = Tab.set 0 s.idle k v := rfl
@[simp] theorem Eff.dropIdle_idle {lo} {hi} (s : State) : (Eff.apply (.dropIdle lo hi) s).idle = Tab.drop s.idle lo hi := rfl
@[simp] theorem Eff.offerHold_offerHold {k} {v} (s : State) : (Eff.apply (.offerHold k v) s).offerHold = Tab.set false s.offerHold k v := rfl
@[simp] theorem Eff.dropOfferHold_offerHold {lo} {hi} (s : State) : (Eff.apply (.dropOfferHold lo hi) s).offerHold = Tab.drop s.offerHold lo hi := rfl
@[simp] theorem Eff.net_net {k} {v} (s : State) : (Eff.apply (.net k v) s).net = Tab.set [] s.net k v := rfl
@[simp] theorem Eff.dropNet_net {lo} {hi} (s : State) : (Eff.apply (.dropNet lo hi) s).net = Tab.drop s.net lo hi := rfl
@[simp] theorem Eff.claims_claims {k} {v} (s : State) : (Eff.apply (.claims k v) s).claims = Tab.set 0 s.claims k v := rfl
@[simp] theorem Eff.dropClaims_claims {lo} {hi} (s : State) : (Eff.apply (.dropClaims lo hi) s).claims = Tab.drop s.claims lo hi := rfl
@[simp] theorem Eff.links_links {k} {v} (s : State) : (Eff.apply (.links k v) s).links = Tab.set {} s.links k v := rfl
@[simp] theorem Eff.dropLinks_links {lo} {hi} (s : State) : (Eff.apply (.dropLinks lo hi) s).links = Tab.drop s.links lo hi := rfl
@[simp] theorem Eff.routeState_routeState {k} {v} (s : State) : (Eff.apply (.routeState k v) s).routeState = Tab.set 0 s.routeState k v := rfl
@[simp] theorem Eff.dropRouteState_routeState {lo} {hi} (s : State) : (Eff.apply (.dropRouteState lo hi) s).routeState = Tab.drop s.routeState lo hi := rfl
@[simp] theorem Eff.fencedAs_fencedAs {k} {v} (s : State) : (Eff.apply (.fencedAs k v) s).fencedAs = Tab.set 0 s.fencedAs k v := rfl
@[simp] theorem Eff.dropFencedAs_fencedAs {lo} {hi} (s : State) : (Eff.apply (.dropFencedAs lo hi) s).fencedAs = Tab.drop s.fencedAs lo hi := rfl
@[simp] theorem Eff.hbm_hbm {k} {v} (s : State) : (Eff.apply (.hbm k v) s).hbm = Tab.set {} s.hbm k v := rfl
@[simp] theorem Eff.dropHbm_hbm {lo} {hi} (s : State) : (Eff.apply (.dropHbm lo hi) s).hbm = Tab.drop s.hbm lo hi := rfl
@[simp] theorem Eff.xtiles_xtiles {k} {v} (s : State) : (Eff.apply (.xtiles k v) s).xtiles = Tab.set {} s.xtiles k v := rfl
@[simp] theorem Eff.dropXtiles_xtiles {lo} {hi} (s : State) : (Eff.apply (.dropXtiles lo hi) s).xtiles = Tab.drop s.xtiles lo hi := rfl
@[simp] theorem Eff.pairs_pairs {k} {v} (s : State) : (Eff.apply (.pairs k v) s).pairs = Tab.set {} s.pairs k v := rfl
@[simp] theorem Eff.dropPairs_pairs {lo} {hi} (s : State) : (Eff.apply (.dropPairs lo hi) s).pairs = Tab.drop s.pairs lo hi := rfl
@[simp] theorem Eff.lintels_lintels {k} {v} (s : State) : (Eff.apply (.lintels k v) s).lintels = Tab.set {} s.lintels k v := rfl
@[simp] theorem Eff.dropLintels_lintels {lo} {hi} (s : State) : (Eff.apply (.dropLintels lo hi) s).lintels = Tab.drop s.lintels lo hi := rfl
@[simp] theorem Eff.islands_islands {k} {v} (s : State) : (Eff.apply (.islands k v) s).islands = Tab.set {} s.islands k v := rfl
@[simp] theorem Eff.dropIslands_islands {lo} {hi} (s : State) : (Eff.apply (.dropIslands lo hi) s).islands = Tab.drop s.islands lo hi := rfl
@[simp] theorem Eff.limits_limits {k} {v} (s : State) : (Eff.apply (.limits k v) s).limits = Tab.set 0 s.limits k v := rfl
@[simp] theorem Eff.dropLimits_limits {lo} {hi} (s : State) : (Eff.apply (.dropLimits lo hi) s).limits = Tab.drop s.limits lo hi := rfl
@[simp] theorem Eff.candidates_candidates {k} {v} (s : State) : (Eff.apply (.candidates k v) s).candidates = Tab.set false s.candidates k v := rfl
@[simp] theorem Eff.dropCandidates_candidates {lo} {hi} (s : State) : (Eff.apply (.dropCandidates lo hi) s).candidates = Tab.drop s.candidates lo hi := rfl
@[simp] theorem Eff.sliceTimes_sliceTimes {k} {v} (s : State) : (Eff.apply (.sliceTimes k v) s).sliceTimes = Tab.set 0 s.sliceTimes k v := rfl
@[simp] theorem Eff.dropSliceTimes_sliceTimes {lo} {hi} (s : State) : (Eff.apply (.dropSliceTimes lo hi) s).sliceTimes = Tab.drop s.sliceTimes lo hi := rfl
@[simp] theorem Eff.marigold_marigold {k} {v} (s : State) : (Eff.apply (.marigold k v) s).marigold = Tab.set none s.marigold k v := rfl
@[simp] theorem Eff.dropMarigold_marigold {lo} {hi} (s : State) : (Eff.apply (.dropMarigold lo hi) s).marigold = Tab.drop s.marigold lo hi := rfl
@[simp] theorem Eff.can_can {k} {v} (s : State) : (Eff.apply (.can k v) s).can = Tab.set {} s.can k v := rfl
@[simp] theorem Eff.dropCan_can {lo} {hi} (s : State) : (Eff.apply (.dropCan lo hi) s).can = Tab.drop s.can lo hi := rfl
@[simp] theorem Eff.windows_windows {k} {v} (s : State) : (Eff.apply (.windows k v) s).windows = Tab.set {} s.windows k v := rfl
@[simp] theorem Eff.dropWindows_windows {lo} {hi} (s : State) : (Eff.apply (.dropWindows lo hi) s).windows = Tab.drop s.windows lo hi := rfl
@[simp] theorem Eff.dictSnaps_dictSnaps {k} {v} (s : State) : (Eff.apply (.dictSnaps k v) s).dictSnaps = Tab.set none s.dictSnaps k v := rfl
@[simp] theorem Eff.dropDictSnaps_dictSnaps {lo} {hi} (s : State) : (Eff.apply (.dropDictSnaps lo hi) s).dictSnaps = Tab.drop s.dictSnaps lo hi := rfl
@[simp] theorem Eff.store_mem {a} {b} (s : State) : (Eff.apply (.store a b) s).mem = writeByte s.mem a b := rfl
@[simp] theorem Eff.dropMem_mem {lo} {hi} (s : State) : (Eff.apply (.dropMem lo hi) s).mem = Tab.drop s.mem lo hi := rfl
@[simp] theorem Eff.issue_issue {v} (s : State) : (Eff.apply (.issue v) s).issue = v := rfl
@[simp] theorem Eff.delivered_delivered {v} (s : State) : (Eff.apply (.delivered v) s).delivered = v := rfl
@[simp] theorem Eff.injectStop_injectStop {v} (s : State) : (Eff.apply (.injectStop v) s).injectStop = v := rfl
@[simp] theorem Eff.retired_retired {v} (s : State) : (Eff.apply (.retired v) s).retired = v := rfl
@[simp] theorem Eff.memTest_memTest {v} (s : State) : (Eff.apply (.memTest v) s).memTest = v := rfl
@[simp] theorem Eff.rdmaIn_rdmaIn {v} (s : State) : (Eff.apply (.rdmaIn v) s).rdmaIn = v := rfl
@[simp] theorem Eff.hostWindow_hostWindow {v} (s : State) : (Eff.apply (.hostWindow v) s).hostWindow = v := rfl
@[simp] theorem Eff.hostData_hostData {v} (s : State) : (Eff.apply (.hostData v) s).hostData = v := rfl
@[simp] theorem Eff.nextHostId_nextHostId {v} (s : State) : (Eff.apply (.nextHostId v) s).nextHostId = v := rfl
@[simp] theorem Eff.loans_loans {v} (s : State) : (Eff.apply (.loans v) s).loans = v := rfl
@[simp] theorem Eff.onceUsed_onceUsed {v} (s : State) : (Eff.apply (.onceUsed v) s).onceUsed = v := rfl
@[simp] theorem Eff.fences_fences {v} (s : State) : (Eff.apply (.fences v) s).fences = v := rfl
@[simp] theorem Eff.heldFences_heldFences {v} (s : State) : (Eff.apply (.heldFences v) s).heldFences = v := rfl
@[simp] theorem Eff.fence_fence {v} (s : State) : (Eff.apply (.fence v) s).fence = v := rfl
@[simp] theorem Eff.releases_releases {v} (s : State) : (Eff.apply (.releases v) s).releases = v := rfl
@[simp] theorem Eff.policyTimes_policyTimes {v} (s : State) : (Eff.apply (.policyTimes v) s).policyTimes = v := rfl
@[simp] theorem Eff.restartTimes_restartTimes {v} (s : State) : (Eff.apply (.restartTimes v) s).restartTimes = v := rfl
@[simp] theorem Eff.evidence_evidence {v} (s : State) : (Eff.apply (.evidence v) s).evidence = v := rfl
@[simp] theorem Eff.votesWaiting_votesWaiting {v} (s : State) : (Eff.apply (.votesWaiting v) s).votesWaiting = v := rfl
@[simp] theorem Eff.votes_votes {v} (s : State) : (Eff.apply (.votes v) s).votes = v := rfl
@[simp] theorem Eff.controllerDown_controllerDown {v} (s : State) : (Eff.apply (.controllerDown v) s).controllerDown = v := rfl
@[simp] theorem Eff.heldEvents_heldEvents {v} (s : State) : (Eff.apply (.heldEvents v) s).heldEvents = v := rfl
@[simp] theorem Eff.replanning_replanning {v} (s : State) : (Eff.apply (.replanning v) s).replanning = v := rfl
@[simp] theorem Eff.due_due {v} (s : State) : (Eff.apply (.due v) s).due = v := rfl
@[simp] theorem Eff.slices_slices {v} (s : State) : (Eff.apply (.slices v) s).slices = v := rfl
@[simp] theorem Eff.heldResults_heldResults {v} (s : State) : (Eff.apply (.heldResults v) s).heldResults = v := rfl
@[simp] theorem Eff.input_input {v} (s : State) : (Eff.apply (.input v) s).input = v := rfl
@[simp] theorem Eff.fillTags_tags {lo} {hi} {v} (s : State) : (Eff.apply (.fillTags lo hi v) s).tags = Tab.fill 0 s.tags lo hi v := rfl
@[simp] theorem Eff.fillPoisonWords_poisonWords {lo} {hi} (s : State) : (Eff.apply (.fillPoisonWords lo hi) s).poisonWords = Tab.fill false s.poisonWords lo hi true := rfl
@[simp] theorem Eff.cal_cal {v} (s : State) : (Eff.apply (.cal v) s).cal = v := rfl
@[simp] theorem Eff.calNext_calNext {v} (s : State) : (Eff.apply (.calNext v) s).calNext = v := rfl
@[simp] theorem Eff.selfCal_selfCal {v} (s : State) : (Eff.apply (.selfCal v) s).selfCal = v := rfl
@[simp] theorem Eff.licence_licence {v} (s : State) : (Eff.apply (.licence v) s).licence = v := rfl
@[simp] theorem Eff.firmware_firmware {v} (s : State) : (Eff.apply (.firmware v) s).firmware = v := rfl
@[simp] theorem Eff.auxOk_auxOk {v} (s : State) : (Eff.apply (.auxOk v) s).auxOk = v := rfl
@[simp] theorem Eff.mainOn_mainOn {v} (s : State) : (Eff.apply (.mainOn v) s).mainOn = v := rfl
@[simp] theorem Eff.hresetLow_hresetLow {v} (s : State) : (Eff.apply (.hresetLow v) s).hresetLow = v := rfl
@[simp] theorem Eff.booted_booted {v} (s : State) : (Eff.apply (.booted v) s).booted = v := rfl
@[simp] theorem Eff.recovery_recovery {v} (s : State) : (Eff.apply (.recovery v) s).recovery = v := rfl
@[simp] theorem Eff.reset__reset_ {v} (s : State) : (Eff.apply (.reset_ v) s).reset_ = v := rfl
@[simp] theorem Eff.resetWaiting_resetWaiting {v} (s : State) : (Eff.apply (.resetWaiting v) s).resetWaiting = v := rfl
@[simp] theorem Eff.partResets_partResets {v} (s : State) : (Eff.apply (.partResets v) s).partResets = v := rfl
@[simp] theorem Eff.restoreDefaults_restoreDefaults {v} (s : State) : (Eff.apply (.restoreDefaults v) s).restoreDefaults = v := rfl
@[simp] theorem Eff.dumps_dumps {v} (s : State) : (Eff.apply (.dumps v) s).dumps = v := rfl
@[simp] theorem Eff.dumpFlash_dumpFlash {v} (s : State) : (Eff.apply (.dumpFlash v) s).dumpFlash = v := rfl
@[simp] theorem Eff.dumpCopying_dumpCopying {v} (s : State) : (Eff.apply (.dumpCopying v) s).dumpCopying = v := rfl
@[simp] theorem Eff.raised_raised {v} (s : State) : (Eff.apply (.raised v) s).raised = v := rfl
@[simp] theorem Eff.logSeq_logSeq {v} (s : State) : (Eff.apply (.logSeq v) s).logSeq = v := rfl
@[simp] theorem Eff.emcyBusy_emcyBusy {v} (s : State) : (Eff.apply (.emcyBusy v) s).emcyBusy = v := rfl
@[simp] theorem Eff.emcyResetOwed_emcyResetOwed {v} (s : State) : (Eff.apply (.emcyResetOwed v) s).emcyResetOwed = v := rfl
@[simp] theorem Eff.nmt_nmt {v} (s : State) : (Eff.apply (.nmt v) s).nmt = v := rfl
@[simp] theorem Eff.nodeId_nodeId {v} (s : State) : (Eff.apply (.nodeId v) s).nodeId = v := rfl
@[simp] theorem Eff.entryWaits_entryWaits {v} (s : State) : (Eff.apply (.entryWaits v) s).entryWaits = v := rfl
@[simp] theorem Eff.ir_ir {v} (s : State) : (Eff.apply (.ir v) s).ir = v := rfl
@[simp] theorem Eff.dr_dr {v} (s : State) : (Eff.apply (.dr v) s).dr = v := rfl
@[simp] theorem Eff.boundary_boundary {v} (s : State) : (Eff.apply (.boundary v) s).boundary = v := rfl
@[simp] theorem Eff.msixWaiting_msixWaiting {v} (s : State) : (Eff.apply (.msixWaiting v) s).msixWaiting = v := rfl
@[simp] theorem Eff.findings_findings {v} (s : State) : (Eff.apply (.findings v) s).findings = v.take 256 := rfl
@[simp] theorem Eff.health_health {v} (s : State) : (Eff.apply (.health v) s).health = v.take 256 := rfl
@[simp] theorem Eff.resultLog_resultLog {v} (s : State) : (Eff.apply (.resultLog v) s).resultLog = v.take 1024 := rfl
@[simp] theorem Eff.log_log {v} (s : State) : (Eff.apply (.log v) s).log = v.take 65536 := rfl
@[simp] theorem Eff.errorHistory_errorHistory {v} (s : State) : (Eff.apply (.errorHistory v) s).errorHistory = v.take 16 := rfl
@[simp] theorem Eff.slew_slew {v} (s : State) : (Eff.apply (.slew v) s).slew = v := rfl
@[simp] theorem Eff.oscillator_oscillator {v} (s : State) : (Eff.apply (.oscillator v) s).oscillator = v % 5000 := rfl
@[simp] theorem Eff.ppsNext_ppsNext {v} (s : State) : (Eff.apply (.ppsNext v) s).ppsNext = v := rfl
@[simp] theorem Eff.heldPolicies_heldPolicies {v} (s : State) : (Eff.apply (.heldPolicies v) s).heldPolicies = v := rfl
@[simp] theorem Eff.fieldsOff_fieldsOff {v} (s : State) : (Eff.apply (.fieldsOff v) s).fieldsOff = v := rfl
@[simp] theorem Eff.phyStale_phyStale {v} (s : State) : (Eff.apply (.phyStale v) s).phyStale = v := rfl
@[simp] theorem Eff.retiredDrops_retiredDrops {v} (s : State) : (Eff.apply (.retiredDrops v) s).retiredDrops = v := rfl
@[simp] theorem Eff.unpersisted_unpersisted {v} (s : State) : (Eff.apply (.unpersisted v) s).unpersisted = v := rfl
@[simp] theorem Eff.emit_out {o} (s : State) : (Eff.apply (.emit o) s).out = s.out ++ [o] := rfl
@[simp] theorem Eff.draw_free (s : State) : (Eff.apply .draw s).free = s.free + 1 := rfl

end Sys2Proof.Machine
end

