-- ==== Sys2Proof/Laws/Run.lean ====
section
/-! SUPPORT. Programs: what running each form does, and how a fact about every effect that a program can have becomes a
fact about its run. -/

namespace Sys2Proof.Machine

open Sys2Proof

@[simp] theorem run_skip (s : State) : Prog.skip.run s = s := rfl
@[simp] theorem run_eff (e : Eff) (s : State) : (Prog.eff e).run s = e.apply s := rfl
@[simp] theorem run_seq (a b : Prog) (s : State) : (Prog.seq a b).run s = b.run (a.run s) := rfl
@[simp] theorem run_look (f : State → Prog) (s : State) : (Prog.look f).run s = (f s).run s := rfl
@[simp] theorem run_all_nil (s : State) : (all []).run s = s := rfl
@[simp] theorem run_all_cons (p : Prog) (ps : List Prog) (s : State) : (all (p :: ps)).run s = (all ps).run (p.run s) := rfl
@[simp] theorem run_eachP_nil {α : Type} (p : α → Prog) (s : State) : (eachP [] p).run s = s := rfl
@[simp] theorem run_eachP_cons {α : Type} (x : α) (xs : List α) (p : α → Prog) (s : State) :
    (eachP (x :: xs) p).run s = (eachP xs p).run ((p x).run s) := rfl
@[simp] theorem run_withP_some {α : Type} (a : α) (p : α → Prog) (s : State) : (withP (some a) p).run s = (p a).run s := rfl
@[simp] theorem run_withP_none {α : Type} (p : α → Prog) (s : State) : (withP none p).run s = s := rfl
@[simp] theorem run_withState (f : State → Eff) (s : State) : (withState f).run s = (f s).apply s := rfl

@[simp] theorem run_whenP (c : Bool) (p : Prog) (s : State) : (whenP c p).run s = if c = true then p.run s else s := by
  cases c <;> rfl

theorem run_ite (c : Prop) [Decidable c] (p q : Prog) (s : State) :
    (if c then p else q).run s = if c then p.run s else q.run s := by
  split <;> rfl

/-- Every effect that a program can have, in any state, satisfies `P`. -/
def Prog.Every (P : Eff → Prop) (p : Prog) : Prop :=
  match p with
  | .skip => True
  | .eff e => P e
  | .seq a b => a.Every P ∧ b.Every P
  | .look f => ∀ s, (f s).Every P

section every

variable {P : Eff → Prop}

@[simp] theorem every_skip : Prog.skip.Every P := trivial
@[simp] theorem every_eff {e : Eff} : (Prog.eff e).Every P ↔ P e := Iff.rfl
@[simp] theorem every_seq {a b : Prog} : (Prog.seq a b).Every P ↔ a.Every P ∧ b.Every P := Iff.rfl
@[simp] theorem every_look {f : State → Prog} : (Prog.look f).Every P ↔ ∀ s, (f s).Every P := Iff.rfl
@[simp] theorem every_withState {f : State → Eff} : (withState f).Every P ↔ ∀ s, P (f s) := Iff.rfl

@[simp] theorem every_all {ps : List Prog} : (all ps).Every P ↔ ∀ p ∈ ps, p.Every P := by
  induction ps with
  | nil => exact iff_of_true trivial (by simp)
  | cons p ps ih => simp only [all, every_seq, ih, List.forall_mem_cons]

@[simp] theorem every_whenP {c : Bool} {p : Prog} : (whenP c p).Every P ↔ (c = true → p.Every P) := by
  cases c <;> simp [whenP]

@[simp] theorem every_withP {α : Type} {o : Option α} {p : α → Prog} : (withP o p).Every P ↔ ∀ a, o = some a → (p a).Every P := by
  cases o <;> simp [withP]

@[simp] theorem every_eachP {α : Type} {xs : List α} {p : α → Prog} : (eachP xs p).Every P ↔ ∀ x ∈ xs, (p x).Every P := by
  induction xs with
  | nil => exact iff_of_true trivial (by simp)
  | cons x xs ih => simp only [eachP, every_seq, ih, List.forall_mem_cons]

@[simp] theorem every_ite {c : Prop} [Decidable c] {p q : Prog} :
    (if c then p else q).Every P ↔ (c → p.Every P) ∧ (¬c → q.Every P) := by
  split <;> simp_all

/-- A program whose every effect satisfies a weaker property. -/
theorem every_mono {Q : Eff → Prop} (h : ∀ e, P e → Q e) {p : Prog} (hp : p.Every P) : p.Every Q := by
  induction p with
  | skip => trivial
  | eff e => exact h e hp
  | seq a b iha ihb => exact ⟨iha hp.1, ihb hp.2⟩
  | look f ih => exact fun s => ih s (hp s)

/-- What every effect of a program keeps, its run keeps. -/
theorem run_keeps {α : Type} {g : State → α} {p : Prog} (hp : p.Every P) (h : ∀ e s, P e → g (e.apply s) = g s) (s : State) :
    g (p.run s) = g s := by
  induction p generalizing s with
  | skip => rfl
  | eff e => exact h e s hp
  | seq a b iha ihb => exact (ihb hp.2 (a.run s)).trans (iha hp.1 s)
  | look f ih => exact ih s (hp s) s

/-- An invariant that every effect of a program keeps holds after its run. -/
theorem run_invariant {I : State → Prop} {p : Prog} (hp : p.Every P) (h : ∀ e s, P e → I s → I (e.apply s)) {s : State}
    (hs : I s) : I (p.run s) := by
  induction p generalizing s with
  | skip => exact hs
  | eff e => exact h e s hp hs
  | seq a b iha ihb => exact ihb hp.2 (iha hp.1 hs)
  | look f ih => exact ih s (hp s) hs

/-- A reflexive and transitive relation that every effect of a program respects holds between its start and its end. -/
theorem run_rel {R : State → State → Prop} (refl : ∀ s, R s s) (trans : ∀ s m t, R s m → R m t → R s t) {p : Prog}
    (hp : p.Every P) (h : ∀ e s, P e → R s (e.apply s)) (s : State) : R s (p.run s) := by
  induction p generalizing s with
  | skip => exact refl s
  | eff e => exact h e s hp
  | seq a b iha ihb => exact trans _ _ _ (iha hp.1 s) (ihb hp.2 _)
  | look f ih => exact ih s (hp s) s

end every

/-- No condition on effects: every program meets it. -/
theorem every_true (p : Prog) : p.Every fun _ => True := by
  induction p with
  | skip => trivial
  | eff e => trivial
  | seq a b iha ihb => exact ⟨iha, ihb⟩
  | look f ih => exact fun s => ih s

/-- What every effect keeps, every program keeps. -/
theorem run_always {α : Type} {g : State → α} (h : ∀ e s, g (Eff.apply e s) = g s) (p : Prog) (s : State) : g (p.run s) = g s :=
  run_keeps (every_true p) (fun e s _ => h e s) s

/-- No program touches the queue. -/
@[simp] theorem run_pending (p : Prog) (s : State) : (p.run s).pending = s.pending := run_always Eff.keeps_pending p s

/-- The outcome of a command is the state that its program leaves. -/
@[simp] theorem finish_eq (p : Prog) (s : State) : finish p s = .next (p.run s) := rfl

end Sys2Proof.Machine
end

