-- ==== Sys2Proof/Laws/Tables.lean ====
section
/-! SUPPORT. Tables and memory: what a lookup reads after a replacement or a drop, and that every operation keeps the
canonical form. -/

namespace Sys2Proof.Machine

open Sys2Proof

section tables

variable {α : Type}

/-- Every key of a table is above a bound. -/
def Tab.Above (k : Nat) (t : Tab α) : Prop := ∀ e ∈ t, k < e.1

theorem Tab.get_above {d : α} {t : Tab α} {k : Nat} (h : Tab.Above k t) : Tab.get d t k = d := by
  induction t with
  | nil => rfl
  | cons e t ih =>
    have h1 : k < e.1 := h e (List.mem_cons_self ..)
    rw [Tab.get, if_neg (by omega)]
    exact ih fun x hx => h x (List.mem_cons_of_mem _ hx)

variable [DecidableEq α]

/-- A key of a replaced table is the key replaced or a key of the table. -/
theorem Tab.mem_set {d : α} {t : Tab α} {k : Nat} {v : α} {e : Nat × α} (h : e ∈ Tab.set d t k v) :
    (e = (k, v) ∧ v ≠ d) ∨ e ∈ t := by
  induction t with
  | nil =>
    rw [Tab.set] at h
    split at h <;> simp_all
  | cons x t ih =>
    rw [Tab.set] at h
    split at h
    · split at h <;> simp_all
    · split at h
      · split at h <;> simp_all
        rcases h with h | h <;> simp_all
      · rcases List.mem_cons.mp h with h | h
        · exact .inr (by simp [h])
        · rcases ih h with h | h
          · exact .inl h
          · exact .inr (by simp [h])

/-- Reading a table after a replacement. -/
theorem Tab.get_set {d : α} {t : Tab α} (ht : t.Pairwise fun a b => a.1 < b.1) (k : Nat) (v : α) (k' : Nat) :
    Tab.get d (Tab.set d t k v) k' = if k' = k then v else Tab.get d t k' := by
  induction t with
  | nil =>
    rw [Tab.set]
    split
    · rename_i hv; rw [hv]; simp [Tab.get]
    · simp [Tab.get, eq_comm]
  | cons x t ih =>
    obtain ⟨k1, v1⟩ := x
    obtain ⟨hx, ht⟩ := List.pairwise_cons.mp ht
    have above : ∀ j, j ≤ k1 → Tab.get d t j = d := fun j hj =>
      Tab.get_above fun e he => Nat.lt_of_le_of_lt hj (hx e he)
    have cons : ∀ (a : Nat) (b : α) (l : Tab α) (j : Nat), Tab.get d ((a, b) :: l) j = if a = j then b else Tab.get d l j :=
      fun _ _ _ _ => rfl
    rw [Tab.set]
    split
    · rename_i hlt
      split
      · rename_i hv
        split
        · rename_i hk
          rw [hk, hv, cons, if_neg (by omega), above k (by omega)]
        · rfl
      · rw [cons]
        simp only [eq_comm]
    · split
      · rename_i hk
        subst hk
        split
        · rename_i hv
          split
          · rename_i hk
            rw [hk, hv, above k (Nat.le_refl k)]
          · rename_i hk
            rw [cons, if_neg (by omega)]
        · rw [cons, cons]
          simp only [eq_comm]
          split <;> rfl
      · rw [cons, cons, ih ht]
        split
        · rename_i hk
          rw [if_neg (by omega)]
        · rfl

/-- Replacing one entry keeps the canonical form, for a default that depends on the key. -/
theorem Tab.canon_set {d : Nat → α} {t : Tab α} (h : Tab.Canon d t) (k : Nat) (v : α) :
    Tab.Canon d (Tab.set (d k) t k v) := by
  obtain ⟨hp, hd⟩ := h
  refine ⟨?_, fun e he => ?_⟩
  · clear hd
    induction t with
    | nil => rw [Tab.set]; split <;> simp
    | cons x t ih =>
      obtain ⟨k1, v1⟩ := x
      obtain ⟨hx, ht⟩ := List.pairwise_cons.mp hp
      rw [Tab.set]
      split
      · split
        · exact hp
        · refine List.pairwise_cons.mpr ⟨fun e he => ?_, hp⟩
          rcases List.mem_cons.mp he with rfl | he
          · assumption
          · have := hx e he; simp at this ⊢; omega
      · split
        · rename_i h; subst h
          split
          · exact ht
          · exact List.pairwise_cons.mpr ⟨hx, ht⟩
        · refine List.pairwise_cons.mpr ⟨fun e he => ?_, ih ht⟩
          rcases Tab.mem_set he with ⟨rfl, _⟩ | he
          · simp; omega
          · exact hx e he
  · rcases Tab.mem_set he with ⟨rfl, hv⟩ | he
    · exact hv
    · exact hd e he

omit [DecidableEq α] in
/-- Dropping a range of keys keeps the canonical form. -/
theorem Tab.canon_drop {d : Nat → α} {t : Tab α} (h : Tab.Canon d t) (lo hi : Nat) : Tab.Canon d (Tab.drop t lo hi) :=
  ⟨h.1.filter _, fun e he => h.2 e ((List.mem_filter.mp he).1)⟩

omit [DecidableEq α] in
/-- Reading a table after a range of keys was dropped. -/
theorem Tab.get_drop {d : α} {t : Tab α} (lo hi k : Nat) :
    Tab.get d (Tab.drop t lo hi) k = if lo ≤ k ∧ k < hi then d else Tab.get d t k := by
  induction t with
  | nil => simp [Tab.drop, Tab.get]
  | cons x t ih =>
    obtain ⟨k1, v1⟩ := x
    unfold Tab.drop at ih ⊢
    rw [List.filter_cons]
    by_cases hx : k1 < lo ∨ hi ≤ k1
    · rw [if_pos (by simpa using hx)]
      simp only [Tab.get, ih]
      split
      · rename_i h; subst h
        rw [if_neg (by omega)]
      · rfl
    · rw [if_neg (by simpa using hx), ih]
      simp only [Tab.get]
      by_cases h : k1 = k
      · subst h
        rw [if_pos (by omega), if_pos (by omega)]
      · rw [if_neg h]

/-- Filling a range of keys keeps the canonical form. -/
theorem Tab.canon_fill {d : α} {t : Tab α} (h : Tab.Canon (fun _ => d) t) (lo hi : Nat) (v : α) :
    Tab.Canon (fun _ => d) (Tab.fill d t lo hi v) := by
  have hr : (List.range (hi - lo)).Pairwise (· < ·) := List.pairwise_lt_range
  refine ⟨?_, fun e he => ?_⟩
  · unfold Tab.fill
    refine List.pairwise_append.mpr ⟨h.1.filter _, List.pairwise_append.mpr ⟨?_, h.1.filter _, ?_⟩, ?_⟩
    · split
      · exact List.Pairwise.nil
      · exact List.pairwise_map.mpr (hr.imp fun hab => by simpa using hab)
    · intro a ha b hb
      split at ha
      · simp at ha
      · simp only [List.mem_map, List.mem_range] at ha
        obtain ⟨i, hi', rfl⟩ := ha
        have := (List.mem_filter.mp hb).2
        simp at this ⊢; omega
    · intro a ha b hb
      have h1 := (List.mem_filter.mp ha).2
      rcases List.mem_append.mp hb with hb | hb
      · split at hb
        · simp at hb
        · simp only [List.mem_map, List.mem_range] at hb
          obtain ⟨i, hi', rfl⟩ := hb
          simp at h1 ⊢; omega
      · have h2 := (List.mem_filter.mp hb).2
        simp at h1 h2; omega
  · unfold Tab.fill at he
    rcases List.mem_append.mp he with he | he
    · exact h.2 e ((List.mem_filter.mp he).1)
    · rcases List.mem_append.mp he with he | he
      · split at he
        · simp at he
        · simp only [List.mem_map] at he
          obtain ⟨i, -, rfl⟩ := he
          assumption
      · exact h.2 e ((List.mem_filter.mp he).1)

end tables

/-- Memory is canonical as a table of bytes. -/
theorem memory_wf_iff {m : List Host.Cell} : Memory.wf m ↔ Tab.Canon (fun _ => emptyByte) m := Iff.rfl

/-- Writing one byte keeps memory's canonical form. -/
theorem writeByte_wf {m : List Host.Cell} (h : Memory.wf m) (a : Nat) (b : Byte) : Memory.wf (writeByte m a b) :=
  Tab.canon_set (d := fun _ => emptyByte) h a b

/-- Dropping a range of memory keeps the canonical form. -/
theorem dropMem_wf {m : List Host.Cell} (h : Memory.wf m) (lo hi : Nat) : Memory.wf (Tab.drop m lo hi) :=
  Tab.canon_drop (d := fun _ => emptyByte) h lo hi

/-- Reading a byte after a write. -/
theorem readByte_writeByte {m : List Host.Cell} (h : Memory.wf m) (a : Nat) (b : Byte) (x : Nat) :
    readByte (writeByte m a b) x = if x = a then b else readByte m x := Tab.get_set h.1 a b x

/-- Every memory operation of a program keeps memory's canonical form. -/
theorem apply_mem_wf (e : Eff) {s : State} (h : Memory.wf s.mem) : Memory.wf (e.apply s).mem := by
  by_cases hf : e.field = .mem
  · cases e <;> first
      | exact writeByte_wf h _ _
      | exact dropMem_wf h _ _
      | exact Field.noConfusion hf
  · rw [Eff.keeps_mem hf]; exact h

/-- Memory stays canonical through every program. -/
theorem run_mem_wf (p : Prog) {s : State} (h : Memory.wf s.mem) : Memory.wf (p.run s).mem :=
  run_invariant (I := fun s => Memory.wf s.mem) (every_true p) (fun e _ _ hs => apply_mem_wf e hs) h

end Sys2Proof.Machine
end

