-- ==== Sys2Proof/Laws/Reports.lean ====
section
/-! SUPPORT. Scalars, and the three ways to report an event: what each can write, once. -/

namespace Sys2Proof.Machine

open Sys2Proof

/-! ## Scalars -/

/-- The scalars are in canonical form. -/
abbrev State.Sorted (s : State) : Prop := Tab.Canon regDefault s.regs

theorem apply_sorted (e : Eff) {s : State} (h : s.Sorted) : (e.apply s).Sorted := by
  by_cases hf : e.field = .regs
  · cases e <;> first
      | exact Tab.canon_set h _ _
      | exact Tab.canon_drop h _ _
      | exact Field.noConfusion hf
  · unfold State.Sorted; rw [Eff.keeps_regs hf]; exact h

theorem run_sorted (p : Prog) {s : State} (h : s.Sorted) : (p.run s).Sorted :=
  run_invariant (I := State.Sorted) (every_true p) (fun e _ _ hs => apply_sorted e hs) h

/-- A replacement leaves the other keys, whatever the defaults. -/
theorem get_set_ne (d d' : Nat) (t : Tab Nat) (k v j : Nat) (hj : j ≠ k) :
    Tab.get d (Tab.set d' t k v) j = Tab.get d t j := by
  induction t with
  | nil => rw [Tab.set]; split <;> simp [Tab.get, Ne.symm hj]
  | cons x t ih =>
    obtain ⟨k1, v1⟩ := x
    rw [Tab.set]
    split
    · split <;> simp [Tab.get, Ne.symm hj]
    · split
      · rename_i hk; subst hk
        split <;> simp [Tab.get, Ne.symm hj]
      · simp only [Tab.get, ih]

/-- Reading a scalar after one was written. -/
theorem regAt_regs {s : State} (h : s.Sorted) (k v j : Nat) :
    ((Eff.regs k v).apply s).regAt j = if j = k then v else s.regAt j := by
  unfold State.regAt
  rw [Eff.regs_regs]
  split
  · rename_i hj; subst hj; rw [Tab.get_set h.1, if_pos rfl]
  · rename_i hj; exact get_set_ne _ _ _ _ _ _ hj

theorem regAt_dropRegs (s : State) (lo hi j : Nat) :
    ((Eff.dropRegs lo hi).apply s).regAt j = if lo ≤ j ∧ j < hi then regDefault j else s.regAt j := by
  unfold State.regAt
  rw [Eff.dropRegs_regs, Tab.get_drop]

/-- An effect on another field leaves every scalar. -/
@[simp] theorem regAt_keeps {e : Eff} (h : e.field ≠ .regs) (s : State) (k : Nat) : (e.apply s).regAt k = s.regAt k := by
  unfold State.regAt; rw [Eff.keeps_regs h]

/-- The keys of two scalars with subindices below 256 differ when the scalars do. -/
theorem rk_inj {i j a b : Nat} (ha : a < 256) (hb : b < 256) : rk i a = rk j b ↔ i = j ∧ a = b := by
  unfold rk; omega

theorem reg_setReg {s : State} (h : s.Sorted) {i j a b : Nat} (ha : a < 256) (hb : b < 256) (v : Nat) :
    ((setReg i a v).run s).reg j b = if j = i ∧ b = a then v else s.reg j b := by
  unfold setReg State.reg
  rw [run_eff, regAt_regs h]
  simp only [rk_inj hb ha]

/-! ## Reports -/

/-- An effect that a report can have. -/
def Eff.isReport (e : Eff) : Bool :=
  match e with
  | .regs k _ => reportKeys.contains k
  | .raised _ => true
  | .heldEvents _ => true
  | .emit _ => true
  | .errorHistory _ => true
  | .emcyBusy _ => true
  | .msixWaiting _ => true
  | .onceUsed _ => true
  | .limits _ _ => true
  | _ => false

/-- What a report relates: fields other than its own and scalars other than its own stay. -/
def ReportStep (s t : State) : Prop := t = s.reported t ∧ ∀ k, k ∉ reportKeys → t.regAt k = s.regAt k

theorem ReportStep.refl (s : State) : ReportStep s s := ⟨rfl, fun _ _ => rfl⟩

theorem ReportStep.trans (s m t : State) (h1 : ReportStep s m) (h2 : ReportStep m t) : ReportStep s t := by
  refine ⟨?_, fun k hk => (h2.2 k hk).trans (h1.2 k hk)⟩
  have h := h2.1
  rw [h1.1] at h
  exact h

theorem apply_reportStep (e : Eff) (s : State) (h : e.isReport = true) : ReportStep s (e.apply s) := by
  cases e <;> first
    | exact ⟨rfl, fun _ _ => rfl⟩
    | exact Bool.noConfusion h
    | skip
  rename_i k v
  refine ⟨rfl, fun j hj => get_set_ne _ _ _ _ _ _ fun hjk => ?_⟩
  subst hjk
  exact hj (List.contains_iff_mem.mp h)

theorem run_reportStep {p : Prog} (h : p.Every fun e => e.isReport = true) (s : State) : ReportStep s (p.run s) :=
  run_rel ReportStep.refl ReportStep.trans h apply_reportStep s

/-- Every effect of the named shared operations is one that a report can have. -/
theorem every_sendMsix (v : Nat) : (sendMsix v).Every fun e => e.isReport = true := by
  simp only [sendMsix, count64, bump, setReg, every_look, every_ite, every_all, List.forall_mem_cons, every_eff]
  exact fun s => ⟨fun _ => ⟨rfl, fun _ => rfl, by simp⟩, fun _ => by simp [Eff.isReport]⟩

theorem every_sendEmcy (code reg event kind num arg : Nat) :
    (sendEmcy code reg event kind num arg).Every fun e => e.isReport = true := by
  simp only [sendEmcy, every_look, every_all, every_eachP, every_whenP, every_withState, List.forall_mem_cons, every_eff]
  exact ⟨⟨fun _ _ => rfl, fun _ _ => rfl, by simp⟩, fun _ => rfl, fun _ _ => rfl, by simp⟩

theorem every_logEvent (e : Event) : (logEvent e).Every fun e => e.isReport = true := by
  simp only [logEvent, count32, bump, setReg, every_look, every_ite, every_all, every_whenP, every_withState, every_sendMsix,
    every_sendEmcy, List.forall_mem_cons, every_eff]
  exact ⟨fun _ => rfl, fun _ => rfl, fun _ _ => ⟨fun _ _ => rfl, fun _ => trivial⟩, fun _ _ => trivial, by simp⟩

@[simp] theorem every_report (code kind num a1 a2 : Nat) : (report code kind num a1 a2).Every fun e => e.isReport = true := by
  simp only [report, every_look, every_whenP, every_ite, every_logEvent, every_eff]
  exact fun _ _ => ⟨fun _ => rfl, fun _ => trivial⟩

@[simp] theorem every_reportOnce (code c site kind num a1 a2 : Nat) :
    (reportOnce code c site kind num a1 a2).Every fun e => e.isReport = true := by
  unfold reportOnce
  simp only [every_look, every_whenP, every_all, List.forall_mem_cons, every_eff, every_report]
  intro s _
  exact ⟨rfl, trivial, by simp⟩

@[simp] theorem every_reportLimited (code unit period kind num a1 a2 : Nat) :
    (reportLimited code unit period kind num a1 a2).Every fun e => e.isReport = true := by
  unfold reportLimited
  simp only [every_look, every_whenP, every_all, List.forall_mem_cons, every_eff, every_report]
  intro s _
  exact ⟨rfl, trivial, by simp⟩

/-- All that a report can do. -/
theorem report_step (code kind num a1 a2 : Nat) (s : State) : ReportStep s ((report code kind num a1 a2).run s) :=
  run_reportStep (every_report ..) s

/-- All that a report under the once-per-section rule can do. -/
theorem reportOnce_step (code c site kind num a1 a2 : Nat) (s : State) :
    ReportStep s ((reportOnce code c site kind num a1 a2).run s) := run_reportStep (every_reportOnce ..) s

/-- All that a report limited to one in a period can do. -/
theorem reportLimited_step (code unit period kind num a1 a2 : Nat) (s : State) :
    ReportStep s ((reportLimited code unit period kind num a1 a2).run s) := run_reportStep (every_reportLimited ..) s

/-- A report's end is its start with some of what a report can write. -/
theorem report_reported (code kind num a1 a2 : Nat) (s : State) :
    ∃ u, (report code kind num a1 a2).run s = s.reported u ∧ ∀ k, k ∉ reportKeys → u.regAt k = s.regAt k :=
  ⟨_, (report_step code kind num a1 a2 s).1, (report_step code kind num a1 a2 s).2⟩

@[simp] theorem regAt_reported (s u : State) (k : Nat) : (s.reported u).regAt k = u.regAt k := rfl

@[simp] theorem reg_reported (s u : State) (i j : Nat) : (s.reported u).reg i j = u.reg i j := rfl

end Sys2Proof.Machine
end

