-- ==== Sys2Proof/Laws/Commands.lean ====
section
/-! SUPPORT. Dictionary writes: what an accepted and a refused one do, once for all of them. -/

namespace Sys2Proof.Machine

open Sys2Proof

/-- Effects of an answer: the message, the window status, the JTAG register, the ended snapshots. -/
def Eff.isAnswer (e : Eff) : Bool :=
  match e with
  | .emit _ => true
  | .windows _ _ => true
  | .dr _ => true
  | .dictSnaps _ _ => true
  | _ => false

/-- Every other field stays. -/
def AnswerStep (s t : State) : Prop := t = s.answered t

theorem AnswerStep.trans (s m t : State) (h1 : AnswerStep s m) (h2 : AnswerStep m t) : AnswerStep s t := by
  unfold AnswerStep at *
  rw [h1] at h2
  exact h2

theorem run_answerStep {p : Prog} (h : p.Every fun e => e.isAnswer = true) (s : State) : AnswerStep s (p.run s) :=
  run_rel (R := AnswerStep) (fun _ => rfl) AnswerStep.trans h (fun e s he => by
    cases e <;> first
      | exact rfl
      | exact Bool.noConfusion he) s

theorem every_answer (p : Path) (code v : Nat) : (answer p code v).Every fun e => e.isAnswer = true := by
  simp only [answer, modWindow, every_all, every_look, every_whenP, List.forall_mem_cons, every_eff]
  exact ⟨rfl, fun _ _ _ => rfl, fun _ _ => rfl, by simp⟩

theorem every_dropSnapshots (idx : Nat) : (dropSnapshots idx).Every fun e => e.isAnswer = true := by
  simp only [dropSnapshots, every_eachP, every_look]
  intro k _ s
  split
  · simp only [every_whenP, every_eff]; exact fun _ => rfl
  · trivial

/-- All that an answer can do. -/
theorem answer_step (p : Path) (code v : Nat) (s : State) : AnswerStep s ((answer p code v).run s) :=
  run_answerStep (every_answer p code v) s

/-- All that ending the snapshots of an object can do. -/
theorem dropSnapshots_step (idx : Nat) (s : State) : AnswerStep s ((dropSnapshots idx).run s) :=
  run_answerStep (every_dropSnapshots idx) s

/-- What an effect does to the messages sent. -/
theorem out_of_not_emit {p : Prog} (h : p.Every fun e => e.field ≠ .out) (s : State) : (p.run s).out = s.out :=
  run_keeps (g := fun s => s.out) h (fun e s he => by cases e <;> first | rfl | exact absurd rfl he) s

/-- An answer sends one message to its path. -/
theorem answer_out (p : Path) (code v : Nat) (s : State) : ((answer p code v).run s).out = s.out ++ [.dictDone p code v] := by
  have h : ∀ q : Prog, q.Every (fun e => e.field ≠ .out) → ∀ u : State, (q.run u).out = u.out := fun _ h u => out_of_not_emit h u
  unfold answer
  simp only [run_all_cons, run_all_nil, run_eff]
  rw [h, h]
  · rfl
  · simp [modWindow]
  · simp

/-- Ending snapshots sends nothing. -/
theorem dropSnapshots_out (idx : Nat) (s : State) : ((dropSnapshots idx).run s).out = s.out := by
  refine out_of_not_emit ?_ s
  simp only [dropSnapshots, every_eachP, every_look]
  intro k _ s
  split <;> simp

/-- A command whose value and state are accepted has no abort code. -/
theorem Command.code_zero {k : Command} {s : State} {idx sub : Nat} (hd : s.controllerDown = false)
    (hv : k.valueOk s = true) (ha : s.available idx sub k.setting = true) (hst : k.stateOk s = true) : k.code s idx sub = 0 := by
  simp [Command.code, hd, hv, ha, hst]

/-- An accepted command has its effect and answers its path; nothing else changes. -/
theorem command_accepted {p : Path} {idx sub : Nat} {k : Command} {s : State} (hs : s.serves p = true)
    (hc : k.code s idx sub = 0) (hl : k.answersLater = false) :
    (commandWrite p idx sub k).run s = (k.effect.run s).answered ((commandWrite p idx sub k).run s)
      ∧ ((commandWrite p idx sub k).run s).out = (k.effect.run s).out ++ [.dictDone p 0 0] := by
  have h : (commandWrite p idx sub k).run s = (answer p 0 0).run ((dropSnapshots idx).run (k.effect.run s)) := by
    simp [commandWrite, hs, hc, hl]
  rw [h]
  refine ⟨AnswerStep.trans _ _ _ (dropSnapshots_step idx _) (answer_step p 0 0 _), ?_⟩
  rw [answer_out, dropSnapshots_out]

/-- A command on a path that is not served does nothing. -/
theorem command_unserved {p : Path} {idx sub : Nat} {k : Command} {s : State} (hs : s.serves p = false) :
    (commandWrite p idx sub k).run s = s := by
  simp [commandWrite, hs]

/-- A command refused without an effect of its own records the abort code for its path and answers with it. -/
theorem command_refused {p : Path} {idx sub : Nat} {k : Command} {s : State} (hs : s.serves p = true)
    (hc : k.code s idx sub ≠ 0) (hr : k.code s idx sub = abortBusy ∨ k.refused (k.code s idx sub) = .skip) :
    (commandWrite p idx sub k).run s = (refuseAccess p idx sub (k.code s idx sub)).run s := by
  simp only [commandWrite, run_look, hs, Bool.not_true, Bool.false_eq_true, if_false, hc]
  split
  · rfl
  · rename_i h
    rcases hr with hr | hr
    · exact absurd hr h
    · rw [hr]; rfl

end Sys2Proof.Machine
end

