-- ==== Sys2Proof/Tests/Slice0.lean ====
section
/-! SUPPORT. The tests of the model: an ill-formed command for each check of WellFormed, and for every statement with
premises a concrete state and operands that meet them, with the effect seen there. The expected values are the
specification's. -/

namespace Sys2Proof.Tests

open Sys2Proof Sys2Proof.Machine

set_option Elab.async false

/-! ## Helpers -/

/-- The state that a command leaves. -/
def after (c : Instr) (s : State) : State :=
  match exec c s with
  | .next t => t
  | _ => s

/-- The scalars of `s` with those of `xs` (index, subindex, value) written. -/
def State.withRegs (s : State) (xs : List (Nat × Nat × Nat)) : State :=
  { s with regs := xs.foldl (fun t x => put t (rk x.1 x.2.1) x.2.2) s.regs }
where
  /-- Replaces or inserts a key in a sorted list. -/
  put (t : Tab Nat) (k v : Nat) : Tab Nat :=
    match t with
    | [] => [(k, v)]
    | e :: t => if k < e.1 then (k, v) :: e :: t else if k = e.1 then (k, v) :: t else e :: put t k v

/-- A ready device: main power is on, no reset runs, step 12 of bring-up is done, and the scalars of `xs` are set. -/
def dev (xs : List (Nat × Nat × Nat)) : State :=
  State.withRegs { State.reset with booted := true, mainOn := true, reset_ := none, nmt := .preOperational } ([(0x20F0, 1, 0x0C)] ++ xs)

/-- The tables of numbers of `s` that read 0 where they list nothing. -/
def zeroTabs (s : State) : List (Tab Nat) :=
  [s.selectors, s.tags, s.fmap, s.idle, s.claims, s.routeState, s.fencedAs, s.limits, s.sliceTimes, s.arbs, s.slotFixes,
    s.maskDrops, s.dieModules]

/-- The tables of flags of `s` that read false where they list nothing. -/
def falseTabs (s : State) : List (Tab Bool) := [s.poisonLines, s.poisonWords, s.offerHold, s.candidates]

/-- The records of the sites' tiles and of their Bond hardware are in canonical form. -/
abbrev TilesCanon (s : State) : Prop :=
  (Tab.Canon (fun _ => {}) s.mtiles ∧ Tab.Canon (fun _ => {}) s.stiles ∧ Tab.Canon (fun _ => {}) s.ftiles) ∧
    (Tab.Canon (fun _ => {}) s.bond ∧ Tab.Canon (fun _ => {}) s.acc) ∧ Tab.Canon (fun _ => {}) s.vreg

/-- The plans, snapshots and tests, which are absent where nothing is listed, are in canonical form. -/
abbrev AbsentCanon (s : State) : Prop :=
  (Tab.Canon (fun _ => none) s.running ∧ Tab.Canon (fun _ => none) s.plans) ∧
    (Tab.Canon (fun _ => none) s.snaps ∧ Tab.Canon (fun _ => none) s.marigold) ∧ Tab.Canon (fun _ => none) s.dictSnaps

/-- The contexts, flags, rings and Mortar's queues are in canonical form. -/
abbrev FlagsCanon (s : State) : Prop :=
  (Tab.Canon (fun _ => {}) s.ctxs ∧ Tab.Canon (fun _ => {}) s.cells ∧ Tab.Canon (fun _ => {}) s.rings) ∧
    (Tab.Canon (fun _ => []) s.waiters ∧ Tab.Canon (fun _ => []) s.net) ∧ Tab.Canon (fun _ => {}) s.links

/-- The edge's units are in canonical form. -/
abbrev EdgeCanon (s : State) : Prop :=
  (Tab.Canon (fun _ => {}) s.hbm ∧ Tab.Canon (fun _ => {}) s.xtiles ∧ Tab.Canon (fun _ => {}) s.pairs) ∧
    (Tab.Canon (fun _ => {}) s.lintels ∧ Tab.Canon (fun _ => {}) s.islands) ∧
    (Tab.Canon (fun _ => {}) s.can ∧ Tab.Canon (fun _ => {}) s.windows) ∧ Tab.Canon (fun _ => {}) s.microcode

/-- `State.Canonical` as a test. -/
def canonOk (s : State) : Bool :=
  (Memory.wf s.mem && decide (Tab.Canon regDefault s.regs)) &&
    (((zeroTabs s).all fun t => decide (Tab.Canon (fun _ => 0) t)) &&
      (falseTabs s).all fun t => decide (Tab.Canon (fun _ => false) t)) &&
    (decide (TilesCanon s) && decide (AbsentCanon s)) && (decide (FlagsCanon s) && decide (EdgeCanon s))

theorem canon_of_ok {s : State} (h : canonOk s = true) : s.Canonical := by
  simp only [canonOk, Bool.and_eq_true, List.all_eq_true, decide_eq_true_eq] at h
  obtain ⟨⟨⟨hm, hz, hb⟩, ht, ha⟩, hf, he⟩ := h
  constructor <;> first
    | exact hz _ (by simp [zeroTabs])
    | exact hb _ (by simp [falseTabs])
    | tauto

/-- Four facts that are decided together stand before the others. -/
theorem facts {a b c d r : Prop} (h : a ∧ b ∧ c ∧ d) (t : r) : a ∧ b ∧ c ∧ d ∧ r := ⟨h.1, h.2.1, h.2.2.1, h.2.2.2, t⟩

/-- `s` with the bytes `bs` written from address `a` on. -/
def stored (s : State) (a : Nat) (bs : List Byte) : State := (storeBytes a bs).run s

/-- The scalars of a device whose stacks 0 and 1, which hold the first 16 KiB of HBM, are online. -/
def hbmOn : List (Nat × Nat × Nat) := [(0x4100, 1, 1), (0x4101, 1, 1)]

/-- The scalars of context 0 on partition 0, which has `mask`, with queue bases 0x1000 and 0x2000 and 32 entries. -/
def ctxSet (mask : Nat) : List (Nat × Nat × Nat) :=
  [(0x2010, 2, 1), (0x2430, 1, mask), (0x2700, 4, 0x1000), (0x2700, 5, 5), (0x2700, 7, 0x2000)]

/-- The same with the context running. -/
def ctxOn (mask : Nat) : List (Nat × Nat × Nat) := ctxSet mask ++ [(0x2700, 1, 1)]

/-! ## WellFormed refuses each ill-formed operand -/

theorem wf_refuses_number : (Instr.resetMinimumRecords .host0 (2 ^ 64)).wellFormed = false := by decide +kernel

theorem wf_refuses_bytes : ∀ b : List Byte, 2 ^ 24 < b.length → (Instr.calibrationSetWrite .host0 b).wellFormed = false :=
  fun b h => by simp only [Instr.wellFormed, bytesOk]; exact decide_eq_false (by omega)

theorem wf_refuses_packet :
    (Instr.flagSet { dst := 0, src := 0, ctx := 0, cls := 1, typ := 1, len := 1 }).wellFormed = false ∧
    (Instr.flagSet { dst := 4096, src := 0, ctx := 0, cls := 1, typ := 1, len := 0 }).wellFormed = false ∧
    (Instr.flagSet { dst := 0, src := 0, ctx := 64, cls := 1, typ := 1, len := 0 }).wellFormed = false ∧
    (Instr.flagSet { dst := 0, src := 0, ctx := 0, cls := 1, typ := 1, len := 0 }).wellFormed = true := by decide +kernel

theorem wf_refuses_store_write :
    storeWriteOk { bond := some 2, offset := 2 ^ 19 - 63, bytes := [], poison := false, conflict := false } = false ∧
    storeWriteOk { offset := 2 ^ 19 - 1, bytes := [0, 0], poison := false, conflict := false } = false := by decide +kernel

theorem wf_refuses_access : accessOk { aliased := false, off := 0, len := 2, bytes := [0] } = false ∧
    accessOk { aliased := false, off := 2 ^ 22, len := 1 } = false := by
  decide +kernel

theorem wf_refuses_step_report : stepReportOk { trained := [⟨0, 0, 0⟩, ⟨0, 1, 2⟩] } = false := by decide +kernel

theorem wf_refuses_readings : readingsOk ⟨[], [], 0, 0, 0, 0, 0, []⟩ = false := by decide +kernel

theorem wf_refuses_frame :
    frameOk { pair := 0, psn := 0, icrcOk := true, op := .readRequest 0 0 (2 ^ 31 + 1), fecFixed := 0, fecLost := 0 } = false ∧
    frameOk { pair := 0, psn := 2 ^ 24, icrcOk := true, op := .ack, fecFixed := 0, fecLost := 0 } = false := by decide +kernel

theorem wf_refuses_usdo : usdoOk (.read (2 ^ 16) 0) = false ∧ usdoOk (.write 0 256 []) = false := by decide +kernel

theorem wf_refuses_line : lineOk { stack := 0, channel := 0, offset := 2 ^ 31 } = false := by decide +kernel

theorem wf_refuses_slice_report : sliceReportOk { site := 0, kind := 16 } = false := by decide +kernel

/-- The table gives no row bits, so no word spells a command. -/
theorem test_decode_gives_nothing : decodeTableWord 64 0 = none := by decide +kernel

/-! ## The queue, reset and the canonical form -/

theorem witness_StepRunsFront : ∃ (c : Instr) (rest : List Instr) (s : State), s.pending = c :: rest ∧
    (match step s with | .next t => t.pending | _ => []) = rest ∧ rest ≠ [] :=
  ⟨.heartbeatTimer, [.ppsOutSecond], { dev [] with pending := [.heartbeatTimer, .ppsOutSecond] }, by decide +kernel⟩

theorem witness_StepKeepsCanonical : ∃ s t : State, s.Canonical ∧ step s = .next t :=
  ⟨State.reset, _, canon_of_ok (by decide +kernel), rfl⟩

theorem witness_StepKeepsBounded : ∃ s t : State, s.Bounded ∧ step s = .next t :=
  ⟨State.reset, _, by constructor <;> decide, rfl⟩

/-! ## CAN, the timebase and JTAG -/

theorem witness_CanBusesAndNmt_bus :
    (∃ (s : State) (b : Bus), s.Canonical ∧ s.busUp b = true ∧ s.reg 0x2E30 (0x02 + b) ≠ 2 ∧
      (after (.canBusOff b) s).reg 0x2E30 (0x02 + b) = 2 ∧
      (after (.canErrorFrame b ⟨256, 0⟩) s).reg 0x2E30 (0x02 + b) = 2 ∧
      (after (.canErrorFrame b ⟨255, 0⟩) s).reg 0x2E30 (0x02 + b) = 1 ∧
      (after (.canErrorFrame b ⟨127, 127⟩) s).reg 0x2E30 (0x02 + b) = 0 ∧
      (after (.canErrorFrame b ⟨127, 127⟩) s).reg 0x2E30 0x04 = 1) ∧
    ∃ (s : State) (b : Bus), s.Canonical ∧ s.reg 0x2E30 (0x02 + b) = 2 ∧
      (after (.busOffRecovery b) s).reg 0x2E30 (0x02 + b) = 0 :=
  ⟨⟨dev [], 1, canon_of_ok (by decide +kernel), by decide +kernel⟩,
   ⟨dev [(0x2E30, 2, 2)], 0, canon_of_ok (by decide +kernel), by decide +kernel⟩⟩

theorem witness_CanBusesAndNmt_nmt :
    (∃ (s : State) (node : Nat), s.nmtTaken node = true ∧ s.ready = true ∧
      (after (.nmtStart node) s).nmt = .operational ∧ (after (.nmtStop node) s).nmt = .stopped ∧
      (after (.nmtResetNode node) s).out = [.nmtBoot] ∧ (after (.nmtResetCommunication node) s).nodeId = 127) ∧
    (∃ (s : State) (node : Nat), s.nmtTaken node = true ∧ s.ready = false ∧ (after (.nmtStart node) s).nmt = .preOperational) ∧
    ∃ s : State, s.booted = true ∧ s.reg 0x1017 0x00 ≠ 0 ∧ (∀ b : Bus, s.busUp b = true ∧ s.reg 0x2E30 (0x02 + b) ≠ 2) ∧
      (after .heartbeatTimer s).out = [.heartbeat 0 127, .heartbeat 1 127] :=
  ⟨⟨dev [], 127, by decide +kernel⟩, ⟨dev [(0x20F0, 1, 5)], 0, by decide +kernel⟩, ⟨dev [(0x1017, 0, 1)], by decide +kernel⟩⟩

theorem witness_TimebaseCountsAndIsDisciplined_tick : ∃ s : State, s.Canonical ∧ s.pending = [] ∧ s.slew = 0 ∧
    (match step s with | .next t => t.reg 0x2E40 0x01 | _ => 1) = 0 :=
  ⟨dev [(0x2E40, 1, 2 ^ 64 - 1)], canon_of_ok (by decide +kernel), by decide +kernel⟩

theorem witness_TimebaseCountsAndIsDisciplined_sync :
    (∃ (s : State) (port : EthPort) (domain : Nat), s.Canonical ∧ s.timebaseUp = true ∧ s.dieUp (port / 4) = true ∧
      s.reg 0x2E40 0x02 = port ∧ s.reg 0x2E40 0x03 = domain ∧ s.reg (0x2E20 + port) 0x01 = 1 ∧
      (after (.ptpSyncMessage port domain (s.reg 0x2E40 0x06 : Int)) s).slew = 0 ∧
      (after (.ptpSyncMessage port domain (s.reg 0x2E40 0x06 : Int)) s).now = s.now + s.reg 0x2E40 0x06 ∧
      (after (.ptpSyncMessage port domain ((s.reg 0x2E40 0x06 : Int) - 1)) s).now = s.now ∧
      (after (.ptpSyncMessage port domain (-5)) s).slew = -5 ∧
      (after (.ptpSyncMessage port domain (-5)) s).reg 0x2E40 0x05 = 2 ^ 64 - 5) ∧
    (∃ s : State, s.Canonical ∧ s.reg 0x2E40 0x04 = 1 ∧ (after .ptpHoldover s).reg 0x2E40 0x04 = 2) :=
  ⟨⟨dev [(0x2E40, 2, 3), (0x2E40, 3, 7), (0x2E23, 1, 1)], 3, 7, canon_of_ok (by decide +kernel), by decide +kernel⟩,
   ⟨dev [(0x2E40, 4, 1)], canon_of_ok (by decide +kernel), by decide +kernel⟩⟩

theorem witness_TimebaseCountsAndIsDisciplined_pps : ∃ s : State, s.Canonical ∧ s.timebaseUp = true ∧ s.reg 0x2E40 0x07 = 1 ∧
    s.reg 0x2E40 0x02 = 0xFF ∧ (after .ppsInEdge s).slew = 400000000 ∧ (after .ppsOutSecond s).now = 4000000000 ∧
    (after .ppsOutSecond s).out = [.ppsRise] :=
  ⟨dev [(0x2E40, 7, 1), (0x2E40, 2, 255), (0x2E40, 1, 3600000000)], canon_of_ok (by decide +kernel), by decide +kernel⟩

theorem witness_JtagAndCanReachTheDictionary_tap :
    (∃ s : State, s.tapUp = true ∧ s.hresetLow = true ∧ s.booted = false ∧ s.recovery = false ∧
      (after (.bypass true) s).dr = 1 ∧ (after (.bypass true) s).out = [.tdo 0] ∧ (after .idcode s).ir = .idcode ∧
      (after (.samplePreload 5) s).boundary = 5 ∧ (after (.extest 5) s).boundary = 5 ∧ (after (.extest 5) s).out.drop 1 = [.pins 5] ∧ (after (.dict 0) s).dr = 2 ^ 127 ∧
      (after (.dictWindow 0) s).dr = 2 ^ 127) ∧
    ∃ s : State, s.tapUp = true ∧ s.hresetLow = false ∧ (after (.extest 5) s).ir = .bypass ∧ (after (.extest 5) s).dr = 1 :=
  ⟨⟨{ State.reset with hresetLow := true }, by decide +kernel⟩, ⟨State.reset, by decide +kernel⟩⟩

theorem witness_JtagAndCanReachTheDictionary_paths : ∃ s : State, s.Canonical ∧ s.controllerDown = false ∧
    s.serves (busPath 0) = true ∧ s.readCode 0x20F0 1 false = 0 ∧
    (after (.usdoRequest 0 (.read 0x20F0 1)) s).out = [.usdoReply 0 0 [0x0C]] ∧
    (after (.usdoRequest 0 (.write 0x1017 0 (toBytes 2 500))) s).reg 0x1017 0 = 500 ∧ s.tapUp = true ∧ s.serves .jtag = true :=
  ⟨dev [], canon_of_ok (by decide +kernel), by decide +kernel⟩

/-- DICT (R463): bit 127 write, 126 to 111 index, 110 to 103 subindex, 102 to 101 size code, 63 to 0 value. -/
theorem witness_JtagAndCanReachTheDictionary_dict : ∃ (s : State) (dr : BitVec 128), s.Canonical ∧ s.controllerDown = false ∧
    s.tapUp = true ∧ s.serves .jtag = true ∧ dr.toNat.testBit 127 = true ∧ bits dr.toNat 126 111 = 0x1017 ∧
    bits dr.toNat 110 103 = 0 ∧ bits dr.toNat 102 101 = 1 ∧ bits dr.toNat 63 0 = 65535 ∧
    (after (.dict dr.toNat) s).reg 0x1017 0 = 65535 ∧ (after (.dict dr.toNat) s).dr = 0 :=
  ⟨dev [], .ofNat 128 (2 ^ 127 + 0x1017 * 2 ^ 111 + 2 ^ 101 + 65535), canon_of_ok (by decide +kernel), by decide +kernel⟩

theorem witness_JtagAndCanReachTheDictionary_window : ∃ (s : State) (dr : BitVec 128), s.Canonical ∧ s.controllerDown = false ∧
    s.tapUp = true ∧ s.serves .jtag = true ∧ dr.toNat.testBit 127 = true ∧ bits dr.toNat 126 107 = 0x80000 ∧
    bits (bits dr.toNat 63 0) 31 8 ≠ 0x203001 ∧ ((after (.dictWindow dr.toNat) s).window 4).selector = 0x2E200500 :=
  ⟨dev [], .ofNat 128 (2 ^ 127 + 0x80000 * 2 ^ 107 + 0x2E200500), canon_of_ok (by decide +kernel), by decide +kernel⟩

/-! ## The dictionary -/

theorem witness_GridCountersClear : ∃ (s : State) (p : Path) (v : Nat), s.Canonical ∧ s.serves p = true ∧
    s.controllerDown = false ∧ v ≠ 0 ∧ s.reg 0x2C01 1 = 7 ∧
    (after (.clearArithmeticCounters p v) s).reg 0x2C01 1 = 0 ∧ (after (.clearArithmeticCounters p 0) s).reg 0x2C01 1 = 7 ∧
    (after (.clearScratchpadCounters p v) s).reg 0x29E0 5 = 0 ∧ (after (.clearBondCounters p v) s).reg 0x2B00 3 = 0 ∧
    (after (.clearMortarCounters p v) s).reg 0x2A00 8 = 0 ∧ (after (.clearHbmCounters p v) s).reg 0x411F 6 = 0 ∧
    (after (.clearSyncCounters p v) s).reg 0x2800 4 = 0 ∧ ((after (.clearSyncCounters p v) s).ring 9).messages = 0 ∧
    (s.ring 9).messages = 3 :=
  ⟨{ dev [(0x2C01, 1, 7), (0x29E0, 5, 7), (0x2B00, 3, 7), (0x2A00, 8, 7), (0x411F, 6, 7), (0x2800, 4, 7)] with
      rings := [(9, { messages := 3 })] }, .canB, 1, canon_of_ok (by decide +kernel), by decide +kernel⟩

theorem witness_DeviceCountersClear : ∃ (s : State) (p : Path) (v : Nat), s.Canonical ∧ s.serves p = true ∧
    s.controllerDown = false ∧ v ≠ 0 ∧ s.reg 0x2E10 9 = 7 ∧
    (after (.clearPortCounters p v) s).reg 0x2E10 9 = 0 ∧ (after (.clearPortCounters p 0) s).reg 0x2E10 9 = 7 ∧
    s.reg 0x3CBF 0xA2 = 3 ∧ (after (.clearPowerCounters p v) s).reg 0x3CBF 0xA2 = 127 ∧
    (after (.clearVoteCounters p v) s).reg 0x2540 5 = 0 ∧ (after (.clearSelfTestCounters p v) s).reg 0x2610 3 = 0 :=
  ⟨dev [(0x2E10, 9, 7), (0x3CBF, 0xA2, 3), (0x2540, 5, 7), (0x2610, 3, 7)], .jtag, 1,
    canon_of_ok (by decide +kernel), by decide +kernel⟩

theorem witness_DictionaryWritesReachTheirObject_accepted : ∃ (s : State) (p : Path) (r : ObjRow), s.Canonical ∧
    s.serves p = true ∧ s.controllerDown = false ∧ indexExists 0x1017 = true ∧ objRow 0x1017 0 = some r ∧ r.size = 2 ∧
    r.acc ≠ .const ∧ r.acc ≠ .ro ∧ (scalarCommand p 0x1017 0 65535).code s 0x1017 0 = 0 ∧
    (scalarCommand p 0x1017 0 65535).answersLater = false ∧
    (after (.registerWrite p 0x1017 0 2 65535) s).reg 0x1017 0 = 65535 :=
  ⟨dev [], .canA, (objRow 0x1017 0).get (by decide), canon_of_ok (by decide +kernel), by decide +kernel⟩

theorem witness_DictionaryWritesReachTheirObject_refused : ∃ (s : State) (p : Path), s.Canonical ∧ s.serves p = true ∧
    s.controllerDown = false ∧ writeCode 0x1000 0 4 true = 0x06010002 ∧ writeCode 0x1017 0 4 true = 0x06070010 ∧
    writeCode 0x0001 0 1 true = 0x06020000 ∧
    (after (.registerWrite p 0x1000 0 4 1) s).reg 0x20F8 (0x01 + pathNo p) = 0x06010002 ∧
    (after (.registerWrite p 0x1000 0 4 1) s).reg 0x20F8 (0x06 + pathNo p) = 0x10000000 ∧
    s.allFree = true ∧ (after (.restoreDefaults p 0x64616F6C) s).restoreDefaults = true ∧
    (after (.restoreDefaults p 0) s).reg 0x20F8 (0x01 + pathNo p) = 0x06090030 ∧
    s.errorHistory = [1] ∧ (after (.errorHistoryClear p 0) s).errorHistory = [] :=
  ⟨{ dev [] with errorHistory := [1] }, .canA, canon_of_ok (by decide +kernel), by decide +kernel⟩

theorem witness_SnapshotsAndDomainWindow : ∃ (s : State) (p : Path), s.Canonical ∧ s.serves p = true ∧
    s.readCode 0x20F0 0 true = 0 ∧ p ≠ .canA ∧ p ≠ .canB ∧ s.standby p = none ∧ s.controllerDown = false ∧
    ((after (.snapshotLatch p 0x20F0) s).dictSnap (pathNo p)).isSome = true ∧
    (after (.snapshotExpire p) (after (.snapshotLatch p 0x20F0) s)).dictSnap (pathNo p) = none ∧
    ((after (.domainSelect p 0x2E2F0500) s).window (pathNo p)).selector = 0x2E2F0500 ∧
    ((after (.apertureWrite p 0x80008 (toBytes 8 15)) s).window (pathNo p)).offset = 8 ∧
    ((after (.domainCommit p 0) s).window (pathNo p)).status = 0 :=
  ⟨dev [], .jtag, canon_of_ok (by decide +kernel), by decide +kernel⟩

/-- An address of 16 bytes staged at both ends of the aperture's first 16 bytes and committed to Ethernet port 15. -/
theorem witness_SnapshotsAndDomainWindow_commit : ∃ (s : State) (e : EthPort), s.Canonical ∧ s.serves .jtag = true ∧
    s.standby .jtag = none ∧ s.controllerDown = false ∧ bits (s.window 4).selector 31 8 ≠ 0x203001 ∧
    ((after (.apertureWrite .jtag 0x90008 (toBytes 8 7)) s).window 4).staging.length = 16 ∧
    (s.window 4).selector = (0x2E20 + e) * 2 ^ 16 + 0x05 * 2 ^ 8 ∧ (s.window 4).staging.length = 16 ∧
    (after (.domainCommit .jtag 16) s).reg (0x2E20 + e) 5 = 0xABCD :=
  ⟨{ dev [] with windows := [(4, { selector := 0x2E2F0500, staging := toBytes 16 0xABCD })] }, 15,
    canon_of_ok (by decide +kernel), by decide +kernel⟩

theorem witness_ErrorRegisterAndLog : ∃ (s : State) (b : Fin 8), s.Canonical ∧ s.booted = true ∧ s.controllerDown = false ∧
    b ≠ 0 ∧ (s.reg 0x1001 0).testBit b = true ∧ (after (.errorRegisterClear b) s).reg 0x1001 0 = 0 ∧
    (after .eventLogFlush s).raised = [] ∧ ((after .eventLogFlush s).log.map (·.seq)) = [1, 0] :=
  ⟨{ dev [(0x1001, 0, 0x81)] with raised := [⟨0, 0xA00F, 6, 0, 0, 0⟩, ⟨0, 0xA00F, 6, 0, 1, 0⟩] }, 7,
    canon_of_ok (by decide +kernel), by decide +kernel⟩

theorem witness_ErrorRegisterAndLog_inhibit : ∃ s : State, s.Canonical ∧ s.emcyBusy = true ∧ s.emcyResetOwed = true ∧
    s.reg 0x1001 0 = 0 ∧ s.canSends = true ∧ s.reg 0x2E30 2 ≠ 2 ∧ s.reg 0x2E30 3 ≠ 2 ∧
    (after .emcyInhibitEnd s).out = [.emcy 0 0 0 0 0 0 0, .emcy 1 0 0 0 0 0 0] :=
  ⟨{ dev [] with emcyBusy := true, emcyResetOwed := true }, canon_of_ok (by decide +kernel), by decide +kernel⟩

/-! ## Contexts and descriptors -/

theorem witness_ContextsOpenAndClose_open : ∃ (s : State) (c : Ctx) (p : Path), s.Canonical ∧ s.serves p = true ∧
    s.controllerDown = false ∧ s.mayOpen c = true ∧ (after (.contextOpen p c) s).reg (0x2700 + c) 1 = 1 :=
  ⟨dev (ctxSet 1), 0, .jtag, canon_of_ok (by decide +kernel), by decide +kernel⟩

theorem witness_ContextsOpenAndClose_close : ∃ (s : State) (c : Ctx) (p : Path), s.Canonical ∧ s.serves p = true ∧
    s.controllerDown = false ∧ s.mayClose c = true ∧ s.entryWaits = [] ∧ s.entryAt 3 = 2 ^ 63 + 40 * 2 ^ 40 ∧
    (after (.contextClose p c) s).reg (0x2700 + c) 1 = 0 ∧ (after (.contextClose p c) s).entryAt 3 = 0 ∧
    (after (.contextClose p c) s).entryWaits = [(.canA, 0, 3, 1)] ∧ (after (.contextClose p c) s).cells = s.cells :=
  ⟨{ dev (ctxOn 1) with fmap := [(3, 2 ^ 63 + 40 * 2 ^ 40)], cells := [(40, { bound := true, ctx := 0, index := 3 })] }, 0,
    .canA, canon_of_ok (by decide +kernel), by decide +kernel⟩

theorem witness_ContextsOpenAndClose_unbound : ∃ (s : State) (c : Ctx) (p : Path), s.Canonical ∧ s.serves p = true ∧
    s.controllerDown = false ∧ s.mayClose c = true ∧ (∀ e ∈ s.ctxEntries c, s.siteOf (fmTile e.2) = none) ∧
    (∀ w ∈ s.entryWaits, ¬(w.1 = p ∧ w.2.1 = c.val)) ∧ .dictDone p 0 0 ∈ (after (.contextClose p c) s).out :=
  ⟨dev (ctxOn 1), 0, .canA, canon_of_ok (by decide +kernel), by decide +kernel⟩

/-- The bound of R256 lies at 2^q = 32 descriptors beyond the fetched count. -/
theorem witness_ContextsOpenAndClose_doorbell : ∃ (s : State) (c : Ctx) (h : HostPort), s.Canonical ∧
    s.serves (hostPath h) = true ∧ s.isActivePort h = true ∧ s.computeReset = false ∧ s.engineUp c = true ∧
    s.ctxRuns c = true ∧ (after (.doorbell h c 0 (toBytes 4 30)) s).reg (0x2700 + c) 9 = 30 ∧
    (after (.doorbell h c 0 (toBytes 4 31)) s).reg (0x2700 + c) 9 = 0 ∧
    (after (.doorbell h c 4095 [0]) s).reg 0x2E10 9 = 1 :=
  ⟨dev (ctxOn 1 ++ [(0x2E10, 6, 0x4010), (0x2700, 6, 2 ^ 32 - 2)]), 0, 0, canon_of_ok (by decide +kernel), by decide +kernel⟩

/-- A device with context 0, whose descriptor 0 is a NOTE with tag 5, posted. -/
def posted : State := stored (dev (ctxOn 1 ++ hbmOn ++ [(0x2700, 9, 1)])) 0x1000 (toBytes 8 (0x0C * 2 ^ 58 + 5))

theorem witness_DescriptorFetchAndCompletion_fetch : ∃ (s : State) (c : Ctx) (p : Nat) (d : ActiveDesc), s.Canonical ∧
    s.ctxRuns c = true ∧ s.engineUp c = true ∧ s.reg (0x2700 + c) 6 = p ∧ s.reg (0x2700 + c) 9 ≠ p ∧
    (s.ctx c).active.length < 8 ∧ s.hbmServes (s.descAddr c p) 64 = true ∧ touchesDump (s.descAddr c p) 64 = false ∧
    s.rangeBad (s.descAddr c p) 64 = false ∧ (s.ctx c).active = [] ∧
    d = { num := p, words := (List.range 8).map fun i => s.load (s.descAddr c p + 8 * i) 8 } ∧ dMalformed d = false ∧
    ((after (.descriptorFetch c false) s).ctx c).active = [d] ∧ dOp d = 0x0C :=
  ⟨posted, 0, 0, { num := 0, words := [0x0C * 2 ^ 58 + 5, 0, 0, 0, 0, 0, 0, 0] }, canon_of_ok (by decide +kernel), by decide +kernel⟩

theorem witness_DescriptorFetchAndCompletion_record : ∃ (s : State) (c : Ctx) (p : Nat) (d : ActiveDesc), s.Canonical ∧
    s.ctxRuns c = true ∧ s.engineUp c = true ∧ (s.ctx c).active = [d] ∧ d.num = p ∧ d.status = some 0 ∧
    (s.ctx c).records = [] ∧ s.reg (0x2700 + c) 8 = p ∧ s.recordWritable c p = true ∧ s.recordAddr c p % 16 = 0 ∧
    s.retiredLine (s.recordAddr c p / 64) = false ∧ (after (.descriptorComplete c p false) s).reg (0x2700 + c) 8 = 1 ∧
    (after (.descriptorComplete c p false) s).load (0x2000 + 8) 8 = 5 :=
  ⟨after (.note 0 0) (after (.descriptorFetch 0 false) posted), 0, 0,
    { num := 0, words := [0x0C * 2 ^ 58 + 5, 0, 0, 0, 0, 0, 0, 0], started := true, status := some 0 },
    canon_of_ok (by decide +kernel), by decide +kernel⟩

/-- Context 0 with the one active descriptor of words `ws`; handle 0 resolves to site 0, and handle 1 is unmapped. -/
def active (ws : List Nat) : State :=
  { dev (ctxOn 1 ++ hbmOn) with ctxs := [(0, { active := [{ num := 3, words := ws }] })], fmap := [(0, 2 ^ 63)] }

theorem startable {s : State} {c p op : Nat} {d : ActiveDesc} (h : s.ctxRuns c = true ∧ s.engineUp c = true ∧
    (s.ctx c).active = [d] ∧ d.num = p ∧ dOp d = op ∧ d.started = false ∧ d.status = none ∧ dMalformed d = false) :
    s.Startable c p op [] d :=
  ⟨h.1, h.2.1, h.2.2.1, h.2.2.2.1, h.2.2.2.2.1, ⟨h.2.2.2.2.2.1, h.2.2.2.2.2.2.1⟩, h.2.2.2.2.2.2.2, by simp, by simp⟩

theorem witness_SignallingDescriptorsStart_note : ∃ (s : State) (d : ActiveDesc), s.Canonical ∧
    s.Startable 0 3 0x0C [] d ∧ ((after (.note 0 3) s).ctx 0).active.map (·.status) = [some 0] :=
  ⟨active [0x0C * 2 ^ 58], ⟨3, [0x0C * 2 ^ 58], false, 0, none, false⟩, canon_of_ok (by decide +kernel),
    startable (by decide +kernel), by decide +kernel⟩

theorem witness_SignallingDescriptorsStart_flag : ∃ (s : State) (d : ActiveDesc), s.Canonical ∧ s.Startable 0 3 0x05 [] d ∧
    s.resolve 0 (bits (dWord d 1) 15 0) = .cell 0 ∧ ((after (.setFlag 0 3) s).issue.map (·.packet.typ)) = [1] :=
  ⟨active [0x05 * 2 ^ 58], ⟨3, [0x05 * 2 ^ 58], false, 0, none, false⟩, canon_of_ok (by decide +kernel),
    startable (by decide +kernel), by decide +kernel⟩

theorem witness_SignallingDescriptorsStart_unmapped : ∃ (s : State) (d : ActiveDesc), s.Canonical ∧ s.Startable 0 3 0x05 [] d ∧
    s.resolve 0 (bits (dWord d 1) 15 0) = .unmapped ∧ (after (.setFlag 0 3) s).reg 0x2800 4 = 1 :=
  ⟨active [0x05 * 2 ^ 58, 0x10], ⟨3, [0x05 * 2 ^ 58, 0x10], false, 0, none, false⟩, canon_of_ok (by decide +kernel),
    startable (by decide +kernel), by decide +kernel⟩

theorem witness_SignallingDescriptorsStart_clear : ∃ (s : State) (d : ActiveDesc), s.Canonical ∧ s.Startable 0 3 0x06 [] d ∧
    s.resolve 0 (bits (dWord d 1) 15 0) = .cell 0 ∧ ((after (.clearFlag 0 3) s).issue.map (·.packet.typ)) = [2] :=
  ⟨active [0x06 * 2 ^ 58], ⟨3, [0x06 * 2 ^ 58], false, 0, none, false⟩, canon_of_ok (by decide +kernel),
    startable (by decide +kernel), by decide +kernel⟩

theorem witness_SignallingDescriptorsStart_wait : ∃ (s : State) (d : ActiveDesc), s.Canonical ∧ s.Startable 0 3 0x07 [] d ∧
    s.resolve 0 (bits (dWord d 1) 15 0) = .cell 0 ∧
    ((after (.waitFlag 0 3) s).issue.map fun r => (r.packet.typ, r.packet.operand)) = [(3, 5 * 2 ^ 32)] :=
  ⟨active [0x07 * 2 ^ 58, 5 * 2 ^ 32], ⟨3, [0x07 * 2 ^ 58, 5 * 2 ^ 32], false, 0, none, false⟩,
    canon_of_ok (by decide +kernel), startable (by decide +kernel), by decide +kernel⟩

theorem witness_SignallingDescriptorsStart_order : ∃ (s : State) (d : ActiveDesc), s.Canonical ∧ s.Startable 0 3 0x0B [] d ∧
    (s.ctx 0).flagOps = [] ∧ (s.ctx 0).ringPosts = [] ∧ ((after (.fenceOrder 0 3) s).ctx 0).active.map (·.status) = [some 0] :=
  ⟨active [0x0B * 2 ^ 58], ⟨3, [0x0B * 2 ^ 58], false, 0, none, false⟩, canon_of_ok (by decide +kernel),
    startable (by decide +kernel), by decide +kernel⟩

/-! ## Flags -/

/-- Context 0 runs; cell 31 of logical tile 0 is bound to it under index 5, and `p` is delivered. -/
def flagState (p : Packet) (ws : List Waiter) : State :=
  { dev (ctxOn 1) with cells := [(31, { bound := true, ctx := 0, index := 5 })], delivered := [p], fmap := [(5, 2 ^ 63 + 31 * 2 ^ 40)], waiters := if ws = [] then [] else [(0, ws)] }

/-- A flag packet of context 0 from site 1 to site 0. -/
def flag (typ operand : Nat) : Packet := { dst := 0, src := 1, ctx := 0, cls := 0, typ := typ, len := 0, operand := operand }

theorem witness_MonitorsApplySetAndClear : ∃ (s : State) (p : Packet), s.Canonical ∧ s.isNext p = true ∧
    s.tileOf p.dst = some 0 ∧ s.findCell 0 p.ctx (bits p.operand 15 0) = some 31 ∧ s.waitersAt 0 = [] ∧ p.typ = 0x01 ∧
    ((after (.flagSet p) s).cellAt 31).value = true ∧ ((after (.flagSet p) s).cellAt 31).lastEp = 1 ∧
    (after (.flagSet p) s).reg 0x3000 0x90 = 1 :=
  ⟨flagState (flag 1 5) [], flag 1 5, canon_of_ok (by decide +kernel), by decide +kernel⟩

theorem witness_MonitorsApplySetAndClear_clear : ∃ (s : State) (p : Packet), s.Canonical ∧ s.isNext p = true ∧
    s.tileOf p.dst = some 0 ∧ s.findCell 0 p.ctx (bits p.operand 15 0) = some 31 ∧ s.waitersAt 0 = [] ∧ p.typ = 0x02 ∧
    p.operand.testBit 16 = false ∧ ((after (.flagClear p) s).cellAt 31).value = false ∧
    ((after (.flagClear p) s).cellAt 31).lastEp = 1 :=
  ⟨flagState (flag 2 5) [], flag 2 5, canon_of_ok (by decide +kernel), by decide +kernel⟩

theorem witness_MonitorsApplySetAndClear_waiter : ∃ (s : State) (p : Packet) (w : Waiter), s.Canonical ∧
    s.isNext p = true ∧ s.tileOf p.dst = some 0 ∧ s.findCell 0 p.ctx (bits p.operand 15 0) = some 31 ∧
    s.waitersAt 0 = [w] ∧ w.ctx = p.ctx ∧ w.handle = bits p.operand 15 0 ∧ w.mask = 0 ∧ w.ep ≠ p.dst ∧ p.typ = 0x01 ∧
    (after (.flagSet p) s).waitersAt 0 = [] ∧ (after (.flagSet p) s).issue.map (·.packet) = [flagPacket 0x04 0 0 9 5] :=
  ⟨flagState (flag 1 5) [⟨9, 0, 5, 0⟩], flag 1 5, ⟨9, 0, 5, 0⟩, canon_of_ok (by decide +kernel), by decide +kernel⟩

theorem witness_MonitorsApplySetAndClear_rebind : ∃ (s : State) (p : Packet), s.Canonical ∧ s.isNext p = true ∧
    s.tileOf p.dst = some 0 ∧ p.typ = 0x02 ∧ p.operand.testBit 16 = true ∧
    s.entryAt (p.ctx * 4096 + bits p.operand 11 0) = 2 ^ 63 + 31 * 2 ^ 40 ∧ fmValid (2 ^ 63 + 31 * 2 ^ 40) = true ∧
    fmTile (2 ^ 63 + 31 * 2 ^ 40) = 0 ∧ s.entryWaits = [] ∧ ((after (.rebind p) s).cellAt 31).bound = true ∧
    ((after (.rebind p) s).cellAt 31).lastEp = 1 :=
  ⟨flagState (flag 2 (5 + 2 ^ 16)) [], flag 2 (5 + 2 ^ 16), canon_of_ok (by decide +kernel), by decide +kernel⟩

theorem witness_WaitsRegisterAndWake_wait : ∃ (s : State) (p : Packet), s.Canonical ∧ s.isNext p = true ∧
    p.typ = 0x03 ∧ s.tileOf p.dst = some 0 ∧ p.src ≠ p.dst ∧ s.findCell 0 p.ctx (bits p.operand 15 0) = some 31 ∧
    s.waitBound 0 p.ctx (bits p.operand 15 0) 31 (bits p.operand 63 32) = true ∧
    s.waitHolds 0 31 (bits p.operand 63 32) = false ∧ (s.waitersAt 0).length = 7 ∧
    ((after (.flagWait p) s).waitersAt 0).length = 8 :=
  ⟨flagState (flag 3 5) (List.replicate 7 ⟨9, 0, 5, 0⟩), flag 3 5, canon_of_ok (by decide +kernel), by decide +kernel⟩

theorem witness_WaitsRegisterAndWake_holds : ∃ (s : State) (p : Packet), s.Canonical ∧ s.isNext p = true ∧
    p.typ = 0x03 ∧ s.tileOf p.dst = some 0 ∧ p.src ≠ p.dst ∧ s.findCell 0 p.ctx (bits p.operand 15 0) = some 31 ∧
    s.waitBound 0 p.ctx (bits p.operand 15 0) 31 (bits p.operand 63 32) = true ∧
    s.waitHolds 0 31 (bits p.operand 63 32) = true ∧
    (after (.flagWait p) s).issue.map (·.packet) = [flagPacket 0x04 0 0 1 5] :=
  ⟨{ flagState (flag 3 5) [] with cells := [(31, { bound := true, ctx := 0, index := 5, value := true })] }, flag 3 5,
    canon_of_ok (by decide +kernel), by decide +kernel⟩

theorem witness_WaitsRegisterAndWake_stale : ∃ (s : State) (p : Packet), s.Canonical ∧ s.isNext p = true ∧
    p.typ = 0x03 ∧ s.tileOf p.dst = some 0 ∧ p.src ≠ p.dst ∧ s.findCell 0 p.ctx (bits p.operand 15 0) = none ∧
    (after (.flagWait p) s).issue.map (·.packet) = [flagPacket 0x04 0 0 1 (6 + 2 ^ 18)] ∧
    (after (.flagWait p) s).reg 0x3000 0x91 = 1 :=
  ⟨flagState (flag 3 6) [], flag 3 6, canon_of_ok (by decide +kernel), by decide +kernel⟩

theorem witness_WaitsRegisterAndWake_wake : ∃ (s : State) (p : Packet) (d : ActiveDesc), s.Canonical ∧
    s.isNext p = true ∧ p.typ = 0x04 ∧ 0xD80 ≤ p.dst ∧ p.operand.testBit 17 = false ∧
    p.operand.testBit 18 = false ∧ s.waitDesc p.ctx (bits p.operand 15 0) = some d ∧
    ((after (.flagWake p {}) s).ctx 0).active.map (·.status) = [some 0] :=
  ⟨{ active [7 * 2 ^ 58, 5] with
      ctxs := [(0, { active := [⟨3, [7 * 2 ^ 58, 5], true, 0, none, false⟩] })], delivered := [{ flag 4 5 with dst := 0xD80 }] },
    { flag 4 5 with dst := 0xD80 }, ⟨3, [7 * 2 ^ 58, 5], true, 0, none, false⟩, canon_of_ok (by decide +kernel), by decide +kernel⟩

theorem witness_WaitsRegisterAndWake_retry : ∃ (s : State) (d : ActiveDesc), s.Canonical ∧ (s.ctx 0).active = [d] ∧
    d.retry = true ∧ bits (dWord d 1) 15 0 = 0 ∧ s.resolve 0 0 = .cell 0 ∧ (∀ e ∈ s.ringsOn, e.2.busy = none) ∧
    ((after (.waitRetry 0 0 {}) s).ctx 0).active.map (·.retry) = [false] ∧ (after (.waitRetry 0 0 {}) s).issue.length = 1 :=
  ⟨{ active [] with ctxs := [(0, { active := [⟨3, [7 * 2 ^ 58], true, 0, none, true⟩] })] },
    ⟨3, [7 * 2 ^ 58], true, 0, none, true⟩, canon_of_ok (by decide +kernel), by decide +kernel⟩

/-- Entry 7 moves from unbound to cell 31 of logical tile 0, then to be invalid. -/
theorem witness_FlagMapWrites_entry : ∃ (s : State) (p : Path) (c : Ctx) (w i : Nat), s.Canonical ∧ s.serves p = true ∧
    s.controllerDown = false ∧ s.selectorAt (pathNo p * 2 ^ 32 + rk (0x2840 + c) 0x02) = i ∧ i = 4095 ∧
    w ≠ s.entryAt (c * 4096 + i) ∧ fmReserved w = false ∧ s.entryRefused c i w = false ∧
    s.rebindSites (s.entryAt (c * 4096 + i)) w = [0] ∧ (after (.flagMapEntryWrite p c w) s).entryAt (c * 4096 + i) = w ∧
    (after (.flagMapEntryWrite p c w) s).entryWaits = [(p, 0, 4095, 1)] :=
  ⟨{ dev (ctxOn 1) with selectors := [(rk 0x2840 0x02 + 4 * 2 ^ 32, 4095)] }, .jtag, 0, 2 ^ 63 + 31 * 2 ^ 40, 4095,
    canon_of_ok (by decide +kernel), by decide +kernel⟩

theorem ofBytes_zeros (n : Nat) : ofBytes (List.replicate n (0 : Byte)) = 0 := by
  induction n with
  | zero => rfl
  | succ n ih => rw [List.replicate_succ, ofBytes, ih]; rfl

theorem imageEntry_zeros (n i : Nat) : imageEntry (List.replicate n (0 : Byte)) i = 0 := by
  rw [imageEntry, List.drop_replicate, List.take_replicate, ofBytes_zeros]

theorem witness_FlagMapWrites_domain : ∃ (s : State) (p : Path) (c : Ctx) (bytes : List Byte), s.Canonical ∧ s.serves p = true ∧
    s.controllerDown = false ∧ bytes.length = 32768 ∧ s.entryAt (c * 4096 + 5) ≠ imageEntry bytes 5 ∧
    ∀ i, i < 4096 → imageEntry bytes i = s.entryAt (c * 4096 + i) ∨ (fmReserved (imageEntry bytes i) = false ∧
      fmValid (imageEntry bytes i) = false ∧ (fmValid (s.entryAt (c * 4096 + i)) = true →
        s.cellWaited (fmKey (s.entryAt (c * 4096 + i))) = false)) := by
  refine ⟨flagState (flag 1 5) [], .jtag, 0, List.replicate 32768 0, canon_of_ok (by decide +kernel), by decide +kernel,
    by decide +kernel, List.length_replicate, by rw [imageEntry_zeros]; decide +kernel, fun i _ => ?_⟩
  rw [imageEntry_zeros]
  refine Or.inr ⟨by decide +kernel, by decide +kernel, fun _ => ?_⟩
  simp only [State.cellWaited, State.waitersAt, flagState, if_true]
  rfl

theorem witness_WaitIdleCounts : ∃ (s : State) (n : Site) (beats : Nat), s.Canonical ∧ s.reg 0x2800 0x02 = 1 ∧
    s.reg 0x2800 0x01 = beats ∧ s.idleAt n = 0 ∧ s.idleCase n = true ∧
    (after (.waitIdleEnter n beats) s).idleAt n = 1 ∧ (after (.waitIdleEnter n beats) s).reg (0x3000 + n) 0x92 = 1 :=
  ⟨{ dev (ctxOn 1) with running := [(3, some ⟨0, 0, true⟩)] }, 3, 20000, canon_of_ok (by decide +kernel), by decide +kernel⟩

theorem witness_WaitIdleCounts_exit : ∃ (s : State) (n : Site), s.Canonical ∧ s.idleAt n ≠ 0 ∧ s.idleCase n = false ∧
    s.reg 0x2210 0x03 ≠ 0 ∧ (after (.waitIdleExit n 9) s).idleAt n = 0 ∧ (after (.waitIdleExit n 9) s).offerHeld n = true ∧
    (after (.waitIdleExit n 9) s).reg (0x3000 + n) 0x93 = 9 :=
  ⟨{ dev [] with idle := [(3, 1)] }, 3, canon_of_ok (by decide +kernel), by decide +kernel⟩

/-! ## Rings -/

/-- The descriptor of an enabled ring of context 0: its kind, size exponent, base word, partner and status slot. -/
def ringDesc (kind exp base partner status : Nat) : Nat :=
  2 ^ 63 + kind * 2 ^ 61 + exp * 2 ^ 50 + base * 2 ^ 31 + partner * 2 ^ 17 + status * 2

/-- Context 0 runs, and path jtag has selected ring 15 of S-tile 0. -/
def ringState (x : Ring) : State :=
  { dev (ctxOn 1) with selectors := [(rk 0x2900 0x01 + 4 * 2 ^ 32, 15)], rings := if x = {} then [] else [(15, x)] }

theorem witness_RingDescriptorsAndCredits_enable : ∃ (s : State) (v r : Nat), s.Canonical ∧ s.serves .jtag = true ∧
    s.selectedRing .jtag = r ∧ (ringCommand .jtag v).code s 0x2900 0x02 = 0 ∧ rdEnabled (s.ring r).desc = false ∧
    rdEnabled (v - v % 2) = true ∧ isChannel (v - v % 2) = false ∧
    ((after (.ringDescriptorWrite .jtag v) s).ring r).desc = v - 1 ∧ ((after (.ringDescriptorWrite .jtag v) s).ring r).messages = 3 ∧
    s.slotTag 0 1 = 1 ∧ (after (.ringDescriptorWrite .jtag v) s).slotTag 0 1 = 0 :=
  ⟨{ ringState { messages := 3 } with tags := [(1, 1)] }, ringDesc 0 4 0 0 100 + 1, 15, canon_of_ok (by decide +kernel), by decide +kernel⟩

theorem witness_RingDescriptorsAndCredits_disable : ∃ (s : State) (v r : Nat), s.Canonical ∧ s.serves .jtag = true ∧
    s.selectedRing .jtag = r ∧ (ringCommand .jtag v).code s 0x2900 0x02 = 0 ∧ rdEnabled (s.ring r).desc = true ∧
    ((after (.ringDescriptorWrite .jtag v) s).ring r).desc = v ∧ ((after (.ringDescriptorWrite .jtag v) s).ring r).credits = 0 :=
  ⟨ringState { desc := ringDesc 1 4 0 16 100, credits := 3 }, ringDesc 1 4 0 16 100 - 2 ^ 63, 15,
    canon_of_ok (by decide +kernel), by decide +kernel⟩

theorem witness_RingDescriptorsAndCredits_credits : ∃ (s : State) (p : Packet) (r : Nat), s.Canonical ∧
    s.isNext p = true ∧ p.typ = 0x11 ∧ bits p.operand 13 0 = r ∧ rdEnabled (s.ring r).desc = true ∧
    rdKind (s.ring r).desc = 1 ∧ rdCtx (s.ring r).desc = p.ctx ∧ (s.sSite (ringTile r)).isSome = true ∧ ((after (.creditReturn p) s).ring r).credits = 65535 :=
  ⟨{ ringState { desc := ringDesc 1 4 0 16 100, credits := 65000 } with delivered := [{ flag 0x11 (15 + 600 * 2 ^ 16) with dst := 136 }] },
    { flag 0x11 (15 + 600 * 2 ^ 16) with dst := 136 }, 15, canon_of_ok (by decide +kernel), by decide +kernel⟩

/-- A message of 56 bytes for ring 15, at site 136, from site 137. -/
def ringMessage (typ : Nat) : Packet :=
  { dst := 136, src := 137, ctx := 0, cls := 1, typ := typ, len := 56, operand := 15, payload := List.replicate 56 7 }

/-- The slots that the message fills from the tail on. -/
def tailSlots (s : State) (p : Packet) : List Nat := ringRun (s.ring 15).desc (s.ring 15).tail (messageSlots p.len)

/-- A device where ring 15, of kind `kind`, with `x` besides its descriptor, takes the message of type `typ` from site 137. -/
def takingRing (kind typ : Nat) (x : Ring) : State :=
  { ringState { x with desc := ringDesc kind 4 0 16 100 } with delivered := [ringMessage typ] }

theorem witness_RingsTakeMessages_post : ∃ (s : State) (p : Packet), s.Canonical ∧ tailSlots s p = [3, 0] ∧ p.typ = 0x24 ∧
    s.BringsMessage p 15 0 ∧ (∀ j ∈ tailSlots s p, s.syncReady 0 j .write = true ∧ s.isWide p.dst (8 * j) = true) ∧
    64 * messageSlots p.len ≤ ringFree (s.ring 15) ∧ slotInRing (s.ring 15).desc (rdStatus (s.ring 15).desc) = false ∧
    ((after (.ringPost p {}) s).ring 15).tail = 64 ∧ (after (.ringPost p {}) s).slotTag 0 3 = 1 ∧
    (after (.ringPost p {}) s).slotTag 0 0 = 1 ∧
    (after (.ringPost p {}) s).load (wordAddr 0 24) 8 = messageHeader 137 0 0 64 :=
  ⟨{ ringState { desc := ringDesc 0 5 0 0 100, head := 192, tail := 192 } with
      delivered := [{ ringMessage 0x24 with len := 64, payload := List.replicate 64 7 }] },
    { ringMessage 0x24 with len := 64, payload := List.replicate 64 7 }, canon_of_ok (by decide +kernel), by decide +kernel,
    by decide +kernel, ⟨by decide +kernel, by decide +kernel, ⟨128, by decide +kernel⟩, by decide +kernel, by decide +kernel,
      by decide +kernel, by decide +kernel⟩, by decide +kernel⟩

theorem witness_RingsTakeMessages_channel : ∃ (s : State) (p : Packet), s.Canonical ∧ tailSlots s p = [0] ∧ p.typ = 0x10 ∧
    s.BringsMessage p 15 2 ∧ (∀ j ∈ tailSlots s p, s.syncReady 0 j .write = true ∧ s.isWide p.dst (8 * j) = true) ∧
    64 * messageSlots p.len ≤ ringFree (s.ring 15) ∧ slotInRing (s.ring 15).desc (rdStatus (s.ring 15).desc) = false ∧
    ((after (.channelMessage p {}) s).ring 15).placed = 0 ∧ (after (.channelMessage p {}) s).slotTag 0 0 = 1 :=
  ⟨takingRing 2 0x10 { placed := 2 ^ 24 - 1 }, ringMessage 0x10, canon_of_ok (by decide +kernel), by decide +kernel,
    by decide +kernel, ⟨by decide +kernel, by decide +kernel, ⟨128, by decide +kernel⟩, by decide +kernel, by decide +kernel,
      by decide +kernel, by decide +kernel⟩, by decide +kernel⟩

/-- Group 0 of the S-tile belongs to narrow port 0, so the message's first slot is written in passage. -/
theorem witness_RingsTakeMessages_narrow : ∀ kt ∈ [(0, 0x24), (2, 0x10)], ∃ (s : State) (p : Packet), s.Canonical ∧
    tailSlots s p = [0] ∧ p.typ = kt.2 ∧ s.BringsMessage p 15 kt.1 ∧ s.syncReady 0 0 .write = true ∧
    64 ≤ ringFree (s.ring 15) ∧ s.isWide p.dst 0 = false ∧
    (after (if p.typ = 0x10 then .channelMessage p {} else .ringPost p {}) s).slotTag 0 0 = 3 := by
  have h (kt : Nat × Nat) (hk : kt = (0, 0x24) ∨ kt = (2, 0x10)) :
      (State.withRegs (takingRing kt.1 kt.2 {}) [(0x3088, 0x50, 1)]).BringsMessage (ringMessage kt.2) 15 kt.1 := by
    rcases hk with rfl | rfl <;> exact ⟨by decide +kernel, by decide +kernel, ⟨128, by decide +kernel⟩, by decide +kernel,
      by decide +kernel, by decide +kernel, by decide +kernel⟩
  intro kt hk
  refine ⟨State.withRegs (takingRing kt.1 kt.2 {}) [(0x3088, 0x50, 1)], ringMessage kt.2, ?_⟩
  rcases List.mem_pair.1 hk with rfl | rfl
  · exact ⟨canon_of_ok (by decide +kernel), by decide +kernel, rfl, h _ (.inl rfl), by decide +kernel⟩
  · exact ⟨canon_of_ok (by decide +kernel), by decide +kernel, rfl, h _ (.inr rfl), by decide +kernel⟩

/-- Slot 0 is still full, so the message's first write blocks. -/
theorem witness_RingsTakeMessages_blocked : ∀ kt ∈ [(0, 0x24), (2, 0x10)], ∃ (s : State) (p : Packet), s.Canonical ∧
    tailSlots s p = [0] ∧ p.typ = kt.2 ∧ s.BringsMessage p 15 kt.1 ∧ s.syncReady 0 0 .write = false ∧
    ((after (if p.typ = 0x10 then .channelMessage p {} else .ringPost p {}) s).stile 0).blocked.map (·.slot) = [0] := by
  have h (kt : Nat × Nat) (hk : kt = (0, 0x24) ∨ kt = (2, 0x10)) :
      ({ takingRing kt.1 kt.2 {} with tags := [(0, 1)] } : State).BringsMessage (ringMessage kt.2) 15 kt.1 := by
    rcases hk with rfl | rfl <;> exact ⟨by decide +kernel, by decide +kernel, ⟨128, by decide +kernel⟩, by decide +kernel,
      by decide +kernel, by decide +kernel, by decide +kernel⟩
  intro kt hk
  refine ⟨{ takingRing kt.1 kt.2 {} with tags := [(0, 1)] }, ringMessage kt.2, ?_⟩
  rcases List.mem_pair.1 hk with rfl | rfl
  · exact ⟨canon_of_ok (by decide +kernel), by decide +kernel, rfl, h _ (.inl rfl), by decide +kernel⟩
  · exact ⟨canon_of_ok (by decide +kernel), by decide +kernel, rfl, h _ (.inr rfl), by decide +kernel⟩

/-- The ring is full, so the message's first write blocks although its slot is empty. -/
theorem witness_RingsTakeMessages_full : ∃ (s : State) (p : Packet), s.Canonical ∧ tailSlots s p = [0] ∧ p.typ = 0x24 ∧ s.BringsMessage p 15 0 ∧
    s.syncReady 0 0 .write = true ∧ ringFree (s.ring 15) < 64 ∧ ((after (.ringPost p {}) s).stile 0).blocked.map (·.slot) = [0] ∧
    (after (.ringPost p {}) s).delivered = [] :=
  ⟨takingRing 0 0x24 { head := 64 }, ringMessage 0x24, canon_of_ok (by decide +kernel), by decide +kernel, rfl,
    ⟨by decide +kernel, by decide +kernel, ⟨128, by decide +kernel⟩, by decide +kernel, by decide +kernel, by decide +kernel, by decide +kernel⟩, by decide +kernel⟩

/-- Ring 15 of S-tile 0 with descriptor `d`, at whose head stands a message of header `w` and first word `p`. -/
def headState (d w p : Nat) : State :=
  stored (stored { ringState { desc := d, credits := 1 } with tags := [(0, 1)], fmap := [(5, 2 ^ 63)] } (wordAddr 0 0) (toBytes 8 w))
    (wordAddr 0 1) (toBytes 8 p)

/-- What the statement on signal and send rings asks of ring 15's head, with header `w`. -/
def headReady (s : State) (w : Nat) : Bool :=
  s.sSite (ringTile 15) == some 136 && s.headHeader 15 == some w && s.ringEngineFree 0 && s.ctxRuns (rdCtx (s.ring 15).desc)
    && s.headComplete 15 (headerLength w) && !s.headPoisoned 15 (headerLength w)
    && (s.headRun 15 (headerLength w)).all fun k => s.isWide 136 (8 * k) && (s.tileRings 0).all fun x => x.1 == 15 || !slotInRing x.2.desc k

theorem witness_SignalAndSendRingsAct_set : ∃ (s : State) (w : Nat), s.Canonical ∧ headReady s w = true ∧
    rdKind (s.ring 15).desc = 3 ∧ (s.ring 15).gate = none ∧ signalLength (headerType w) = some (headerLength w) ∧
    s.resolve (rdCtx (s.ring 15).desc) (ofBytes ((s.headPayload 15 (headerLength w)).take 2)) = .cell 0 ∧
    headerType w = 0x01 ∧ (after (.signalRingSet 15 {}) s).issue.map (·.packet) = [flagPacket 0x01 0 136 0 5] ∧
    ((after (.signalRingSet 15 {}) s).ring 15).head = 64 :=
  ⟨headState (ringDesc 3 4 0 0 100) (2 ^ 32 + 2) 5, 2 ^ 32 + 2, canon_of_ok (by decide +kernel), by decide +kernel⟩

theorem witness_SignalAndSendRingsAct_clear : ∃ (s : State) (w : Nat), s.Canonical ∧ headReady s w = true ∧
    rdKind (s.ring 15).desc = 3 ∧ (s.ring 15).gate = none ∧ signalLength (headerType w) = some (headerLength w) ∧
    s.resolve (rdCtx (s.ring 15).desc) (ofBytes ((s.headPayload 15 (headerLength w)).take 2)) = .cell 0 ∧
    headerType w = 0x02 ∧ (after (.signalRingClear 15 {}) s).issue.map (·.packet) = [flagPacket 0x02 0 136 0 5] :=
  ⟨headState (ringDesc 3 4 0 0 100) (2 * 2 ^ 32 + 2) 5, 2 * 2 ^ 32 + 2, canon_of_ok (by decide +kernel), by decide +kernel⟩

theorem witness_SignalAndSendRingsAct_wait : ∃ (s : State) (w : Nat), s.Canonical ∧ headReady s w = true ∧
    rdKind (s.ring 15).desc = 3 ∧ (s.ring 15).gate = none ∧ signalLength (headerType w) = some (headerLength w) ∧
    s.resolve (rdCtx (s.ring 15).desc) (ofBytes ((s.headPayload 15 (headerLength w)).take 2)) = .cell 0 ∧
    headerType w = 0x03 ∧ ((after (.signalRingWait 15 {}) s).ring 15).gate = some (200, 5) ∧
    ((after (.signalRingWait 15 {}) s).ring 15).busy = some (6, 0) :=
  ⟨headState (ringDesc 3 4 0 0 100) (3 * 2 ^ 32 + 8) (5 + 200 * 2 ^ 16 + 6 * 2 ^ 32), 3 * 2 ^ 32 + 8,
    canon_of_ok (by decide +kernel), by decide +kernel⟩

theorem witness_SignalAndSendRingsAct_ship : ∃ (s : State) (w : Nat), s.Canonical ∧ headReady s w = true ∧
    rdKind (s.ring 15).desc = 1 ∧ headerLength w ≠ 0 ∧ headerLength w + 72 = rdSize (s.ring 15).desc ∧ headerLength w ≤ 1024 ∧
    s.sSite (ringTile (rdPartner (s.ring 15).desc)) = some 137 ∧ rdEnabled (s.ring (rdPartner (s.ring 15).desc)).desc = false ∧
    messageSlots (headerLength w) = (s.ring 15).credits ∧ ((after (.channelShip 15 0 {}) s).ring 15).credits = 0 ∧
    (after (.channelShip 15 0 {}) s).issue.map (fun q => (q.packet.dst, q.packet.typ, q.packet.operand, q.packet.len)) =
      [(137, 0x10, 16 + 9 * 2 ^ 16, 56)] :=
  ⟨headState (ringDesc 1 4 0 16 100) (9 * 2 ^ 32 + 56) 5, 9 * 2 ^ 32 + 56, canon_of_ok (by decide +kernel), by decide +kernel⟩

/-! ## Resets -/

theorem witness_ResetsStart_commands : ∃ (s : State) (p : Path), s.Canonical ∧ s.quiet ∧
    s.ctxs.all (fun e => !e.2.resetWaiting) = true ∧ s.serves p = true ∧ s.controllerDown = false ∧ s.resetFits 5 = true ∧
    s.ready = true ∧ s.runningAt 3 = some ⟨0, 0, false⟩ ∧ (after (.resetCold p) s).reset_ = some { width := 6, cause := 1 } ∧
    (after (.resetCold p) s).runningAt 3 = none :=
  ⟨{ dev (ctxOn 1) with running := [(3, some ⟨0, 0, false⟩)] }, .canB, canon_of_ok (by decide +kernel), ⟨rfl, rfl, rfl, rfl⟩,
    by decide +kernel⟩

theorem witness_ResetsStart_supply : ∃ s : State, s.Canonical ∧ s.quiet ∧ s.ctxs.all (fun e => !e.2.resetWaiting) = true ∧
    s.auxOk = false ∧ (after .auxSupplyRise s).auxOk = true ∧ (after .auxSupplyRise s).reset_ = some { width := 6, cause := 0 } :=
  ⟨{ State.reset with auxOk := false, reset_ := none }, canon_of_ok (by decide +kernel), ⟨rfl, rfl, rfl, rfl⟩, by decide +kernel⟩

theorem witness_ResetsStart_pin : ∃ s : State, s.Canonical ∧ s.quiet ∧ s.ctxs.all (fun e => !e.2.resetWaiting) = true ∧
    s.auxOk = true ∧ s.booted = true ∧ s.resetFits 5 = true ∧ (after (.hresetNLow 99) s).hresetLow = false ∧
    (after .hresetNRise { s with hresetLow := true }).hresetLow = false :=
  ⟨dev [], canon_of_ok (by decide +kernel), ⟨rfl, rfl, rfl, rfl⟩, by decide +kernel⟩

theorem witness_ResetsEnd_compute : ∃ (s : State) (r : ResetRun), s.Canonical ∧ s.controllerDown = false ∧
    s.reset_ = some r ∧ r.width = 4 ∧ s.microcodeThere = true ∧ r.retrain = true ∧ s.romTable = false ∧ s.reg 0x411F 0x01 = 3 ∧
    (after (.computeResetComplete 5) s).reg 0x411F 0x01 = 1 ∧
    (after (.computeResetComplete 5) s).reg 0x411F 0x02 = s.reg 0x2D00 0x01 ∧ (s.lintel 127).closed = true ∧
    ((after (.computeResetComplete 5) s).lintel 127).closed = false :=
  ⟨{ dev [(0x411F, 1, 3)] with reset_ := some { width := 4, cause := 1, retrain := true }, lintels := [(127, { closed := true })] }, { width := 4, cause := 1, retrain := true },
    canon_of_ok (by decide +kernel), by decide +kernel⟩

theorem witness_ResetsEnd_partition : ∃ (s : State) (mask structure_ : Nat), s.Canonical ∧ s.controllerDown = false ∧
    mask < 256 ∧ structure_ < 8 ∧ s.partResets = [partResetKey mask structure_ false] ∧
    (after (.partitionResetComplete 5) s).partResets = [] ∧ (after (.partitionResetComplete 5) s).reg 0x2A10 0x01 = 0 :=
  ⟨{ dev [(0x2A10, 1, 2 ^ 32 - 1)] with partResets := [partResetKey 0xFF 3 false] }, 0xFF, 3,
    canon_of_ok (by decide +kernel), by decide +kernel⟩

theorem witness_ResetsEnd_context : ∃ (s : State) (c : Ctx), s.Canonical ∧ s.controllerDown = false ∧ s.fence = none ∧
    (s.ctx c).resetWaiting = true ∧ s.ctxState c = 2 ∧ (after (.contextResetWaitEnd c) s).ctxState c = 0 ∧
    s.entryAt (63 * 4096 + 4095) = 1 ∧ (after (.contextResetWaitEnd c) s).entryAt (63 * 4096 + 4095) = 0 :=
  ⟨{ dev [(0x273F, 1, 2)] with ctxs := [(63, { resetWaiting := true })], fmap := [(63 * 4096 + 4095, 1)] }, 63,
    canon_of_ok (by decide +kernel), by decide +kernel⟩

theorem witness_ContextAndTileResets_context : ∃ (s : State) (p : Path) (c : Ctx), s.Canonical ∧ s.quiet ∧
    s.ctxs.all (fun e => !e.2.resetWaiting) = true ∧ s.serves p = true ∧ s.controllerDown = false ∧ s.ctxState c ≠ 0 ∧
    s.reg (0x2700 + c) 0x0A = 0 ∧ (after (.contextReset p c) s).ctxState c = 0 ∧ (after (.contextReset p c) s).reg 0x2F10 0x04 = 2 :=
  ⟨dev [(0x273F, 1, 2)], .jtag, 63, canon_of_ok (by decide +kernel), ⟨rfl, rfl, rfl, rfl⟩, by decide +kernel⟩

theorem witness_ContextAndTileResets_tile : ∃ (s : State) (p : Path) (n : Site), s.Canonical ∧ s.quiet ∧
    s.ctxs.all (fun e => !e.2.resetWaiting) = true ∧ s.serves p = true ∧ s.controllerDown = false ∧ s.isFenced n = false ∧
    s.accAt (3 * 16384 + 16383) ≠ {} ∧ (after (.tileReset p n) s).accAt (3 * 16384 + 16383) = {} ∧
    (after (.tileReset p n) s).reg 0x2F10 0x04 = 1 :=
  ⟨{ dev [] with acc := [(3 * 16384 + 16383, { val := 1 })] }, .jtag, 3, canon_of_ok (by decide +kernel), ⟨rfl, rfl, rfl, rfl⟩,
    by decide +kernel⟩

theorem witness_StructureErrorsResetThePartition : ∃ (s : State) (mask : Nat) (r : Region) (h : Fin 13) (n : Site) (c : Ctx),
    s.Canonical ∧ s.quiet ∧ mask ≠ 0 ∧ s.partitionOf r = mask ∧ h.val ≠ 0 ∧ (fieldRegions (h - 1)).contains r.val = true ∧
    s.partitionOf (siteRegion n) = mask ∧ s.partMask c = mask ∧ mask < 256 ∧
    (after (.planSlotError n 3 true) s).slotFixesAt n = 1 ∧
    ∀ r, r < 8 → mask.testBit r = true → s.partitionOf r = mask :=
  ⟨dev (ctxOn 3), 3, 1, 6, 20, 0, canon_of_ok (by decide +kernel), ⟨rfl, rfl, rfl, rfl⟩, by decide +kernel⟩

/-! ## Fences, suspicion, votes, stewards -/

theorem witness_FencesQueueAndRun_request : ∃ (s : State) (p : Path) (n : Site), s.Canonical ∧ s.controllerDown = false ∧
    s.serves p = true ∧ s.isFenced n = false ∧ (∀ g ∈ siteFields n, s.stewardUp g = true) ∧
    (∀ f ∈ s.fences ++ s.heldFences, f.site ≠ n.val) ∧ s.fence = none ∧
    (after (.fenceSite p n) s).fences = [⟨4, 2, none⟩, ⟨5, 1, none⟩, ⟨9, 2, none⟩] :=
  ⟨{ dev [] with fences := [⟨4, 2, none⟩, ⟨9, 2, none⟩] }, .jtag, 5, canon_of_ok (by decide +kernel), by decide +kernel⟩

theorem witness_FencesQueueAndRun_release : ∃ (s : State) (p : Path) (n : Site), s.Canonical ∧ s.controllerDown = false ∧
    s.serves p = true ∧ n.val ∉ s.fuseSites ∧ n.val ∉ s.releases ∧ (∃ h ∈ s.health, h.site = n.val) ∧
    (after (.releaseSite p n) s).releases = [5] :=
  ⟨{ dev [] with health := [⟨5, 1, 0⟩] }, .jtag, 5, canon_of_ok (by decide +kernel), by decide +kernel, by decide +kernel,
    by decide +kernel, by decide +kernel, ⟨⟨5, 1, 0⟩, by simp, rfl⟩, by decide +kernel⟩

theorem witness_FencesQueueAndRun_start : ∃ (s : State) (f : FenceReq) (rest : List FenceReq), s.Canonical ∧ s.quiet ∧
    s.controllerDown = false ∧ s.ready = true ∧ s.fences = f :: rest ∧ f.site < 3264 ∧ f.cause ≠ 0x07 ∧
    s.isFenced f.site = false ∧ (∀ g ∈ siteFields f.site, s.stewardUp g = true) :=
  ⟨{ dev [] with fences := [⟨3263, 1, none⟩] }, ⟨3263, 1, none⟩, [], canon_of_ok (by decide +kernel), ⟨rfl, rfl, rfl, rfl⟩,
    by decide +kernel⟩

theorem witness_FencesQueueAndRun_routes : ∃ (s : State) (f : FenceRun), s.Canonical ∧ s.controllerDown = false ∧
    s.fence = some f ∧ f.routed = false ∧ s.orderedLeft = false ∧ (after .routeTableUpdate s).routeStateOf 3263 = 1 ∧
    (after .routeTableUpdate s).injectStop = 0 :=
  ⟨{ dev [] with fence := some { req := ⟨3263, 1, none⟩, linkDead := false }, injectStop := 3 },
    { req := ⟨3263, 1, none⟩, linkDead := false }, canon_of_ok (by decide +kernel), by decide +kernel⟩

theorem witness_FencesQueueAndRun_complete : ∃ (s : State) (f : FenceRun), s.Canonical ∧ s.controllerDown = false ∧
    s.fence = some f ∧ f.routed = true ∧ f.stopped = [] ∧ s.health.length < 256 ∧ s.resetWaiting = none ∧ s.partResets = [] ∧
    (∀ c : Ctx, (s.ctx c).resetWaiting = false ∧ (s.ctx c).switch = none) ∧ (s.island (siteIsland f.req.site)).owed = 0 ∧
    (after .fenceComplete s).health.map (fun h => (h.site, h.cause)) = [(3263, 4)] :=
  ⟨{ dev [] with fence := some { req := ⟨3263, 4, none⟩, linkDead := false, routed := true } },
    { req := ⟨3263, 4, none⟩, linkDead := false, routed := true }, canon_of_ok (by decide +kernel), by decide +kernel⟩

theorem witness_PartitionsSuspicionAndFindings_partition : ∃ (s : State) (p : Path) (k : Fin 8), s.Canonical ∧
    s.serves p = true ∧ s.controllerDown = false ∧ isRectangle 1 = true ∧ s.maskFits k 1 = true ∧ s.maskFits k 0 = true ∧
    (after (.partitionWrite p k 1) s).reg 0x2430 8 = 1 :=
  ⟨dev [(0x4000, 1, 3), (0x4004, 1, 3), (0x4008, 1, 3)], .jtag, 7, canon_of_ok (by decide +kernel), by decide +kernel⟩

theorem witness_PartitionsSuspicionAndFindings_clear : ∃ (s : State) (p : Path) (n : Site), s.Canonical ∧ s.serves p = true ∧
    s.controllerDown = false ∧ 0 < s.reg 0x2530 0x01 ∧ s.isCandidate n = true ∧ s.reg (0x3000 + n) 0xB0 = 900 ∧
    (after (.clearSiteSuspicion p n) s).reg (0x3000 + n) 0xB0 = 0 ∧ (after (.clearSiteSuspicion p n) s).isCandidate n = false ∧
    s.reg 0x2500 7 = 7 ∧ (after (.acknowledgeDecision p 1) s).reg 0x2500 7 = 0 ∧
    (after (.closeAllFindings p 1) s).findings.map (·.isOpen) = [false] :=
  ⟨{ dev [(0x3CBF, 0xB0, 900), (0x2500, 7, 7)] with candidates := [(3263, true)], findings := [⟨1, 0, 0, 0, true, 0⟩] }, .jtag, 3263,
    canon_of_ok (by decide +kernel), by decide +kernel⟩

/-- The decay of 10 takes a score of 605 below the threshold of 600, and one of 7 to 0. -/
theorem witness_PartitionsSuspicionAndFindings_decay : ∃ s : State, s.Canonical ∧ s.reg 0x3000 0xB0 = 605 ∧ s.isCandidate 0 = true ∧
    (after .suspicionDecay s).reg 0x3000 0xB0 = 595 ∧ (after .suspicionDecay s).isCandidate 0 = false ∧
    (after .suspicionDecay s).reg 0x3CBF 0xB0 = 0 :=
  ⟨{ dev [(0x3000, 0xB0, 605), (0x3CBF, 0xB0, 7)] with candidates := [(0, true)] }, canon_of_ok (by decide +kernel), by decide +kernel⟩

/-- Site 0 waits for a vote with a dispute of one row, in which the checker is right. -/
def disputed : State := { dev [] with
  votesWaiting := [0],
  mtiles := [(0, { dispute := some ⟨[0, 0, 0, 0, 0, 0, 0, 0], 0, 0, 0, 0, [⟨0, [], [], {}, [], [], 1, 0, false, true⟩], none⟩ })] }

theorem witness_VotesDecide_start : ∃ (s : State) (n : Site), s.Canonical ∧ s.controllerDown = false ∧
    s.stewardUp (siteField n) = true ∧ s.votesWaiting = n.val :: [] ∧ (s.mtile n).dispute.isSome = true ∧
    s.refereeFor n = some (16, false) ∧ s.votes = [] ∧ (after (.voteStart n) s).votes = [⟨0, 16, false⟩] ∧
    (after (.voteStart n) s).reg 0x2540 1 = 1 :=
  ⟨disputed, 0, canon_of_ok (by decide +kernel), by decide +kernel⟩

theorem witness_VotesDecide_none : ∃ (s : State) (n : Site), s.Canonical ∧ s.controllerDown = false ∧
    s.stewardUp (siteField n) = true ∧ s.votesWaiting = n.val :: [] ∧ (s.mtile n).dispute.isSome = true ∧
    s.refereeFor n = none ∧ ((after (.voteStart n) s).mtile n).dispute.map (·.verdict) = some (some .unresolved) :=
  ⟨{ disputed with slices := [16, 33, 50, 67, 1648, 1665, 1682, 1699].map fun n => ⟨n, .logic, none, none⟩ }, 0,
    canon_of_ok (by decide +kernel), by decide +kernel⟩

theorem witness_VotesDecide_verdict : ∃ (s : State) (n : Site) (v : Vote) (d : Dispute) (o : RefereeOutcome), s.Canonical ∧
    s.controllerDown = false ∧ s.stewardUp (siteField n) = true ∧ s.votes.find? (fun w => decide (w.site = n.val)) = some v ∧
    (s.mtile n).dispute = some d ∧ s.stewardUp (siteField v.referee) = true ∧ o.sequencerMismatch = false ∧
    verdictOf d o (s.mtile v.referee).halted = .checker ∧
    ((after (.voteVerdict n o) s).mtile n).dispute.map (·.verdict) = some (some .checker) ∧
    (after (.voteVerdict n o) s).reg 0x3000 0xB0 = 1000 ∧ (after (.voteVerdict n o) s).votes = [] :=
  ⟨{ disputed with votes := [⟨0, 16, false⟩], regs := (dev [(0x3000, 0xB0, 701)]).regs }, 0, ⟨0, 16, false⟩,
    ⟨[0, 0, 0, 0, 0, 0, 0, 0], 0, 0, 0, 0, [⟨0, [], [], {}, [], [], 1, 0, false, true⟩], none⟩, {}, canon_of_ok (by decide +kernel), by decide +kernel⟩

theorem witness_VotesDecide_main : ∃ (s : State) (n : Site) (v : Vote) (d : Dispute), s.Canonical ∧ s.controllerDown = false ∧
    s.stewardUp (siteField n) = true ∧ s.votes.find? (fun w => decide (w.site = n.val)) = some v ∧
    (s.mtile n).dispute = some d ∧ s.stewardUp (siteField v.referee) = true ∧
    verdictOf d {} (s.mtile v.referee).halted = .main ∧ (after (.voteVerdict n {}) s).reg 0x3000 0xB0 = 150 :=
  ⟨{ disputed with
      votes := [⟨0, 16, false⟩], mtiles := [(0, { dispute := some ⟨[0, 0, 0, 0, 0, 0, 0, 0], 0, 0, 0, 0, [⟨0, [], [], {}, [], [], 0, 1, false, true⟩], none⟩ })] },
    0, ⟨0, 16, false⟩, ⟨[0, 0, 0, 0, 0, 0, 0, 0], 0, 0, 0, 0, [⟨0, [], [], {}, [], [], 0, 1, false, true⟩], none⟩,
    canon_of_ok (by decide +kernel), by decide +kernel⟩

theorem witness_StewardsAndControllerStopAndRestart_stop : ∃ (s : State) (f : FieldNo), s.Canonical ∧ s.stewardUp f = true ∧
    s.controllerDown = false ∧ s.bringingUp = false ∧ s.autoRestarts f = 2 ∧ s.reg 0x2520 3 = 3 ∧
    (after (.stewardDisagree f) s).reg (0x4080 + f) 0x21 = 2 ∧ (after (.stewardDisagree f) s).reg (0x4080 + f) 0x20 = 1 ∧
    (after (.stewardDisagree f) { s with restartTimes := [(11, 0), (11, 0), (11, 0)] }).reg (0x4080 + f) 0x21 = 1 :=
  ⟨{ dev [] with restartTimes := [(11, 0), (11, 0)] }, 11, canon_of_ok (by decide +kernel), by decide +kernel⟩

theorem witness_StewardsAndControllerStopAndRestart_command : ∃ (s : State) (p : Path) (f : FieldNo), s.Canonical ∧
    s.serves p = true ∧ s.controllerDown = false ∧ s.reg (0x4080 + f) 0x21 = 1 ∧
    (∀ g : FieldNo, g ≠ f → s.reg (0x4080 + g) 0x21 ≠ 1) ∧ (after (.restartSteward p f) s).reg (0x4080 + f) 0x21 = 2 ∧
    (s.reg 0x2500 7).testBit 1 = true ∧ ((after (.restartSteward p f) s).reg 0x2500 7).testBit 1 = false :=
  ⟨dev [(0x408B, 0x21, 1), (0x2500, 7, 2)], .jtag, 11, canon_of_ok (by decide +kernel), by decide +kernel⟩

theorem witness_StewardsAndControllerStopAndRestart_complete : ∃ (s : State) (f : FieldNo), s.Canonical ∧
    s.reg (0x4080 + f) 0x21 = 2 ∧ s.controllerDown = false ∧ s.heldResults = [] ∧
    (∀ i ∈ fieldIslands f, (s.island i).offHeld = false) ∧ (after (.stewardRestartComplete f) s).reg (0x4080 + f) 0x21 = 0 ∧
    (after (.stewardRestartComplete f) s).reg (0x4080 + f) 0x22 = 1 ∧ (after (.stewardRestartComplete f) s).fences = [⟨0, 1, none⟩] ∧
    (after (.stewardRestartComplete f) s).reg 0x2420 3 = 0 :=
  ⟨{ dev [(0x4080, 0x21, 2), (0x4080, 0x20, 1), (0x2420, 3, 1)] with heldFences := [⟨0, 1, none⟩] }, 0,
    canon_of_ok (by decide +kernel), by decide +kernel⟩

theorem witness_StewardsAndControllerStopAndRestart_controller : ∃ s : State, s.Canonical ∧ s.controllerDown = true ∧
    s.heldResults = [] ∧ (∀ f : FieldNo, s.reg (0x4080 + f) 0x21 ≠ 1) ∧ s.booted = true ∧
    (after .controllerDisagree { s with controllerDown := false }).controllerDown = true ∧
    (after .controllerRestartComplete s).controllerDown = false ∧
    ((after .controllerRestartComplete s).raised.take 1).map (·.code) = [0xA00F] ∧ (after .controllerRestartComplete s).heldEvents = [] :=
  ⟨{ dev [] with controllerDown := true, heldEvents := [⟨0, 0xA00F, 6, 0, 0, 0⟩] }, canon_of_ok (by decide +kernel), by decide +kernel⟩

theorem witness_StewardsAndControllerStopAndRestart_health : ∃ s : State, s.Canonical ∧ s.controllerDown = false :=
  ⟨dev [(0x4000, 1, 3)], canon_of_ok (by decide +kernel), by decide +kernel⟩

/-! ## Power -/

theorem witness_IslandsRampAndGoOff_on : ∃ (s : State) (i : Island) (p : Path), s.Canonical ∧ s.mainOn = true ∧
    s.islandHeld i = false ∧ s.serves p = true ∧ s.powered 4 = true ∧ s.islandState i = 0 ∧
    (after (.islandPowerOn p i) s).islandState i = 1 :=
  ⟨dev [], 23, .jtag, canon_of_ok (by decide +kernel), by decide +kernel⟩

theorem witness_IslandsRampAndGoOff_off : ∃ (s : State) (i : Island) (p : Path), s.Canonical ∧ s.mainOn = true ∧
    s.islandHeld i = false ∧ s.serves p = true ∧ s.powered 4 = true ∧ s.islandUp i = true ∧ s.inPartition (islandRegion i) = false :=
  ⟨dev [(0x4017, 1, 3)], 23, .jtag, canon_of_ok (by decide +kernel), by decide +kernel⟩

/-- Island 0 waits; its neighbour 1 draws `a` tenths of an ampere in group 5, whose limit is 1600 and threshold 85 %. -/
theorem witness_IslandsRampAndGoOff_ramp : ∃ (s : State) (i : Island), s.Canonical ∧ s.mainOn = true ∧ s.islandHeld i = false ∧
    s.islandState i = 1 ∧ s.rampLate i = false ∧ s.rampTurn i = true ∧ s.busyNeighbour i [⟨1, 5, 1359⟩] = none ∧
    (after (.rampCheck i [⟨1, 5, 1359⟩]) s).islandState i = 2 ∧ (s.busyNeighbour i [⟨1, 5, 1360⟩]).isSome = true ∧
    ((after (.rampCheck i [⟨1, 5, 1360⟩]) s).island i).waitedUs = 50000 :=
  ⟨{ dev [(0x4000, 1, 1)] with islands := [(0, { waitedUs := 49990 })] }, 0, canon_of_ok (by decide +kernel), by decide +kernel⟩

theorem witness_IslandsRampAndGoOff_late : ∃ (s : State) (i : Island), s.Canonical ∧ s.mainOn = true ∧ s.islandHeld i = false ∧
    s.islandState i = 1 ∧ s.rampLate i = true ∧ s.rampTurn i = true ∧ (after (.rampWaitLimit i [⟨1, 5, 1360⟩]) s).islandState i = 2 ∧
    ((after (.rampWaitLimit i [⟨1, 5, 1360⟩]) s).island i).half = true :=
  ⟨{ dev [(0x4000, 1, 1)] with islands := [(0, { waitedUs := 50000 })] }, 0, canon_of_ok (by decide +kernel), by decide +kernel⟩

theorem witness_IslandsRampAndGoOff_done : ∃ (s : State) (i : Island), s.Canonical ∧ s.mainOn = true ∧ s.islandHeld i = false ∧
    s.islandState i = 2 ∧ s.targetOf i = 740 + 10 ∧ s.rampLong i 1016 = true ∧ (after (.islandRampDone i 740 760 1016) s).islandState i = 3 ∧
    (after (.islandRampDone i 739 760 1016) s).islandState i = 2 ∧ (after (.islandRampDone i 740 760 1016) s).reg (0x4000 + i) 3 = 750 ∧
    (after (.islandRampDone i 740 760 1015) s).islandState i = 2 :=
  ⟨{ dev [(0x4017, 1, 2)] with islands := [(23, { slew := 100 })] }, 23, canon_of_ok (by decide +kernel), by decide +kernel⟩

theorem witness_IslandsRampAndGoOff_phase : ∃ (s : State) (i : Island), s.Canonical ∧ s.mainOn = true ∧ s.islandHeld i = false ∧
    s.failedPhases i 5 = 0 ∧ (s.reg (0x4000 + i) 0x0B).testBit 47 = false ∧
    (after (.phaseFault i 5 7 .short) s).reg (0x4000 + i) 0x0B = 2 ^ 47 :=
  ⟨dev [], 23, canon_of_ok (by decide +kernel), by decide +kernel⟩

theorem witness_IslandsRampAndGoOff_pacing : ∃ (s : State) (i : Island), s.Canonical ∧ s.mainOn = true ∧ s.islandHeld i = false ∧
    s.islandUp i = true ∧ s.groupDark i 5 = false ∧ s.groupLimit i 5 = 1600 ∧ (s.island i).hold.length = 6 ∧
    ((after (.pacingTick i 5 1600) s).island i).hold = [0, 0, 0, 0, 0, 1] ∧
    (after (.pacingTick i 5 1600) s).reg (0x4000 + i) 0x10 = 62 :=
  ⟨dev [(0x4017, 1, 3)], 23, canon_of_ok (by decide +kernel), by decide +kernel⟩

theorem witness_IslandsRampAndGoOff_records : ∃ (s : State) (i : Island) (p : Path), s.Canonical ∧ s.mainOn = true ∧
    s.islandHeld i = false ∧ s.serves p = true ∧ (after (.resetMinimumRecords p 1) s).reg 0x2200 5 = 65535 ∧ s.reg 0x2200 5 = 700 :=
  ⟨dev [(0x2200, 5, 700)], 0, .jtag, canon_of_ok (by decide +kernel), by decide +kernel⟩

theorem witness_PowerIsSampledAndShared : ∃ (s : State) (i : Island), s.Canonical ∧ s.mainOn = true ∧ s.islandUp i = true ∧
    s.islandHeld i = false ∧ s.islandState i = 3 ∧ s.controllerDown = false ∧
    (after (.regulatorSample i ⟨[(1631, 700)], [(700, 60)], 321⟩) s).reg (0x4000 + i) 8 = 321 ∧
    s.reg 0x2300 1 = 100 ∧ ((after (.thermalCapStep i 100) s).island i).capPct = 95 ∧
    (after (.beatRateMeasure i 1900) s).reg (0x4000 + i) 0x0C = 1900 ∧ (after (.beatRateMeasure i 1900) s).reg 0x2310 1 = 1900 ∧
    (after (.budgetPeriod ⟨List.replicate 24 0, List.replicate 24 0, 1000, 500, 0, 12000, 12000, []⟩) s).reg 0x2200 4 = 12000 ∧
    (after (.budgetPeriod ⟨List.replicate 24 0, List.replicate 24 0, 1000, 500, 0, 12000, 12000, []⟩) s).reg (0x4000 + i) 9 = 11000 ∧
    s.idleAt 9 = 2 ∧ (after (.offerHoldExpire 9) s).idleAt 9 = 1 ∧ (after (.offerHoldExpire 9) s).offerHeld 9 = false :=
  ⟨{ dev [(0x4017, 1, 3)] with idle := [(9, 2)], offerHold := [(9, true)] }, 23, canon_of_ok (by decide +kernel), by decide +kernel⟩

theorem witness_ProtectionsSwitchOff : ∃ s : State, s.Canonical ∧ s.mainOn = true ∧ s.input.low = 99 ∧ s.ready = true ∧ s.auxOk = true ∧
    s.booted = true ∧ s.controllerDown = false ∧ (after (.inputVoltageSample 36000 1) s).mainOn = true ∧
    ((after (.inputVoltageSample 40000 1) s).input).good = 1 ∧ ((after (.inputVoltageSample 60000 1) s).input).low = 0 :=
  ⟨{ dev [] with input := { low := 99 } }, canon_of_ok (by decide +kernel), by decide +kernel⟩

theorem witness_AgeingIsFollowed_canary : ∃ (s : State) (n : Site), s.Canonical ∧ s.mainOn = true ∧ s.islandUp (siteIsland n) = true ∧
    s.reg 0x2320 0x04 = min 127 8 ∧ (after (.canaryAlarm n 8) s).reg (0x3000 + n) 0xA2 = 8 ∧ (after (.canaryAlarm n 8) s).findings = [] ∧
    (after (.canaryAlarm n 200) s).reg (0x3000 + n) 0xA1 = 127 ∧ s.limitAt (0x2003 * 2 ^ 32 + n) ≠ s.now / hour + 1 ∧
    s.findings.length ≤ 256 ∧ (after (.canaryAlarm n 7) s).findings.map (fun f => (f.site, f.pattern, f.isOpen)) = [(3263, 0, true)] :=
  ⟨dev [(0x4017, 1, 3)], 3263, canon_of_ok (by decide +kernel), by decide +kernel⟩

theorem witness_AgeingIsFollowed_replan : ∃ (s : State) (p : Path), s.Canonical ∧ s.serves p = true ∧ s.controllerDown = false ∧
    s.romTable = false ∧ s.reg 0x2320 0x02 ≠ 0 ∧ s.mainOn = true ∧ (∀ i : Island, s.islandHeld i = false) ∧
    (after (.replanStart p 1) s).replanning = true ∧ (after .replanPeriod s).replanning = true ∧
    s.referenceMargins [(0, 127)] [] 0 = [] ∧ (s.referenceMargins [(0, 127)] [(0, 900, 60)] 0).length = 1 ∧
    (lowestReading (s.referenceMargins [(0, 127)] [(0, 900, 60)] 0)).isSome = true ∧
    (after (.replanComplete [(0, 127)] []) { s with replanning := true }).replanning = false :=
  ⟨dev [(0x2320, 2, 1)], .jtag, canon_of_ok (by decide +kernel), by decide +kernel⟩

/-! ## Bring-up -/

/-- A device in step `k` of the bring-up of a reset of width `w`. -/
def step_ (k w : Nat) (xs : List (Nat × Nat × Nat)) : State :=
  State.withRegs { State.reset with booted := decide (1 < k), mainOn := decide (3 < k), reset_ := some { width := w, cause := 1 } }
    ((if k = 1 then [] else [(0x20F0, 1, k)]) ++ xs)

/-- What the statement on bring-up asks of every state. -/
def inBringUp (s : State) (w : Nat) : Bool :=
  canonOk s && s.auxOk && decide (s.reset_ = some { width := w, cause := 1 }) && s.resetWaiting.isNone && !s.controllerDown
    && decide (∀ f : FieldNo, s.reg (0x4080 + f) 0x21 ≠ 2)

theorem witness_BringUpAdvances_boot : ∃ s : State, inBringUp s 6 = true ∧ s.reg 0x20F0 1 = 1 ∧ s.reg 0x2030 2 % 2 = 1 ∧
    (s.copy 0).good = true ∧ (s.copy 1).good = false ∧ (after (.bringUpStepEnd {}) s).booted = true ∧
    (after (.bringUpStepEnd {}) s).reg 0x2030 3 = 0 ∧ (after (.bringUpStepEnd {}) s).reg 0x20F0 1 = 2 :=
  ⟨{ step_ 1 6 [(0x2030, 2, 1)] with firmware := [{}, { good := false }] }, by decide +kernel⟩

theorem witness_BringUpAdvances_recovery : ∃ s : State, inBringUp s 6 = true ∧ s.reg 0x20F0 1 = 1 ∧
    (s.copy 0).good = false ∧ (s.copy 1).good = false ∧ (after (.bringUpStepEnd {}) s).recovery = true ∧
    (after (.bringUpStepEnd {}) s).reg 0x20F0 1 = 0x0F :=
  ⟨{ step_ 1 6 [] with firmware := [] }, by decide +kernel⟩

theorem witness_BringUpAdvances_records : ∃ s : State, inBringUp s 6 = true ∧ s.reg 0x20F0 1 = 2 := ⟨step_ 2 6 [], by decide +kernel⟩

theorem witness_BringUpAdvances_power : ∃ s : State, inBringUp s 5 = true ∧ s.reg 0x20F0 1 = 3 ∧ s.pinHolds = false ∧
    (after (.bringUpStepEnd { inputMv := 40000 }) s).reg 0x20F0 1 = 4 ∧
    (after (.bringUpStepEnd { inputMv := 60000 }) s).islandState 23 = 1 ∧
    (after (.bringUpStepEnd { inputMv := 39999 }) s).reg 0x20F0 1 = 3 ∧
    (after (.bringUpStepEnd { inputMv := 60001 }) s).reg 0x20F0 1 = 3 ∧
    (after (.bringUpStepEnd {}) { s with hresetLow := true }).reg 0x20F0 1 = 3 :=
  ⟨step_ 3 5 [], by decide +kernel⟩

theorem witness_BringUpAdvances_steps : ∀ k ∈ [4, 5, 6, 8, 9], ∃ s : State, inBringUp s 6 = true ∧ s.reg 0x20F0 1 = k :=
  fun k hk => ⟨step_ k 6 [], by
    simp only [List.mem_cons, List.not_mem_nil, or_false] at hk
    rcases hk with rfl | rfl | rfl | rfl | rfl <;> decide +kernel⟩

/-- An island that ramps holds step 4, and steps 6 and 8 fix the settings of the steps after them (R423). -/
theorem witness_BringUpAdvances_holds : ∃ s : State, inBringUp s 6 = true ∧ s.reg 0x20F0 1 = 4 ∧ s.stewardUp (islandField 23) = true ∧
    s.islandState 23 = 2 ∧ (after (.bringUpStepEnd {}) s).reg 0x20F0 1 = 4 ∧
    (after (.bringUpStepEnd {}) (step_ 6 6 [(0x2D00, 1, 7)])).latched = 7 ∧ (after (.bringUpStepEnd {}) (step_ 8 6 [(0x2600, 1, 3)])).latched = 3 :=
  ⟨step_ 4 6 [(0x4017, 1, 2)], by decide +kernel⟩

theorem witness_BringUpAdvances_dies : ∃ s : State, inBringUp s 6 = true ∧ s.reg 0x20F0 1 = 5 ∧
    (after (.bringUpStepEnd { silentDies := [3] }) s).reg 0x20F0 1 = 6 ∧
    (after (.bringUpStepEnd { silentDies := [3] }) s).reg 0x4203 1 = 2 := ⟨step_ 5 6 [], by decide +kernel⟩

/-- At a warm full reset the stacks leave self-refresh and step 8 is left out. -/
theorem witness_BringUpAdvances_memory : ∃ s : State, inBringUp s 5 = true ∧ s.reg 0x20F0 1 = 7 ∧ s.partResets = [] ∧
    s.ctxs.all (fun e => !e.2.resetWaiting) = true ∧ (after (.bringUpStepEnd {}) s).reg 0x20F0 1 = 9 ∧
    (after (.bringUpStepEnd {}) s).reg 0x411F 1 = 1 ∧ (after (.bringUpStepEnd {}) s).reg 0x411F 3 = 1 :=
  ⟨step_ 7 5 [(0x411F, 1, 3)], by decide +kernel⟩

theorem witness_BringUpAdvances_training : ∃ s : State, inBringUp s 6 = true ∧ s.reg 0x20F0 1 = 7 ∧ s.partResets = [] ∧
    s.ctxs.all (fun e => !e.2.resetWaiting) = true := ⟨step_ 7 6 [], by decide +kernel⟩

theorem witness_BringUpAdvances_topology : ∃ s : State, inBringUp s 6 = true ∧ s.reg 0x20F0 1 = 10 ∧
    (after (.bringUpStepEnd { mismatch := some (11, 1) }) s).reg 0x20F0 1 = 0x0D := ⟨step_ 10 6 [], by decide +kernel⟩

theorem witness_BringUpAdvances_ready : ∃ s : State, inBringUp s 6 = true ∧ s.reg 0x20F0 1 = 11 ∧ s.nmt = .preOperational ∧
    s.microcodeThere = true ∧
    (after (.bringUpStepEnd { ms := 2 ^ 40 }) s).ready = true ∧ (after (.bringUpStepEnd { ms := 2 ^ 40 }) s).reg 0x20F0 3 = 2 ^ 32 - 1 ∧
    (after (.bringUpStepEnd {}) s).nmt = .operational :=
  ⟨{ step_ 11 6 [] with nmt := .preOperational }, by decide +kernel⟩

/-- The places of a set's fields are constants without a body, so the image of a valid set is a premise. -/
theorem witness_CalibrationAndLicence_set (bs : List Byte) (c : CalSet) (hl : calLengthOk bs.length = true)
    (h : (dev []).setOf bs = some c) (hc : c.serial = (dev []).fuseSerial ∧ c.valid = 15) :
    ∃ (s : State) (p : Path), s.Canonical ∧ s.controllerDown = false ∧ s.serves p = true ∧
      calLengthOk bs.length = true ∧ (calWriteCommand bs).code s 0x2100 0x01 = 0 :=
  ⟨dev [], .jtag, canon_of_ok (by decide +kernel), by decide +kernel, by decide +kernel, hl, by
    have k : ((dev []).controllerDown || (dev []).beforeReady || !(dev []).available 0x2100 1 false || !(dev []).calFree) = false := by
      decide +kernel
    simp only [Command.code, calWriteCommand, h, decide_eq_true hc] at k ⊢
    simp_all⟩

/-- A start before ready is kept for it (R423). -/
theorem witness_CalibrationAndLicence_early : ∃ (s : State) (p : Path) (x : ResetRun), s.Canonical ∧ s.controllerDown = false ∧
    s.serves p = true ∧ s.beforeReady = true ∧ s.reset_ = some x ∧ (after (.selfCalibrationStart p 1) s).selfCal = false ∧
    (after (.selfCalibrationStart p 1) s).reset_ = some { x with selfCal := true } :=
  ⟨step_ 8 6 [], .jtag, { width := 6, cause := 1 }, canon_of_ok (by decide +kernel), by decide +kernel⟩

theorem witness_CalibrationAndLicence_commands : ∃ (s : State) (p : Path), s.Canonical ∧ s.controllerDown = false ∧
    s.serves p = true ∧ s.calFree = true ∧ s.beforeReady = false ∧ s.selfCal = false ∧ s.selfCalRefusal = none ∧
    (after (.calibrationErase p 1) s).calNext.map (·.valid) = some 0 ∧ (after (.selfCalibrationStart p 1) s).selfCal = true ∧
    s.reg 0x2010 4 = 1 ∧ (after (.licenceRemove p 1) s).reg 0x2010 4 = 0 :=
  ⟨dev ([(0x2010, 4, 1)] ++ (List.range 24).map fun i => (0x4000 + i, 1, 3)), .jtag, canon_of_ok (by decide +kernel), by decide +kernel⟩

theorem witness_CalibrationAndLicence_run : ∃ (s : State) (p : Path), s.Canonical ∧ s.controllerDown = false ∧ s.serves p = true ∧
    s.selfCal = true ∧ (after (.selfCalibrationStop (.command p 1)) s).selfCal = false ∧
    (after (.selfCalibrationStop .heat) s).selfCal = false ∧ s.reg 0x4017 4 = 5 ∧ (after (.selfCalibrationComplete []) s).reg 0x4017 4 = 0 ∧
    (after (.selfCalibrationComplete []) s).cal.valid = 15 :=
  ⟨{ dev [(0x4017, 4, 5)] with selfCal := true }, .jtag, canon_of_ok (by decide +kernel), by decide +kernel⟩

/-! ## Self-test -/

/-- SELF_TEST on the field 11 with a deadline of 2^32 - 1 ms, and a save area on slot 0 of the first S-tile of island 0. -/
theorem witness_SlicesRunAndAreLogged_requests : ∃ (s : State) (p : Path) (w : Nat), s.Canonical ∧ s.controllerDown = false ∧
    s.serves p = true ∧ bits w 60 58 = 0 ∧ bits w 57 46 = 3263 ∧ bits w 60 58 < 5 ∧ bits w 57 46 < scopeSize (bits w 60 58) ∧
    (after (.selfTestLogic p w) s).due = [⟨3263, .logic, (2 ^ 32 - 1) * 1000000, false, none⟩] ∧
    (after (.selfTestMemory p w) s).due.map (·.kind) = [.memory] ∧ ((after (.selfTestLogicMemory p w) s).due.map (·.kind)) = [.logic, .memory] ∧
    (after (.cancelSlices p 1) (after (.selfTestLogic p w) s)).due = [] ∧
    (saveAreaCommand 0 (2 ^ 31 + 128 * 2 ^ 16 + 8)).code s 0x2601 1 = 0 ∧
    (after (.saveAreaWrite p 0 (2 ^ 31 + 128 * 2 ^ 16 + 8)) s).reg 0x2601 1 = 2 ^ 31 + 128 * 2 ^ 16 :=
  ⟨dev [], .jtag, 3263 * 2 ^ 46 + 2 ^ 32 - 1, canon_of_ok (by decide +kernel), by decide +kernel⟩

/-- Site 3263, whose island is on, has a due slice, with the power reservation `power`, and holds nothing. -/
def sliceDue (power : Option Reservation) : State := { dev [(0x4017, 1, 3)] with due := [⟨3263, .logic, 0, false, power⟩] }

theorem witness_SlicesRunAndAreLogged_start : ∃ (s : State) (n : Site), s.Canonical ∧ s.controllerDown = false ∧ s.mainOn = true ∧
    (s.due.find? fun d => decide (d.site = n.val ∧ d.kind = .logic)) = some ⟨3263, .logic, 0, false, some ⟨552, true⟩⟩ ∧
    s.holdReason n true = 0 ∧ s.turnTaken n .logic = false ∧
    (after (.sliceStart n .logic) s).slicing n = true ∧ (after (.sliceStart n .logic) s).due = [] :=
  ⟨sliceDue (some ⟨552, true⟩), 3263, canon_of_ok (by decide +kernel), by decide +kernel⟩

theorem witness_SlicesRunAndAreLogged_overdue : ∃ (s : State) (n : Site) (d : DueSlice), s.Canonical ∧ s.controllerDown = false ∧
    s.due = [d] ∧ d.site = n.val ∧ d.kind = .logic ∧ d.reported = false ∧ d.deadline = s.now ∧ s.holdReason n false = 4 ∧
    (after (.sliceOverdue n .logic) s).due.map (·.reported) = [true] :=
  ⟨sliceDue none, 3263, ⟨3263, .logic, 0, false, none⟩, canon_of_ok (by decide +kernel), by decide +kernel⟩

theorem witness_SlicesRunAndAreLogged_end : ∃ (s : State) (n : Site) (x : RunSlice), s.Canonical ∧ s.controllerDown = false ∧
    s.slices.find? (fun y => decide (y.site = n.val)) = some x ∧ s.stewardUp (siteField n) = true ∧ s.resultLog.length ≤ 1024 ∧
    s.isFenced n = false ∧ (after (.sliceEnd n { site := n }) s).reg (0x3000 + n) 0xC2 = 1 ∧
    (after (.sliceEnd n { site := n }) s).slicing n = false ∧ (after (.sliceEnd n { site := n, pass := false }) s).reg (0x3000 + n) 0xC0 = 1 ∧
    (after (.sliceEnd n { site := n, pass := false }) s).reg (0x3000 + n) 0xB0 = 1000 ∧
    (after (.sliceBudgetExpire n { phase := 2 }) s).reg (0x3000 + n) 0xC0 = 2 ∧
    (s.ctxs.all fun e => e.2.switch.isNone && e.2.runDesc.isNone) = true :=
  ⟨{ sliceDue none with slices := [⟨3263, .logic, none, none⟩] }, 3263, ⟨3263, .logic, none, none⟩, canon_of_ok (by decide +kernel), by decide +kernel⟩

theorem witness_MarigoldRuns_start : ∃ (s : State) (p : Path) (v : Nat), s.Canonical ∧ s.serves p = true ∧ s.controllerDown = false ∧
    maskIslands v = [23] ∧ (∀ i ∈ maskIslands v, s.marigoldRefusal i = none) ∧
    (∀ u ∈ marigoldSteps (s.reg 0x2630 0x02), u + 3 < s.reg 0x2300 0x01) ∧
    ((after (.marigoldStart p v) s).mari 23).map (·.stepsLeft) = some [65, 85, 95] ∧
    ((after (.marigoldStop p v) (after (.marigoldStart p v) s)).mari 23).map (·.stopping) = some true :=
  ⟨dev [(0x4017, 1, 3)], .jtag, 2 ^ 23, canon_of_ok (by decide +kernel), by decide +kernel⟩

theorem witness_MarigoldRuns_heat : ∃ (s : State) (i : Island) (r : MariRun), s.Canonical ∧ s.heating i = some (r, 65) ∧
    (∀ w ∈ r.stepsLeft, w + 3 < s.reg 0x2300 0x01) ∧ s.marginOpen i 65 { r with reached := true, margin := 0, ran := r.ran ++ [65] } = true ∧
    ((after (.marigoldHeatReached i) s).mari i).map (·.reached) = some true ∧
    ((after (.marigoldHeatTimeout i) s).mari i).map (·.stepsLeft) = some [95] :=
  ⟨{ dev [] with marigold := [(23, some { stepsLeft := [65, 95] })] }, 23, { stepsLeft := [65, 95] },
    canon_of_ok (by decide +kernel), by decide +kernel⟩

theorem witness_MarigoldRuns_pattern : ∃ (s : State) (i : Island) (r : MariRun) (x : SliceReport), s.Canonical ∧ s.mari i = some r ∧
    r.stepsLeft.head? = some 65 ∧ r.reached = true ∧ r.stopping = false ∧ s.mariGoes i = true ∧
    (s.reservationFor x.site).isSome = true ∧ siteIsland x.site = i ∧ s.siteDark x.site = false ∧
    (maskPatterns (s.reg 0x2630 0x05)).contains x.pattern = true ∧ s.patternTurn i 65 r x.site x.pattern = true ∧ x.pass = false ∧
    s.marginOpen i 65 { r with fails := r.fails ++ [⟨x.site, x.pattern, 65, r.margin, x.block⟩] } = true ∧
    ((after (.marigoldPatternRun i x) s).mari i).map (·.fails) = some [⟨2771, 1, 65, 0, 9⟩] ∧
    (after (.marigoldPatternRun i x) s).reg 0x3AD3 0xC3 = 1 :=
  ⟨{ dev [(0x4017, 1, 3)] with
      marigold := [(23, some { stepsLeft := [65], reached := true })], islands := [(23, { budgetW := 6 })] }, 23, { stepsLeft := [65], reached := true },
    { site := 2771, pattern := 1, pass := false, block := 9 }, canon_of_ok (by decide +kernel), by decide +kernel⟩

theorem witness_MarigoldRuns_end : ∃ (s : State) (i j : Island) (r q : MariRun), s.Canonical ∧ s.mari i = some r ∧ r.stopping = true ∧
    s.mariGoes i = true ∧ r.fails = [] ∧ s.mari j = some q ∧ s.mariGoes j = true ∧ q.stepsLeft = [] ∧ q.fails = [] ∧ (after (.marigoldEnd i) s).mari i = none ∧ (after (.marigoldEnd j) s).mari j = none :=
  ⟨{ dev [] with marigold := [(0, some { stepsLeft := [] }), (23, some { stepsLeft := [65], stopping := true })] }, 23, 0,
    { stepsLeft := [65], stopping := true }, { stepsLeft := [] }, canon_of_ok (by decide +kernel), by decide +kernel⟩

/-! ## The M-tile -/

/-- An operation record with its operands in BF16 in the store at lines 0 and 16: weight-stationary, output form, rows,
columns, blocks, sparse code, and the words above word 2. -/
def opRecord (ws out m n k code : Nat) (rest : List Nat) : List Nat :=
  [ws * 2 ^ 63 + out * 2 ^ 59 + 4 * 2 ^ 56 + 4 * 2 ^ 53 + 4 * 2 ^ 47 + m * 2 ^ 38 + n * 2 ^ 31 + k * 2 ^ 19 + code * 2 ^ 16,
   16 * 2 ^ 25, 5 * 2 ^ 60 + 5 * 2 ^ 28] ++ rest

/-- A tile plan of kind 0 with records `recs`. -/
def plan (recs : List (List Nat)) : SlotPlan := { ctx := 0, stamp := 0, section_ := 0, plan := ⟨0, 0, 0, [], [], [], [], [], recs, [], []⟩ }

/-- Site 0 runs records `recs` in context 0, with `m` in its array and A = 1.0, B = 2.0 as the first elements in its store. -/
def onArray (recs : List (List Nat)) (m : MTile) : State :=
  stored (stored { dev (ctxOn 1) with running := [(0, some ⟨0, 0, false⟩)], plans := [(0, some (plan recs))], mtiles := if m = {} then [] else [(0, m)] }
    (storeAddr 0 0) (toBytes 2 0x3F80)) (storeAddr 0 (16 * 64)) (toBytes 2 0x4000)

theorem witness_ArraysStartAndStep_start : ∃ (s : State) (n : Site) (r : RunTile) (p : TilePlan) (ws : List Nat), s.Canonical ∧
    s.active n = some r ∧ s.tileOf n = some 0 ∧ tileType 0 = 0 ∧ s.planOf n = some p ∧ (s.mtile n).cur = none ∧ (s.mtile n).halted = false ∧
    (s.mtile n).dispute = none ∧ p.recs[(s.mtile n).recIx]? = some ws ∧ mrNone ws = false ∧ mrGate ws = false ∧ mrWS ws = false ∧
    mrInit ws = 0 ∧ (s.mtile n).drains = [] ∧ s.accAt 4096 ≠ {} ∧ (after (.operationRecordStart n {}) s).accAt 4096 = {} ∧
    ((after (.operationRecordStart n {}) s).mtile n).bank = 2 :=
  ⟨{ onArray [opRecord 0 1 1 1 2 0 []] { bank := 1 } with acc := [(4096, { val := 1 })] }, 0, ⟨0, 0, false⟩,
    ⟨0, 0, 0, [], [], [], [], [], [opRecord 0 1 1 1 2 0 []], [], []⟩, opRecord 0 1 1 1 2 0 [], canon_of_ok (by decide +kernel), by decide +kernel⟩

theorem witness_ArraysStartAndStep_none : ∃ (s : State) (n : Site) (r : RunTile) (p : TilePlan) (ws : List Nat), s.Canonical ∧
    s.active n = some r ∧ s.tileOf n = some 0 ∧ s.planOf n = some p ∧ (s.mtile n).cur = none ∧ p.recs[(s.mtile n).recIx]? = some ws ∧
    mrNone ws = true ∧ ((after (.operationRecordStart n {}) s).mtile n).recIx = 1 :=
  ⟨onArray [opRecord 0 1 0 1 2 0 []] {}, 0, ⟨0, 0, false⟩, ⟨0, 0, 0, [], [], [], [], [], [opRecord 0 1 0 1 2 0 []], [], []⟩,
    opRecord 0 1 0 1 2 0 [], canon_of_ok (by decide +kernel), by decide +kernel⟩

/-- No block of a fetch is absent, poisoned or malformed. -/
def soundBlocks (fw : Nat) (f : Fetched) : Bool := f.blocks.all fun b => !b.absent && !b.poison && !blockBad fw 0 b

theorem witness_ArraysStartAndStep_step : ∃ (s : State) (n : Site) (o : MOp) (fa fb : Fetched), s.Canonical ∧
    s.arrayOp n = some (0, 0, o) ∧ mrCode o.words = 0 ∧ mrGate o.words = false ∧ mrN o.words ≤ 64 ∧ o.bank < 4 ∧
    soundBlocks (mrAFw o.words) fa = true ∧ soundBlocks (mrBFw o.words) fb = true ∧ mrWS o.words = false ∧ o.step + 1 < mrK o.words ∧
    mrM o.words ≤ 64 ∧
    s.fetch n 0 (mrK o.words) [] (opA o.words) (mrM o.words * mrK o.words) o.aTaken o.aBuf ((List.range (mrM o.words)).map fun i => (i, o.step)) = some fa ∧
    s.fetch n 0 (mrK o.words) [] (opB o.words) (mrN o.words * mrK o.words) o.bTaken o.bBuf ((List.range (mrN o.words)).map fun j => (j, o.step)) = some fb ∧
    fa.blocks.length = mrM o.words ∧ fb.blocks.length = mrN o.words ∧
    ((after (.blockStep n {}) s).accAt (3 * 4096)).val = 0x40000000 ∧ ((after (.blockStep n {}) s).mtile n).steps = 1 :=
  ⟨onArray [] { cur := some { words := opRecord 0 1 1 1 2 0 [], bank := 3 } }, 0, { words := opRecord 0 1 1 1 2 0 [], bank := 3 },
    { blocks := [{ payload := 0x3F80 }] }, { blocks := [{ payload := 0x4000 }] }, canon_of_ok (by decide +kernel), by decide +kernel⟩

theorem witness_ArraysStartAndStep_slice : ∃ (s : State) (n : Site) (o : MOp) (fa fb : Fetched), s.Canonical ∧
    s.arrayOp n = some (0, 0, o) ∧ mrCode o.words = 0 ∧ mrGate o.words = false ∧ mrN o.words ≤ 64 ∧ o.bank < 4 ∧
    soundBlocks (mrAFw o.words) fa = true ∧ soundBlocks (mrBFw o.words) fb = true ∧ mrWS o.words = true ∧ o.step < mrK o.words ∧
    min (mrK o.words) (o.step + sliceBlocks o) < mrK o.words ∧ mrM o.words ≤ 256 ∧ sliceBlocks o = 1 ∧
    s.fetchB n 0 o {} 0 1 = some fb ∧ s.fetchA n 0 o {} 0 1 = some fa ∧ fa.blocks.length = 1 ∧ fb.blocks.length = 1 ∧
    o.parts = [] ∧ o.loaded = o.step ∧ mrASrc o.words = 4 ∧ ((after (.weightSlice n {}) s).accAt 0).val = 0x40000000 :=
  ⟨onArray [] { cur := some { words := opRecord 1 1 1 1 2 0 [] } }, 0, { words := opRecord 1 1 1 1 2 0 [] },
    { blocks := [{ payload := 0x3F80 }] }, { blocks := [{ payload := 0x4000 }] }, canon_of_ok (by decide +kernel), by decide +kernel⟩

/-- The slice's B blocks already stand in the second weight register. -/
theorem witness_ArraysStartAndStep_loaded : ∃ (s : State) (n : Site) (o : MOp) (fa fb : Fetched), s.Canonical ∧
    s.arrayOp n = some (0, 0, o) ∧ mrCode o.words = 0 ∧ mrGate o.words = false ∧ soundBlocks (mrAFw o.words) fa = true ∧
    soundBlocks (mrBFw o.words) fb = true ∧ mrWS o.words = true ∧ sliceBlocks o = 1 ∧ o.parts = [⟨0, 1, fb.blocks, []⟩] ∧ o.loaded = 1 ∧
    s.fetchA n 0 o {} 0 1 = some fa ∧ fa.blocks.length = 1 ∧ fb.blocks.length = 1 ∧
    ((after (.weightSlice n {}) s).accAt 0).val = 0x40800000 :=
  ⟨onArray [] { cur := some { words := opRecord 1 1 1 1 2 0 [], parts := [⟨0, 1, [{ payload := 0x4080 }], []⟩], loaded := 1 } }, 0,
    { words := opRecord 1 1 1 1 2 0 [], parts := [⟨0, 1, [{ payload := 0x4080 }], []⟩], loaded := 1 },
    { blocks := [{ payload := 0x3F80 }] }, { blocks := [{ payload := 0x4080 }] }, canon_of_ok (by decide +kernel), by decide +kernel⟩

theorem witness_LanesAndWindowsAdvance_lane : ∃ (s : State) (n : Site) (o : MOp) (p : WPart), s.Canonical ∧
    s.arrayOp n = some (0, 0, o) ∧ mrLanes o = true ∧ o.parts = [p] ∧ o.aPart ≠ [] ∧ (∀ b ∈ o.aPart ++ p.blocks, b.poison = false) ∧
    o.lane + 64 < (slotRows (partSlots o p o.aPart)).length ∧ (after (.laneBeat n {}) s).reg 0x2C20 4 = 64 :=
  ⟨onArray [] { cur := some { words := opRecord 1 1 3 1 1 5 [], parts := [⟨0, 1, [{}], []⟩], aPart := List.replicate 3 { word := 63 * 2 ^ 56 } } }, 0,
    { words := opRecord 1 1 3 1 1 5 [], parts := [⟨0, 1, [{}], []⟩], aPart := List.replicate 3 { word := 63 * 2 ^ 56 } }, ⟨0, 1, [{}], []⟩,
    canon_of_ok (by decide +kernel), by decide +kernel⟩

theorem witness_LanesAndWindowsAdvance_window : ∃ (s : State) (n : Site) (o : MOp), s.Canonical ∧ s.arrayOp n = some (0, 0, o) ∧
    mrCam o = true ∧ o.loaded < mrK o.words ∧ 0 < mrWindow o.words ∧ o.parts.length < 2 ∧
    (s.fetchB n 0 o {} o.loaded (min (mrK o.words) ((o.loaded / mrWindow o.words + 1) * mrWindow o.words))).isSome = true ∧
    ((after (.camWindowLoad n {}) s).mtile n).cur.map (·.loaded) = some 1 :=
  ⟨onArray [] { cur := some { words := opRecord 1 1 1 1 2 6 [0, 0, 0, 2 ^ 42] } }, 0, { words := opRecord 1 1 1 1 2 6 [0, 0, 0, 2 ^ 42] },
    canon_of_ok (by decide +kernel), by decide +kernel⟩

theorem witness_ArraysDrainAndDecide_drain : ∃ (s : State) (n : Site) (o : MOp), s.Canonical ∧ s.active n = some ⟨0, 0, false⟩ ∧
    s.tileOf n = some 0 ∧ tileType 0 = 0 ∧ (s.mtile n).drains = [o] ∧ (s.mtile n).halted = false ∧ (s.mtile n).dispute = none ∧
    mrOut o.words = 1 ∧ mrDst o.words = 4 ∧ mrGate o.words = false ∧ o.row + 1 < mrM o.words ∧
    (after (.drainRow n 0) s).load (storeAddr 0 (64 * mrOutLine o.words + 4)) 4 = 9 ∧
    (after (.drainRow n 0) s).load (storeAddr 0 (64 * mrOutLine o.words + 8)) 4 = 0 :=
  ⟨{ onArray [] { drains := [{ words := opRecord 0 1 2 2 1 0 [100 * 2 ^ 19] }] } with acc := [(0, { val := 8 }), (1, { val := 9 })] }, 0,
    { words := opRecord 0 1 2 2 1 0 [100 * 2 ^ 19] }, canon_of_ok (by decide +kernel), by decide +kernel⟩

theorem witness_ArraysDrainAndDecide_verdict : ∃ (s : State) (n : Site) (d : Dispute), s.Canonical ∧ (s.mtile n).dispute = some d ∧
    d.verdict = some .checker ∧ (s.mtile n).cur = none ∧ (d.rows.map fun r => r.row).Nodup ∧
    ((after (.verdictApply n .checker 0) s).accAt 2).val = 7 ∧ ((after (.verdictApply n .checker 0) s).mtile n).dispute = none :=
  ⟨onArray [] { dispute := some ⟨opRecord 0 1 1 4 2 0 [], 2, 0, 0, 0, [⟨0, [], [], {}, [], [], 1, 7, false, true⟩], some .checker⟩ }, 0,
    ⟨opRecord 0 1 1 4 2 0 [], 2, 0, 0, 0, [⟨0, [], [], {}, [], [], 1, 7, false, true⟩], some .checker⟩, canon_of_ok (by decide +kernel), by decide +kernel⟩

theorem witness_ArraysDrainAndDecide_mismatch : ∃ (s : State) (n : Site), s.Canonical ∧ s.sequencersUp n = true ∧ (s.mtile n).halted = false ∧
    ((after (.sequencerMismatch n 5) s).mtile n).halted = true ∧ (after (.sequencerMismatch n 5) s).reg (0x3000 + n) 0xB0 = 600 ∧
    (after (.sequencerMismatch n 5) s).reg (0x3000 + n) 0x36 = 0 :=
  ⟨dev [(0x4017, 1, 3)], 3263, canon_of_ok (by decide +kernel), by decide +kernel⟩

/-- The write ends on the last byte of the store; line 0 is locked by the record, line 8191 is open. -/
theorem witness_ArraysDrainAndDecide_store : ∃ (s : State) (n : Site) (w : StoreWrite), s.Canonical ∧ s.tileOf n = some 0 ∧ tileType 0 = 0 ∧
    (s.mtile n).halted = false ∧ w.bond = none ∧ s.writeLocked n w.offset w.bytes.length = none ∧ s.writeLocked n 0 1 = some 0 ∧
    (after (.operandStoreWrite n w) s).bytesAt (storeAddr 0 w.offset) 2 = [5, 6] ∧
    (after (.operandStoreWrite n w) s).reg 0x3000 0x3A = 1 :=
  ⟨onArray [opRecord 0 1 1 1 2 0 []] {}, 0, { offset := 2 ^ 19 - 2, bytes := [5, 6], poison := false, conflict := true }, canon_of_ok (by decide +kernel), by decide +kernel⟩

/-- The next transfer at input 3, a line of sevens, goes into the store's last line. -/
theorem witness_ArraysDrainAndDecide_bond : ∃ (s : State) (n : Site) (w : StoreWrite) (x : Transfer), s.Canonical ∧
    s.tileOf n = some 0 ∧ tileType 0 = 0 ∧ (s.mtile n).halted = false ∧ w.bond = some 3 ∧ (s.engineIn n 3).head? = some x ∧ s.writeLocked n w.offset 64 = none ∧
    (after (.operandStoreWrite n w) s).bytesAt (storeAddr 0 w.offset) 64 = List.replicate 64 7 ∧
    (after (.operandStoreWrite n w) s).engineIn n 3 = [] :=
  ⟨{ onArray [opRecord 0 1 1 1 2 0 []] {} with bond := [(0, { engineIn := [[], [], [], [{ data := ofBytes (List.replicate 64 7) }]] })] }, 0,
    { bond := some 3, offset := 2 ^ 19 - 64, bytes := [], poison := false, conflict := false }, { data := ofBytes (List.replicate 64 7) }, canon_of_ok (by decide +kernel), by decide +kernel⟩

/-! ## The scratchpad -/

/-- Context 0 runs the plan `p` on S-tile 0, at site 136, whose state is `x`. -/
def onScratch (p : TilePlan) (x : SCore) : State :=
  { dev (ctxOn 1) with running := [(136, some ⟨0, 0, false⟩)], plans := [(512, some { ctx := 0, stamp := 0, section_ := 0, plan := p })],
                       stiles := if x = {} then [] else [(0, x)] }

/-- An S-tile's plan with the memory records `recs` and the stream records `streams` of address generator 0. -/
def scratchPlan (recs streams : List (List Nat)) : TilePlan := ⟨128, 1, 0, [], [], [], [], [], recs, [streams, [], [], []], []⟩

/-- The last whole slot of the scratchpad, written by a packet. -/
def lastSlot : Access := { aliased := false, off := 0x3FFFC0, len := 64, bytes := List.replicate 64 7 }

/-- The same with its poison mark. -/
def lastPoisoned : Access := { lastSlot with poison := true }

/-- The state has slot 65,535 of S-tile 0 with tag `v`. -/
def tagged (v : Nat) : State := { dev (ctxOn 1) with tags := if v = 0 then [] else [(65535, v)] }

/-- The same with the last group, of words 458,752 on, narrow port 0's. -/
def narrowed (v : Nat) : State := State.withRegs (tagged v) [(0x3088, 0x50, 2 ^ 14)]

theorem witness_ScratchpadAccesses_plain : ∃ (s : State) (t : STile) (n : Nat) (q : Requester) (a : Access) (ws : List Nat), s.Canonical ∧
    s.sSite t = some n ∧ accessOf q = some a ∧ s.takes t q (slotsOf ws) = true ∧ s.decode t a.aliased a.off a.len = some ws ∧
    (∀ w ∈ ws, s.savedWord t w = none) ∧ ws.Nodup ∧ a.bytes.length = a.len ∧ s.slotTag t 65535 = 2 ∧
    (after (.plainRead t q {}) s).out = [.readData n (List.replicate 64 0) true] ∧
    (after (.plainWrite t q { waitBeats := 3 }) s).wordBytes t ws = List.replicate 64 7 ∧
    (after (.plainWrite t q { waitBeats := 3 }) s).slotTag t 65535 = 1 :=
  ⟨tagged 2, 0, 136, .memop lastSlot, lastSlot, (List.range 8).map fun i => 8 * 65535 + i, canon_of_ok (by decide +kernel), by decide +kernel⟩

/-- A plain write of a part of an empty slot leaves it empty; one with a poison mark poisons it. -/
theorem test_plain_write_tags : (after (.plainWrite 0 (.ringEngine { lastSlot with off := 0x3FFFF8, len := 8, bytes := List.replicate 8 1 }) {}) (tagged 0)).slotTag 0 65535 = 0 ∧
    (after (.plainWrite 0 (.ingress lastPoisoned) {}) (tagged 0)).slotTag 0 65535 = 2 := by decide +kernel

/-- What the statement on synchronised accesses asks of the access `a` of requester `q` to the whole of slot 65,535. -/
def syncOk (s : State) (q : Requester) (a : Access) : Bool :=
  canonOk s && s.sSite 0 == some 136 && decide (accessOf q = some a) && s.takes 0 q [65535]
    && decide (slotsOf (slotWords 65535) = [65535]) && decide (s.decode 0 a.aliased a.off a.len = some (slotWords 65535))
    && ((slotWords 65535).all fun w => s.savedWord 0 w == none) && decide ((slotWords 65535).Nodup)
    && decide (a.bytes.length = a.len) && decide (a.off % 64 = 0 ∧ a.len = 64) && !s.inPassage 0 65535

theorem witness_ScratchpadAccesses_take : ∃ s u : State, ∃ q : Requester, syncOk s q lastSlot = true ∧ syncOk u q lastSlot = true ∧
    (∀ x, q ≠ .memop x) ∧ s.slotTag 0 65535 = 1 ∧ s.isWide 136 (8 * 65535) = true ∧
    (after (.consume 0 q {}) s).slotTag 0 65535 = 0 ∧ (after (.peek 0 q {}) s).slotTag 0 65535 = 1 ∧
    (after (.consume 0 q {}) s).out = [.readData 136 (List.replicate 64 0) false] ∧ u.slotTag 0 65535 = 1 ∧
    u.isWide 136 (8 * 65535) = false ∧ (after (.consume 0 q {}) u).slotTag 0 65535 = 3 ∧
    ((after (.peek 0 q {}) u).stile 0).passages.map (·.kind) = [.peek] :=
  ⟨tagged 1, narrowed 1, .ringEngine lastSlot, by decide +kernel, by decide +kernel, (by intro x h; cases h), by decide +kernel⟩

theorem witness_ScratchpadAccesses_fill : ∃ s u : State, ∃ q : Requester, syncOk s q lastPoisoned = true ∧ syncOk u q lastPoisoned = true ∧
    (∀ x, q ≠ .memop x) ∧ s.slotTag 0 65535 = 0 ∧ s.isWide 136 (8 * 65535) = true ∧
    (after (.synchronisedWrite 0 q {}) s).slotTag 0 65535 = 2 ∧ ((after (.consume 0 q {}) s).stile 0).blocked.map (·.slot) = [65535] ∧
    u.slotTag 0 65535 = 0 ∧ u.isWide 136 (8 * 65535) = false ∧ (after (.synchronisedWrite 0 q {}) u).slotTag 0 65535 = 3 ∧
    ((after (.synchronisedWrite 0 q {}) u).stile 0).passages.map (·.poison) = [true] :=
  ⟨tagged 0, narrowed 0, .ingress lastPoisoned, by decide +kernel, by decide +kernel, (by intro x h; cases h), by decide +kernel⟩

/-- A plain-read stream on the wide port to Bond side 2: base word 8, 2 units. -/
def readStream : List Nat := [8 * 2 ^ 45 + 2 * 2 ^ 37, 2 * 2 ^ 44 + 2 ^ 32 + 2 ^ 20, 0, 0]

theorem witness_ScratchpadAccesses_stream : ∃ (s : State) (t : STile) (n : Nat) (k : Fin 4) (ws : List Nat) (i : Nat), s.Canonical ∧
    s.sSite t = some n ∧ s.agRecord t k = some (n, ws, i) ∧ srMode ws = 0 ∧ srPortOf ws i < 4 ∧ s.outFree n (srPortOf ws i) = true ∧
    srPortOf ws i < (s.bondOf n).engineOut.length ∧ (s.stile t).ags.length = 4 ∧ s.agSaved t ws i = none ∧ i + 1 = srUnits ws ∧
    ((after (.plainRead t (.ag k) {}) s).bondOf n).engineOut.getD 2 [] = [{ data := 5 }] ∧
    (after (.plainRead t (.ag k) {}) s).ag t k = { recIx := 1 } :=
  ⟨stored (onScratch (scratchPlan [] [readStream]) { ags := [{ cur := some readStream, unit := 1 }, {}, {}, {}] }) (scratchAddr 0 128) [5], 0, 136, 0,
    readStream, 1, canon_of_ok (by decide +kernel), by decide +kernel⟩

/-- Mortar ingress holds a write of the last slot aside. -/
def blockedWrite : Blocked := ⟨.ingress lastSlot, .write, 65535, List.replicate 64 7, false, [], false, 1⟩

theorem witness_ScratchpadEngines_retry : ∃ (s u : State) (t : STile) (i k : Nat), s.Canonical ∧ u.Canonical ∧ s.sSite t = some 136 ∧
    u.sSite t = some 136 ∧ (s.stile t).blocked[i]? = some blockedWrite ∧ (u.stile t).blocked[i]? = some blockedWrite ∧ (s.stile t).gates = [] ∧
    (u.stile t).gates = [] ∧ k = 65535 ∧
    s.syncReady t k .write = true ∧ s.isWide 136 (8 * k) = true ∧ u.syncReady t k .write = true ∧ u.isWide 136 (8 * k) = false ∧
    ((after (.blockedAccessRetry t i 0 {}) s).stile t).blocked = [] ∧ (after (.blockedAccessRetry t i 0 {}) s).slotTag t k = 1 ∧
    (after (.blockedAccessRetry t i 0 {}) u).slotTag t k = 3 :=
  ⟨onScratch (scratchPlan [] []) { blocked := [blockedWrite] }, State.withRegs (onScratch (scratchPlan [] []) { blocked := [blockedWrite] }) [(0x3088, 0x50, 2 ^ 14)],
    0, 0, 65535, canon_of_ok (by decide +kernel), canon_of_ok (by decide +kernel), by decide +kernel⟩

theorem witness_ScratchpadEngines_wait : ∃ (s : State) (t : STile) (i k beats : Nat), s.Canonical ∧
    s.sSite t = some 136 ∧ (s.stile t).blocked[i]? = some blockedWrite ∧ (s.stile t).gates = [] ∧ k = 65535 ∧ s.syncReady t k .write = false ∧
    0 < beats ∧ (after (.blockedAccessRetry t i beats {}) s).reg 0x3088 0x53 = beats :=
  ⟨{ onScratch (scratchPlan [] []) { blocked := [blockedWrite] } with tags := [(65535, 3)] }, 0, 0, 65535, 9,
    canon_of_ok (by decide +kernel), by decide +kernel⟩

/-- A consume of slot 0, which a channel's receive ring 15 holds, waits until it is full: the beats are the partner's. -/
theorem witness_ScratchpadEngines_receiver : ∃ (s : State) (t : STile) (i beats : Nat) (b : Blocked) (r : Nat × Ring), s.Canonical ∧
    s.sSite t = some 136 ∧ (s.stile t).blocked[i]? = some b ∧ b.kind = .consume ∧ b.tag = 0 ∧ b.msg = false ∧
    (s.tileRings t).find? (fun x => decide (rdKind x.2.desc = 2 ∧ rdSlot x.2.desc ≤ b.slot ∧ b.slot < rdSlot x.2.desc + rdSlots x.2.desc)) = some r ∧
    s.syncReady t b.slot .consume = false ∧ rdPartner r.2.desc = 16 ∧ beats = 9 ∧
    ((after (.blockedAccessRetry t i beats {}) s).ring 16).receiverStall = 9 :=
  ⟨{ onScratch (scratchPlan [] []) { blocked := [{ who := .ag 3, kind := .consume, slot := 0 }] } with
      rings := [(15, { desc := ringDesc 2 4 0 16 100 })] }, 0, 0, 9, { who := .ag 3, kind := .consume, slot := 0 },
    (15, { desc := ringDesc 2 4 0 16 100 }), canon_of_ok (by decide +kernel), by decide +kernel⟩

/-- A synchronised-write stream on a narrow port: base word 8 * 65,535, 8 units. -/
def writeStream : List Nat := [2 ^ 62 + 8 * 65535 * 2 ^ 41 + 2 * 2 ^ 37, 8 * 2 ^ 44 + 2 ^ 32 + 2 ^ 20, 0, 0]

theorem witness_ScratchpadEngines_passage : ∃ (s : State) (t : STile) (k : Fin 4) (slot : Nat) (bs : List Byte) (po : Bool) (ws : List Nat), s.Canonical ∧
    s.sSite t = some 136 ∧ (s.stile t).passages = [⟨.ag k, .write, slot, bs, po, [], false⟩] ∧ bs.length = 64 ∧ (s.stile t).ags.length = 4 ∧
    (s.ag t k).cur = some ws ∧ s.sHalted t = false ∧ (s.stile t).gates = [] ∧ s.slotTag t slot = 3 ∧
    (after (.slotPassageEnd t slot {}) s).slotTag t slot = 2 ∧
    ((after (.slotPassageEnd t slot {}) s).ag t k).recIx = 1 :=
  ⟨{ onScratch (scratchPlan [] []) { passages := [⟨.ag 3, .write, 65535, List.replicate 64 7, true, [], false⟩], ags := [{}, {}, {}, { cur := some writeStream }] } with
      tags := [(65535, 3)] }, 0, 3, 65535, List.replicate 64 7, true, writeStream, canon_of_ok (by decide +kernel), by decide +kernel⟩

/-- A write-back and a rewrite are owed for word 9; row 2,047 is the last that bank 31's patrol reads. -/
theorem witness_ScratchpadEngines_owed : ∃ (s : State) (t : STile) (n : Nat) (bank : Fin 32), s.Canonical ∧ s.sSite t = some n ∧
    s.reg 0x29E0 0x01 ≠ 0 ∧ (s.stile t).patrol.getD bank 0 = 2047 ∧ ((after (.patrolScrub t bank {}) s).stile t).patrol.getD bank 1 = 0 ∧
    ((after (.correctedWriteBack t 9) s).stile t).writeBacks = [8] ∧ ((after (.poisonRewrite t 9) s).stile t).rewrites = [] :=
  ⟨onScratch (scratchPlan [] []) { writeBacks := [8, 9], rewrites := [9], patrol := List.replicate 32 2047 }, 0, 136, 31,
    canon_of_ok (by decide +kernel), by decide +kernel⟩

theorem witness_ScratchpadEngines_stream : ∃ (s : State) (t : STile) (n : Nat) (k : Fin 4) (p : TilePlan) (ws : List Nat), s.Canonical ∧
    s.sSite t = some n ∧ s.planOf n = some p ∧ s.unitProgram n = none ∧ (s.mtile n).halted = false ∧ (s.ag t k).cur = none ∧ (s.stile t).ags.length = 4 ∧
    (p.streams.getD k [])[(s.ag t k).recIx]? = some ws ∧ srUnits ws = 2 ∧
    (after (.streamRecordStart t k) s).ag t k = { recIx := 1, cur := some ws } :=
  ⟨onScratch (scratchPlan [] [[0, 0], readStream]) { ags := [{ recIx := 1 }, {}, {}, {}] }, 0, 136, 0, scratchPlan [] [[0, 0], readStream], readStream,
    canon_of_ok (by decide +kernel), by decide +kernel⟩

/-- The first record fills the last two words; the second copies three words forward onto themselves. -/
def memRecords : List (List Nat) :=
  [[2 ^ 62 + 524286 * 2 ^ 41, 2 * 2 ^ 44, 0xABCD, 0], [2 * 2 ^ 62 + 9 * 2 ^ 41 + 8 * 2 ^ 22, 3 * 2 ^ 44, 0, 0]]

theorem witness_ScratchpadEngines_fill : ∃ (s : State) (t : STile) (n : Nat) (r : RunTile) (p : TilePlan) (ws : List Nat) (m : MemRec), s.Canonical ∧
    s.sSite t = some n ∧ s.active n = some r ∧ s.sHalted t = false ∧ s.planOf n = some p ∧ p.recs[(s.stile t).memIx]? = some ws ∧ memRecOf ws = m ∧ m.tagAction = 0 ∧
    s.memSaved t m = none ∧ m.op = 1 ∧ m.len = 2 ∧ (after (.memopFill t {}) s).word t 524287 = 0xABCD ∧ ((after (.memopFill t {}) s).stile t).memIx = 1 :=
  ⟨onScratch (scratchPlan memRecords []) {}, 0, 136, ⟨0, 0, false⟩, scratchPlan memRecords [], [2 ^ 62 + 524286 * 2 ^ 41, 2 * 2 ^ 44, 0xABCD, 0],
    ⟨1, 0, 524286, 0, 2, 0xABCD⟩, canon_of_ok (by decide +kernel), by decide +kernel⟩

theorem witness_ScratchpadEngines_copy : ∃ (s : State) (t : STile) (n : Nat) (r : RunTile) (p : TilePlan) (ws : List Nat) (m : MemRec), s.Canonical ∧
    s.sSite t = some n ∧ s.active n = some r ∧ s.sHalted t = false ∧ s.planOf n = some p ∧ p.recs[(s.stile t).memIx]? = some ws ∧ memRecOf ws = m ∧ m.tagAction = 0 ∧
    s.memSaved t m = none ∧ m.op = 2 ∧ s.tileRings t = [] ∧ m.len = 3 ∧ (∀ i < m.len, s.slotTag t ((m.src + i) / 8) ≠ 2) ∧ s.word t 8 = 1 ∧ s.word t 9 = 2 ∧ s.word t 10 = 3 ∧
    (after (.memopCopy t {}) s).word t 9 = 1 ∧ (after (.memopCopy t {}) s).word t 10 = 2 ∧ (after (.memopCopy t {}) s).word t 11 = 3 :=
  ⟨stored (onScratch (scratchPlan memRecords []) { memIx := 1 }) (scratchAddr 0 64) ([1, 0, 0, 0, 0, 0, 0, 0] ++ [2, 0, 0, 0, 0, 0, 0, 0] ++ [3]), 0, 136,
    ⟨0, 0, false⟩, scratchPlan memRecords [], [2 * 2 ^ 62 + 9 * 2 ^ 41 + 8 * 2 ^ 22, 3 * 2 ^ 44, 0, 0], ⟨2, 0, 9, 8, 3, 0⟩,
    canon_of_ok (by decide +kernel), by decide +kernel⟩

/-! ## The F-tile -/

/-- A function record: opcode, registers A to D, source, output, length, format word. -/
def laneRecord (op a b c d src out len fw : Nat) : List Nat :=
  [op * 2 ^ 56 + a * 2 ^ 50 + b * 2 ^ 44 + c * 2 ^ 38 + d * 2 ^ 32 + src * 2 ^ 29 + out * 2 ^ 26 + len * 2 ^ 11, fw * 2 ^ 32, 0, 0]

/-- Context 0 runs one function record on F-tile 0, at site 340; its registers 0 to 2 begin with (2, 3), (4, -1), (0.5, 0),
and engine input 1 holds one transfer of BF16 ones. -/
def onLanes (ws : List Nat) : State :=
  { dev (ctxOn 1) with
    running := [(340, some ⟨0, 0, false⟩)]
    plans := [(1280, some { ctx := 0, stamp := 0, section_ := 0, plan := ⟨320, 2, 0, [], [], [], [], [], [ws], [], []⟩ })]
    bond := [(340, { engineIn := [[], [{ data := packCodes 16 (List.replicate 32 0x3F80) }], [], []] })]
    vreg := [(vkey 340 0 0, { val := 0x40000000 }), (vkey 340 0 1, { val := 0x40400000 }), (vkey 340 1 0, { val := 0x40800000 }),
             (vkey 340 1 1, { val := 0xBF800000 }), (vkey 340 2 0, { val := 0x3F000000 })] }

/-- Operand A in register 0: 2 and 3. -/
def laneA : List FWord := [{ val := 0x40000000 }, { val := 0x40400000 }]

/-- A record of two lanes from registers 0 to 2 to register 3. -/
def regRecord (op : Nat) : List Nat := laneRecord op 0 1 2 3 4 4 2 0

/-- A record of 32 lanes of BF16 blocks from Bond port 1 to Bond port 2. -/
def bondRecord (op : Nat) : List Nat := laneRecord op 0 1 2 3 1 2 32 (5 * 2 ^ 28)

/-- The opcodes of the elementwise and special functions, the reductions, the quantisers and MOVE, which a register can feed. -/
def regOps : List Nat := [1, 2, 3, 4, 5, 6, 7, 8, 9, 10, 11, 0x10, 0x11, 0x12, 0x13, 0x20, 0x21, 0x30]

theorem witness_LanesCompute_register (op : Nat) (h : op ∈ regOps) : (onLanes (regRecord op)).Canonical ∧
    (onLanes (regRecord op)).LaneRun 340 op 0 (regRecord op) laneA :=
  have hc : ∀ op ∈ regOps, canonOk (onLanes (regRecord op)) = true := by decide +kernel
  have hr : ∀ op ∈ regOps, (onLanes (regRecord op)).laneRecord 340 op = some (0, regRecord op) ∧ frLen (regRecord op) = 2 ∧
      laneA.length = frTakes (regRecord op) ∧
      (onLanes (regRecord op)).operandA 340 (regRecord op) [] = some (laneA, 0, 0, 0) ∧ frOut (regRecord op) = 4 := by decide +kernel
  have r := hr op h
  ⟨canon_of_ok (hc op h), r.1, by omega, ⟨0, 0, 0, r.2.2.2.1⟩, r.2.2.1, .inl r.2.2.2.2⟩

/-- The opcodes that read the format of their record from Bond, and the lanes that they take. -/
def bondOps : List Nat := [1, 2, 3, 4, 5, 6, 7, 8, 9, 10, 11, 0x10, 0x11, 0x12, 0x13, 0x22, 0x30]

/-- All but the quantisers read the format of their record: also DEQUANTISE (0x22); SOFTMAX_COMBINE takes a pair. -/
theorem witness_LanesCompute_bond (op : Nat) (h : op ∈ bondOps) : (onLanes (bondRecord op)).Canonical ∧
    (onLanes (bondRecord op)).LaneRun 340 op 0 (bondRecord op) (List.replicate (if op = 0x13 then 2 else 32) { val := 0x3F800000 }) :=
  have hc : ∀ op ∈ bondOps, canonOk (onLanes (bondRecord op)) = true := by decide +kernel
  have hr : ∀ op ∈ bondOps, (onLanes (bondRecord op)).laneRecord 340 op = some (0, bondRecord op) ∧ frLen (bondRecord op) = 32 ∧
      (List.replicate (if op = 0x13 then 2 else 32) ({ val := 0x3F800000 } : FWord)).length = frTakes (bondRecord op) ∧
      (onLanes (bondRecord op)).operandA 340 (bondRecord op) [] =
        some (List.replicate (if op = 0x13 then 2 else 32) { val := 0x3F800000 }, 1, 0, 0) ∧
      frOutPort (bondRecord op) = 2 := by decide +kernel
  have hb : ((onLanes (bondRecord op)).bondOf 340).engineOut.length = 4 := rfl
  have r := hr op h
  ⟨canon_of_ok (hc op h), r.1, by omega, ⟨1, 0, 0, r.2.2.2.1⟩, r.2.2.1, .inr (by omega)⟩

/-- The value that register 3 has in lane `e` after a command. -/
def lane3 (c : Instr) (op e : Nat) : F32 := ((after c (onLanes (regRecord op))).vregAt (vkey 340 3 e)).val

theorem test_lanes : lane3 (.fma 340 {}) 1 0 = 0x41080000 ∧ lane3 (.fma 340 {}) 1 1 = 0xC0400000 ∧ lane3 (.add 340 {}) 2 1 = 0x40000000 ∧
    lane3 (.mul 340 {}) 3 0 = 0x41000000 ∧ lane3 (.max 340 {}) 4 0 = 0x40800000 ∧ lane3 (.min 340 {}) 5 1 = 0xBF800000 ∧
    lane3 (.recip 340 {}) 9 0 = 0x3F000000 ∧ lane3 (.move 340 {}) 0x30 1 = 0x40400000 := by decide +kernel

/-- The sum of a register is 2 + 3, and the other lanes become +0; the greatest is 3. -/
theorem test_reductions : lane3 (.reduceSum 340 {}) 0x10 0 = 0x40A00000 ∧ lane3 (.reduceSum 340 {}) 0x10 1 = 0 ∧
    lane3 (.reduceMax 340 {}) 0x11 0 = 0x40400000 := by decide +kernel

/-- DEQUANTISE of BF16 ones sends two transfers of FP32 ones. -/
theorem test_dequantise : (((after (.dequantise 340 {}) (onLanes (bondRecord 0x22))).bondOf 340).engineOut.getD 2 []) =
    List.replicate 2 { data := packCodes 32 (List.replicate 16 0x3F800000) } := by decide +kernel

/-- A quantiser's record of two lanes from registers to Bond port 0 in BF16. -/
def rawRecord (op : Nat) : List Nat := laneRecord op 0 0 0 0 4 0 2 (5 * 2 ^ 28)

theorem witness_LanesReduceAndQuantise_raw (op : Nat) (h : op ∈ [0x20, 0x21]) : (onLanes (rawRecord op)).Canonical ∧
    (onLanes (rawRecord op)).LaneRun 340 op 0 (rawRecord op) laneA ∧ 5 ≤ fwBase (frFw (rawRecord op)) :=
  have hc : ∀ op ∈ [0x20, 0x21], canonOk (onLanes (rawRecord op)) = true := by decide +kernel
  have hr : ∀ op ∈ [0x20, 0x21], (onLanes (rawRecord op)).laneRecord 340 op = some (0, rawRecord op) ∧ frLen (rawRecord op) = 2 ∧
      laneA.length = frTakes (rawRecord op) ∧ (onLanes (rawRecord op)).operandA 340 (rawRecord op) [] = some (laneA, 0, 0, 0) ∧
      frOutPort (rawRecord op) = 0 ∧ 5 ≤ fwBase (frFw (rawRecord op)) := by decide +kernel
  have hb : ((onLanes (rawRecord op)).bondOf 340).engineOut.length = 4 := rfl
  have r := hr op h
  ⟨canon_of_ok (hc op h), ⟨r.1, by omega, ⟨0, 0, 0, r.2.2.2.1⟩, r.2.2.1, .inr (by omega)⟩, r.2.2.2.2.2⟩

theorem witness_LanesReduceAndQuantise_u2 : ∃ (s : State) (n : Site) (q : RunTile) (l : Nat) (p : SlotPlan), s.Canonical ∧ s.active n = some q ∧
    s.tileOf n = some l ∧ s.planAt (l * 4 + q.slot) = some p ∧ p.u2.isSome = true ∧ ((after (.u2HaltWord n 5) s).ftile n).u2Halted = true :=
  ⟨{ onLanes [] with plans := [(1280, some { ctx := 0, stamp := 0, section_ := 0, plan := ⟨320, 2, 0, [], [], [], [], [], [[]], [], []⟩, u2 := some [0] })] },
    340, ⟨0, 0, false⟩, 320, { ctx := 0, stamp := 0, section_ := 0, plan := ⟨320, 2, 0, [], [], [], [], [], [[]], [], []⟩, u2 := some [0] },
    canon_of_ok (by decide +kernel), by decide +kernel⟩

theorem witness_LanesReduceAndQuantise_mode : ∃ (s : State) (p : Path) (x : Ctx) (v : Nat), s.Canonical ∧ s.serves p = true ∧
    s.controllerDown = false ∧ v ≤ 1 ∧ s.hasSlots x = false ∧ (after (.executionModeWrite p x v) s).reg (0x2700 + x) 0x20 = 1 ∧
    (onLanes []).hasSlots 0 = true :=
  ⟨dev [], .canB, 63, 1, canon_of_ok (by decide +kernel), by decide +kernel⟩

/-! ## Bond -/

/-- A route without spill: source kind, number and output, destination kind, number and input, queue entries. -/
def routeOf (sk sn so dk dn di entries : Nat) : Route := ⟨sk, sn, so, dk, dn, di, entries, 0, 0, false, 0, 0⟩

/-- The plan of F-tile 0 with routes and elements; its one record takes Bond port 1. -/
def bondPlan (routes : List Route) (elems : List Elem) : TilePlan := ⟨320, 2, 0, routes, [], elems, [], [], [bondRecord 1], [], []⟩

/-- Context 0 runs a plan on F-tile 0, at site 340, with Bond state `b` there and `b'` at site 341, its neighbour to the
east. -/
def onBond (p : TilePlan) (b b' : BondTile) : State :=
  { dev (ctxOn 1) with
    running := [(340, some ⟨0, 0, false⟩)]
    plans := [(1280, some { ctx := 0, stamp := 0, section_ := 0, plan := p })]
    bond := (if b = {} then [] else [(340, b)]) ++ if b' = {} then [] else [(341, b')] }

/-- A transfer of channel 7. -/
def someTransfer : Transfer := { data := 99, chan := 7 }

/-- Site 0 is fenced into bypass, so that site 1 serves tile 0, to the west of which X-tile 127 attaches; `p` runs there. -/
def westEdge (p : TilePlan) (b b' : BondTile) (x : XCore) : State :=
  { dev (ctxOn 1 ++ [(0x2410, 1, 1)]) with
    fencedAs := [(0, 3)]
    running := [(1, some ⟨0, 0, false⟩)]
    plans := [(0, some { ctx := 0, stamp := 0, section_ := 0, plan := p })]
    bond := (if b = {} then [] else [(0, b)]) ++ if b' = {} then [] else [(1, b')]
    xtiles := if x = {} then [] else [(127, x)] }

/-- The transfer for X-tile 127 waits in the stage of the site in bypass; the link code finds nothing, or a token lane stops. -/
theorem witness_BondMovesTransfers_intoX : ∃ (s : State) (x : XTile) (n m : Nat), s.Canonical ∧ s.siteOf (xLogical x) = some n ∧ n = 1 ∧
    m = (s.xPath x n).headD n ∧ m = 0 ∧ (s.xtile x).orphan = false ∧ s.staged m (xPort x) someTransfer ∧
    ((after (.bondTransferHop (.intoX x) .none 2 3) s).xtile x).inq = [someTransfer] ∧ (after (.bondTransferHop (.intoX x) .none 2 3) s).reg 0x3000 0x74 = 1 ∧
    ((after (.bondTransferHop (.intoX x) .token 2 3) s).bondOf m).stopped = [false, false, false, true] ∧
    (after (.bondTransferHop (.intoX x) .token 2 3) s).reg 0x3000 0x78 = 1 :=
  ⟨westEdge (bondPlan [] []) { stages := [none, none, none, some someTransfer] } {} {}, 127, 1, 0, canon_of_ok (by decide +kernel), by decide +kernel, rfl,
    by decide +kernel, rfl, by decide +kernel, ⟨by decide +kernel, by decide +kernel⟩, by decide +kernel⟩

theorem witness_BondMovesTransfers_inbound : ∃ (s : State) (n : Site) (c : Nat) (p : TilePlan) (u2 : Bool) (ri : Nat) (r : Route) (d : Dir) (m : Nat),
    s.Canonical ∧ s.takesBond n = some (c, p, u2) ∧ routeFrom p d someTransfer.chan 0 = some (ri, r) ∧ s.hasPlace n p u2 ri r 2 0 ∧ m ≠ n.val ∧ s.linkFrom n d m ∧
    s.staged m (opposite d) someTransfer ∧ m = 341 ∧
    (after (.bondTransferHop (.inbound n d) .data 2 3) s).queueOf n 0 = [{ someTransfer with poison := true }] ∧
    (after (.bondTransferHop (.inbound n d) .data 2 3) s).reg 0x3155 0x74 = 1 ∧
    (after (.bondTransferHop (.inbound n d) .none 2 3) s).reg 0x3155 0x73 = 3 ∧ (after (.bondTransferHop (.inbound n d) .none 2 3) s).reg 0x3154 0x72 = 2 :=
  ⟨onBond (bondPlan [routeOf 1 7 0 4 1 0 1] []) { queues := [[]] } { stages := [none, none, none, some someTransfer] }, 340, 0,
    bondPlan [routeOf 1 7 0 4 1 0 1] [], false, 0, routeOf 1 7 0 4 1 0 1, 1, 341, canon_of_ok (by decide +kernel), by decide +kernel, by decide +kernel,
    ⟨by decide +kernel, by decide, fun h => by simp at h⟩, by decide, .inl ⟨[], 341, by decide +kernel⟩, ⟨by decide +kernel, by decide +kernel⟩, by decide +kernel⟩

/-- X-tile 127's transfer has passed the bypass site 0 and waits in its stage; X-tile 0, on port 0 of site 1, holds another. -/
theorem witness_BondMovesTransfers_fromX : ∃ (s : State) (n : Site) (c : Nat) (p : TilePlan) (u2 : Bool) (r r0 : Route) (d : Dir) (m : Nat),
    s.Canonical ∧ s.takesBond n = some (c, p, u2) ∧ routeFrom p d someTransfer.chan 0 = some (0, r) ∧ s.hasPlace n p u2 0 r 2 0 ∧ m ≠ n.val ∧ s.linkFrom n d m ∧
    s.staged m (opposite d) someTransfer ∧ m = 0 ∧ (after (.bondTransferHop (.inbound n d) .corrected 2 3) s).queueOf n 0 = [someTransfer] ∧
    routeFrom p 0 someTransfer.chan 0 = some (1, r0) ∧ s.hasPlace n p u2 1 r0 2 0 ∧ s.tileOf n = some 0 ∧ logicalNeighbour 0 d = none ∧ xOfTile 0 d = some 127 ∧
    s.xPath 0 n = [] ∧ (s.xtile 127).outq = [] :=
  ⟨westEdge (bondPlan [routeOf 3 7 0 4 1 0 1, routeOf 0 7 0 4 2 0 1] []) { stages := [none, some someTransfer, none, none] } { queues := [[], []] } {}, 1, 0,
    bondPlan [routeOf 3 7 0 4 1 0 1, routeOf 0 7 0 4 2 0 1] [], false, routeOf 3 7 0 4 1 0 1, routeOf 0 7 0 4 2 0 1, 3, 0, canon_of_ok (by decide +kernel),
    by decide +kernel, by decide +kernel, ⟨by decide +kernel, by decide, fun h => by simp at h⟩, by decide,
    .inr ⟨0, 127, by decide +kernel⟩, ⟨by decide +kernel, by decide +kernel⟩, rfl, by decide +kernel, by decide +kernel,
    ⟨by decide +kernel, by decide, fun h => by simp at h⟩, by decide +kernel⟩

/-- X-tile 0 gives a transfer to the tile at its attachment site, site 1, with no bypass between. -/
theorem witness_BondMovesTransfers_edge : ∃ (s : State) (n : Site) (c : Nat) (p : TilePlan) (u2 : Bool) (r : Route) (l x : Nat),
    s.Canonical ∧ s.takesBond n = some (c, p, u2) ∧ routeFrom p 0 someTransfer.chan 0 = some (0, r) ∧ s.hasPlace n p u2 0 r 2 0 ∧
    s.tileOf n = some l ∧ logicalNeighbour l 0 = none ∧ xOfTile l 0 = some x ∧ s.deadBetween n (xSite x) = false ∧ s.xPath x n = [] ∧
    (s.xtile x).orphan = false ∧ (s.xtile x).stopped = false ∧ (s.xtile x).outq = [someTransfer] ∧
    (after (.bondTransferHop (.inbound n 0) .none 2 3) s).queueOf n 0 = [someTransfer] ∧ ((after (.bondTransferHop (.inbound n 0) .none 2 3) s).xtile x).outq = [] :=
  ⟨{ dev (ctxOn 1) with running := [(1, some ⟨0, 0, false⟩)], plans := [(4, some { ctx := 0, stamp := 0, section_ := 0, plan := bondPlan [routeOf 0 7 0 4 1 0 1] [] })],
                        bond := [(1, { queues := [[]] })], xtiles := [(0, { outq := [someTransfer] })] }, 1, 0, bondPlan [routeOf 0 7 0 4 1 0 1] [], false,
    routeOf 0 7 0 4 1 0 1, 1, 0, canon_of_ok (by decide +kernel), by decide +kernel, by decide +kernel, ⟨by decide +kernel, by decide, fun h => by simp at h⟩, by decide +kernel⟩

/-- Site 341 is fenced into bypass, so site 342's transfer to the west waits in its stage. -/
theorem witness_BondMovesTransfers_bypass : ∃ (s : State) (b : Site) (d : Dir) (m : Nat), s.Canonical ∧
    s.bypassOpen b (opposite d) ∧ m ≠ b.val ∧ s.bypassFrom b d m ∧ s.staged m (opposite d) someTransfer ∧ m = 342 ∧
    ((after (.bondTransferHop (.bypass b d) .none 2 3) s).bondOf 341).stages.getD 3 none = some someTransfer ∧
    (after (.bondTransferHop (.bypass b d) .none 2 3) s).reg 0x3155 0x72 = 3 :=
  ⟨{ dev [(0x2410, 6, 2)] with fencedAs := [(341, 3)], bond := [(342, { stages := [none, none, none, some someTransfer] })] }, 341, 1, 342,
    canon_of_ok (by decide +kernel), ⟨by decide +kernel, by decide +kernel, by decide +kernel⟩, by decide,
    .inl ⟨by decide +kernel, .inl rfl, 340, [341], 342, by decide +kernel⟩, ⟨by decide +kernel, by decide +kernel⟩, rfl, by decide +kernel⟩

/-- The bypass site 0 takes site 1's transfer for X-tile 127, and X-tile 127's for site 1. -/
theorem witness_BondMovesTransfers_bypassX : ∃ (s : State) (b : Site) (d e : Dir) (m x n : Nat), s.Canonical ∧
    s.bypassOpen b (opposite d) ∧ m ≠ b.val ∧ s.bypassFrom b d m ∧ s.staged m (opposite d) someTransfer ∧ m = 1 ∧
    ((after (.bondTransferHop (.bypass b d) .none 2 3) s).bondOf 0).stages.getD 3 none = some someTransfer ∧
    s.bypassOpen b (opposite e) ∧ s.xThrough b e = some (x, n) ∧ xPort x = e ∧ s.deadBetween n (xSite x) = false ∧ (s.xPath x n).head? = some b.val ∧
    (s.xtile x).orphan = false ∧ (s.xtile x).stopped = false ∧ (s.xtile x).outq = [someTransfer] ∧
    ((after (.bondTransferHop (.bypass b e) .none 2 3) s).bondOf 0).stages.getD 1 none = some someTransfer ∧
    ((after (.bondTransferHop (.bypass b e) .none 2 3) s).xtile x).outq = [] :=
  ⟨westEdge (bondPlan [] []) {} { stages := [none, none, none, some someTransfer] } { outq := [someTransfer] }, 0, 1, 3, 1, 127, 1, canon_of_ok (by decide +kernel),
    ⟨by decide +kernel, by decide +kernel, by decide +kernel⟩, by decide, .inr ⟨127, 1, by decide +kernel⟩, ⟨by decide +kernel, by decide +kernel⟩, rfl,
    by decide +kernel, ⟨by decide +kernel, by decide +kernel, by decide +kernel⟩, by decide +kernel⟩

/-- The route's queue holds its one entry, so the transfer leaves for the spill ring. -/
theorem witness_BondMovesTransfers_spill : ∃ (s : State) (n : Site) (c : Nat) (p : TilePlan) (u2 : Bool) (ri : Nat) (r : Route) (tr : Transfer),
    s.Canonical ∧ s.takesBond n = some (c, p, u2) ∧ (s.bondOf n).engineOut.getD 3 [] = [tr] ∧ routeFrom p 4 3 0 = some (ri, r) ∧
    s.hasPlace n p u2 ri r 3 136 ∧ (after (.bondTransferHop (.engineOut n 3) .none 2 3) s).issue.length = 1 ∧
    (after (.bondTransferHop (.engineOut n 3) .none 2 3) s).spilledOf n 0 = 1 :=
  ⟨{ onBond (bondPlan [{ routeOf 4 3 0 4 1 0 1 with spill := true, ring := 15 }] [])
      { queues := [[someTransfer]], spilled := [0], engineOut := [[], [], [], [someTransfer]] } {} with rings := [(15, { desc := ringDesc 0 5 0 0 100 })] },
    340, 0, bondPlan [{ routeOf 4 3 0 4 1 0 1 with spill := true, ring := 15 }] [], false, 0, { routeOf 4 3 0 4 1 0 1 with spill := true, ring := 15 },
    someTransfer, canon_of_ok (by decide +kernel), by decide +kernel, by decide +kernel, by decide +kernel,
    ⟨by decide +kernel, by decide, fun _ => by decide +kernel⟩, by decide +kernel⟩

theorem witness_BondMovesTransfers_engine : ∃ (s : State) (n : Site) (c : Nat) (p : TilePlan) (u2 : Bool) (ri : Nat) (r : Route) (tr : Transfer) (k : Fin 16),
    s.Canonical ∧ s.takesBond n = some (c, p, u2) ∧ (s.bondOf n).engineOut.getD k [] = [tr] ∧ routeFrom p 4 k 0 = some (ri, r) ∧ s.hasPlace n p u2 ri r 2 0 ∧
    (after (.bondTransferHop (.engineOut n k) .none 2 3) s).queueOf n 0 = [{ tr with chan := 0 }] :=
  ⟨onBond (bondPlan [routeOf 4 3 0 4 1 0 1] []) { queues := [[]], engineOut := [[], [], [], [someTransfer]] } {}, 340, 0,
    bondPlan [routeOf 4 3 0 4 1 0 1] [], false, 0, routeOf 4 3 0 4 1 0 1, someTransfer, 3, canon_of_ok (by decide +kernel), by decide +kernel,
    by decide +kernel, by decide +kernel, ⟨by decide +kernel, by decide, fun h => by simp at h⟩, by decide +kernel⟩

theorem witness_BondMovesTransfers_steering : ∃ (s : State) (n : Site) (c : Nat) (p : TilePlan) (u2 : Bool) (ri : Nat) (r : Route) (tr : Transfer)
    (e : Fin 16) (o : Fin 4), s.Canonical ∧ s.takesBond n = some (c, p, u2) ∧ ((s.bondOf n).elems.getD e {}).outs.getD o none = some tr ∧
    routeFrom p 5 e o = some (ri, r) ∧ s.hasPlace n p u2 ri r 2 0 ∧
    (after (.bondTransferHop (.steering n e o) .none 2 3) s).queueOf n 0 = [{ tr with chan := 0 }] :=
  ⟨onBond (bondPlan [routeOf 5 15 3 4 1 0 2] []) { queues := [[]], elems := List.replicate 15 {} ++ [{ outs := [none, none, none, some someTransfer] }] } {},
    340, 0, bondPlan [routeOf 5 15 3 4 1 0 2] [], false, 0, routeOf 5 15 3 4 1 0 2, someTransfer, 15, 3, canon_of_ok (by decide +kernel),
    by decide +kernel, by decide +kernel, by decide +kernel, ⟨by decide +kernel, by decide, fun h => by simp at h⟩, by decide +kernel⟩

theorem witness_BondMovesTransfers_queue : ∃ (s : State) (n : Site) (c : Nat) (p : TilePlan) (u2 : Bool) (ri : Nat) (r : Route) (tr : Transfer), s.Canonical ∧
    s.takesBond n = some (c, p, u2) ∧ p.routes[ri]? = some r ∧ s.queueOf n ri = [tr] ∧ s.routeOpen n p u2 r = true ∧
    ((after (.bondTransferHop (.queue n ri) .none 2 3) s).bondOf n).engineIn.getD 1 [] = [tr] :=
  ⟨onBond (bondPlan [routeOf 4 3 0 4 1 0 1] []) { queues := [[someTransfer]] } {}, 340, 0, bondPlan [routeOf 4 3 0 4 1 0 1] [], false, 0,
    routeOf 4 3 0 4 1 0 1, someTransfer, canon_of_ok (by decide +kernel), by decide +kernel⟩

/-- The transfer lies in the ring's last slot and its first; the ring is empty after it. -/
theorem witness_SpilledTransfersReturn : ∃ (s : State) (n : Site) (c ri : Nat) (p : TilePlan) (u2 : Bool) (r : Route) (x : Ring) (k dst : Nat) (run : List Nat),
    s.Canonical ∧ s.takesBond n = some (c, p, u2) ∧ p.routes[ri]? = some r ∧ r.spill = true ∧ 0 < s.spilledOf n ri ∧ r.entries = 0 ∧ s.routeOpen n p u2 r = true ∧
    x = s.ring r.ring ∧ k = ringTile r.ring ∧ rdEnabled x.desc = true ∧ rdCtx x.desc = c ∧ rdKind x.desc = 0 ∧ 128 < rdSize x.desc ∧
    s.ringEngineFree k = true ∧ s.sSite k = some dst ∧ run = ringRun x.desc x.head 2 ∧ (∀ j ∈ run, s.slotHeld k j = true) ∧ s.takesWide r.ring dst run ∧
    x.head < rdSize x.desc ∧ x.head ≠ x.tail ∧ (x.head + 64) % rdSize x.desc ≠ x.tail ∧ (x.head + 128) % rdSize x.desc = x.tail ∧
    run = [3, 0] ∧ (after (.spillRefill n ri 7 {}) s).spilledOf n ri = 0 ∧ ((after (.spillRefill n ri 7 {}) s).bondOf n).engineIn.getD 1 [] = [{}] ∧
    (after (.spillRefill n ri 7 {}) s).slotTag 0 3 = 0 ∧ ((after (.spillRefill n ri 7 {}) s).ring 15).head = 64 ∧
    (after (.spillRefill n ri 7 {}) s).reg 0x3154 0x72 = 7 :=
  ⟨{ onBond (bondPlan [{ routeOf 4 3 0 4 1 0 0 with spill := true, ring := 15 }] []) { queues := [[]], spilled := [1] } {} with
      rings := [(15, { desc := ringDesc 0 5 0 0 100, head := 192, tail := 64 })], tags := [(0, 1), (3, 1)] }, 340, 0, 0,
    bondPlan [{ routeOf 4 3 0 4 1 0 0 with spill := true, ring := 15 }] [], false, { routeOf 4 3 0 4 1 0 0 with spill := true, ring := 15 },
    { desc := ringDesc 0 5 0 0 100, head := 192, tail := 64 }, 0, 136, [3, 0], canon_of_ok (by decide +kernel), by decide +kernel, by decide +kernel, by decide +kernel,
    by decide +kernel, by decide +kernel, by decide +kernel, by decide +kernel, by decide +kernel, by decide +kernel, by decide +kernel, by decide +kernel,
    by decide +kernel, by decide +kernel, by decide +kernel, by decide +kernel, by decide +kernel, (by unfold State.takesWide; decide +kernel), by decide +kernel⟩

/-- The ring's only message goes to the route's empty queue of one entry. -/
theorem test_refill_to_queue :
    (after (.spillRefill 340 0 7 {}) { onBond (bondPlan [{ routeOf 4 3 0 4 1 0 1 with spill := true, ring := 15 }] []) { queues := [[]], spilled := [1] } {} with
      rings := [(15, { desc := ringDesc 0 5 0 0 100, head := 192, tail := 64 })], tags := [(0, 1), (3, 1)] }).queueOf 340 0 = [{}] := by decide +kernel

/-- The F-tile has run its record, and a switch to slot 1 coordinated by site 5 waits for it. -/
def doneState : State :=
  { onBond (bondPlan [] []) {} {} with
    ftiles := [(340, { recIx := 1 })], ctxs := [(0, { switch := some { next := 1, union := [320], coordinator := 5 } })] }

theorem witness_SectionsSwitch_tells : ∃ (s : State) (n : Site) (r : RunTile) (l : Nat) (c : Ctx) (w : SwitchState), s.Canonical ∧ s.canBeDone n = true ∧
    s.active n = some r ∧ s.tileOf n = some l ∧ (∀ c' : Ctx, c' ≠ c → (s.ctx c').switch = none) ∧ (s.ctx r.ctx).runDesc = none ∧ (s.ctx c).switch = some w ∧
    s.ctxRuns c = true ∧ w.union.contains l = true ∧ w.released = false ∧ w.coordinator ≠ n.val ∧
    (after (.tileDone n) s).runningAt n = some { r with done := true } ∧
    (after (.tileDone n) s).issue = [{ packet := flagPacket 0x05 c n w.coordinator w.next }] :=
  ⟨doneState, 340, ⟨0, 0, false⟩, 320, 0, { next := 1, union := [320], coordinator := 5 }, canon_of_ok (by decide +kernel), by decide +kernel, by decide +kernel,
    by decide +kernel, by decide +kernel, by decide +kernel⟩

/-- No switch is under way; with `runDesc` the RUN_SECTION numbered 9 waits for the tiles. -/
def noSwitch (runDesc : Option Nat) : State :=
  { doneState with ctxs := if runDesc.isNone then [] else [(0, { runDesc := runDesc, active := [{ num := 9, words := [] }] })] }

theorem witness_SectionsSwitch_done : ∃ (s u : State) (n : Site) (r : RunTile) (l d : Nat), s.Canonical ∧ u.Canonical ∧ s.canBeDone n = true ∧ u.canBeDone n = true ∧
    s.active n = some r ∧ u.active n = some r ∧ s.tileOf n = some l ∧ u.tileOf n = some l ∧ (s.ctx r.ctx).runDesc = none ∧ (u.ctx r.ctx).runDesc = some d ∧
    (∀ m ∈ u.sectionSites r.ctx, m ≠ n.val → u.siteFree m = true) ∧ (s.ctxs.all fun e => e.2.switch.isNone) = true ∧ (u.ctxs.all fun e => e.2.switch.isNone) = true ∧
    (after (.tileDone n) s).runningAt n = some { r with done := true } ∧ ((after (.tileDone n) u).ctx 0).active.map (·.status) = [some 0] :=
  ⟨noSwitch none, noSwitch (some 9), 340, ⟨0, 0, false⟩, 320, 9, canon_of_ok (by decide +kernel), canon_of_ok (by decide +kernel), by decide +kernel⟩

/-! ## Steering elements -/

/-- Element 15 of F-tile 0 is `w` and stands as `x`. -/
def steer (w : Elem) (x : ElemState) : State :=
  onBond (bondPlan [] (List.replicate 15 ⟨0, 0, 0, [], 0⟩ ++ [w])) { elems := List.replicate 15 {} ++ [x] } {}

theorem steers_of {w : Elem} {x : ElemState} (h : (steer w x).takesBond 340 = some (0, bondPlan [] (List.replicate 15 ⟨0, 0, 0, [], 0⟩ ++ [w]), false) ∧
    w.ways ≤ 4 ∧ ((steer w x).bondOf 340).elems.getD 15 {} = x ∧ 15 < ((steer w x).bondOf 340).elems.length ∧ x.ins.length = 4 ∧ x.outs.length = 4) :
    (steer w x).Steers 340 15 w.kind w x :=
  ⟨⟨0, _, false, h.1, by simp [bondPlan]⟩, rfl, h.2.1, h.2.2.1, h.2.2.2⟩

/-- A fork of four ways with one transfer. -/
def forkNow : ElemState := { ins := [[someTransfer], [], [], []] }

theorem witness_SteeringElementsFire_fork : ∃ (s : State) (n : Site) (e : Fin 16) (w : Elem) (x : ElemState), s.Canonical ∧ s.Steers n e 1 w x ∧
    x.ins.getD 0 [] = [someTransfer] ∧ (∀ o, o < w.ways → x.outs.getD o none = none) ∧
    (((after (.forkFire n e) s).bondOf n).elems.getD e {}).outs = List.replicate 4 (some someTransfer) :=
  ⟨steer ⟨1, 4, 0, [], 1⟩ forkNow, 340, 15, ⟨1, 4, 0, [], 1⟩, forkNow, canon_of_ok (by decide +kernel), steers_of (by decide +kernel), by decide +kernel⟩

/-- A join that takes two transfers from input 0, whose carrier it is, and one poisoned transfer from input 1. -/
def joinNow : ElemState := { ins := [[{ data := 1 }, { data := 2 }], [{ data := 3, poison := true }], [], []] }

theorem witness_SteeringElementsFire_join : ∃ (s : State) (n : Site) (e : Fin 16) (w : Elem) (x : ElemState), s.Canonical ∧ s.Steers n e 2 w x ∧
    w.ways = 2 ∧ (∀ i, i < w.ways → w.takes.getD i 1 ≤ (x.ins.getD i []).length) ∧ x.outs.getD 0 none = none ∧ x.emit = [] ∧
    (((after (.joinFire n e) s).bondOf n).elems.getD e {}).outs.getD 0 none = some { data := 1, poison := true } ∧
    (((after (.joinFire n e) s).bondOf n).elems.getD e {}).emit = [{ data := 2, poison := true }] :=
  ⟨steer ⟨2, 2, 1, [2, 1, 1, 1], 1⟩ joinNow, 340, 15, ⟨2, 2, 1, [2, 1, 1, 1], 1⟩, joinNow, canon_of_ok (by decide +kernel), steers_of (by decide +kernel), by decide +kernel⟩

/-- A token of value `v` waits, and a transfer on each input. -/
def tokenNow (v : Nat) : ElemState := { ctl := [{ value := v, control := true }], ins := List.replicate 4 [someTransfer] }

theorem witness_SteeringElementsFire_switch : ∃ (s : State) (n : Site) (e : Fin 16) (w : Elem), s.Canonical ∧ s.Steers n e 3 w (tokenNow 2) ∧
    2 < w.ways ∧ (((after (.switchFire n e) s).bondOf n).elems.getD e {}).outs = [none, none, some someTransfer, none] ∧
    (((after (.switchFire n e) s).bondOf n).elems.getD e {}).ctl = [] :=
  ⟨steer ⟨3, 3, 0, [], 1⟩ (tokenNow 2), 340, 15, ⟨3, 3, 0, [], 1⟩, canon_of_ok (by decide +kernel), steers_of (by decide +kernel), by decide +kernel⟩

/-- The first value with no output; a group of two keeps the token. -/
theorem witness_SteeringElementsFire_discard : ∃ (s : State) (n : Site) (e : Fin 16) (w : Elem), s.Canonical ∧ s.Steers n e 3 w (tokenNow 3) ∧
    w.ways ≤ 3 ∧ (((after (.switchFire n e) s).bondOf n).elems.getD e {}).ctl.length = 1 ∧ (after (.switchFire n e) s).reg (0x3000 + n) 0x79 = 1 :=
  ⟨steer ⟨3, 3, 0, [], 2⟩ (tokenNow 3), 340, 15, ⟨3, 3, 0, [], 2⟩, canon_of_ok (by decide +kernel), steers_of (by decide +kernel), by decide +kernel⟩

theorem witness_SteeringElementsFire_merge : ∃ (s : State) (n : Site) (e : Fin 16) (w : Elem), s.Canonical ∧ s.Steers n e 4 w (tokenNow 1) ∧
    1 < w.ways ∧ (tokenNow 1).outs.getD 0 none = none ∧ (((after (.mergeFire n e) s).bondOf n).elems.getD e {}).ins.getD 1 [] = [] ∧
    (((after (.mergeFire n e) s).bondOf n).elems.getD e {}).outs.getD 0 none = some someTransfer :=
  ⟨steer ⟨4, 2, 0, [], 1⟩ (tokenNow 1), 340, 15, ⟨4, 2, 0, [], 1⟩, canon_of_ok (by decide +kernel), steers_of (by decide +kernel), by decide +kernel⟩

theorem witness_SteeringElementsFire_filter : ∃ (s u : State) (n : Site) (e : Fin 16) (w : Elem), s.Canonical ∧ s.Steers n e 5 w (tokenNow 255) ∧
    u.Canonical ∧ u.Steers n e 5 w (tokenNow 0) ∧ (((after (.filterFire n e) s).bondOf n).elems.getD e {}).outs.getD 0 none = some someTransfer ∧
    (((after (.filterFire n e) u).bondOf n).elems.getD e {}).outs.getD 0 none = none ∧ (((after (.filterFire n e) u).bondOf n).elems.getD e {}).ins.getD 0 [] = [] :=
  ⟨steer ⟨5, 1, 0, [], 1⟩ (tokenNow 255), steer ⟨5, 1, 0, [], 1⟩ (tokenNow 0), 340, 15, ⟨5, 1, 0, [], 1⟩, canon_of_ok (by decide +kernel), steers_of (by decide +kernel),
    canon_of_ok (by decide +kernel), steers_of (by decide +kernel), by decide +kernel⟩

/-! ## Mortar -/

/-- Context 0 runs on region 0, and the network and the requests are as given. -/
def onNet (net : Tab (List Packet)) (issue : List Request) : State := { dev (ctxOn 1) with net := net, issue := issue }

/-- A SET_FLAG from site 0 to a site. -/
def netFlag (dst : Nat) : Packet := flagPacket 0x01 0 0 dst 0

theorem witness_MortarCarriesPackets_inject : ∃ (s : State) (src : Endpoint) (beats : Nat) (q : Request) (p : Packet), s.Canonical ∧
    s.issue = [q] ∧ q.packet.src = src.val ∧ q.byAddr = false ∧ p = { q.packet with plane := s.planeFor q.packet src } ∧
    s.injectStopped q.packet = false ∧ s.injectReason p = none ∧ p.dst ≠ 0xFFF ∧ s.room (netKey p.plane src 0 p.cls) 18 p = true ∧
    p.cls = 0 ∧ s.reg 0x2A00 0x04 = beats ∧ (after (.packetInject src beats) s).netAt (netKey 0 0 0 0) = [p] ∧
    (after (.packetInject src beats) s).issue = [] :=
  ⟨onNet [] [{ packet := netFlag 1 }], 0, (onNet [] []).reg 0x2A00 4, { packet := netFlag 1 }, netFlag 1, canon_of_ok (by decide +kernel), by decide +kernel⟩

/-- Site 3,263 lies in region 7, outside the context's partition. -/
theorem witness_MortarCarriesPackets_refuse : ∃ (s : State) (src : Endpoint) (q : Request) (p : Packet), s.Canonical ∧ s.issue = [q] ∧
    q.packet.src = src.val ∧ q.byAddr = false ∧ p = { q.packet with plane := s.planeFor q.packet src } ∧ s.injectStopped q.packet = false ∧
    s.injectReason p = some 6 ∧ (after (.packetInject src 0) s).issue = [{ packet := returnOf p 6 0 }] ∧
    (after (.packetInject src 0) s).reg 0x2A00 7 = 1 :=
  ⟨onNet [] [{ packet := netFlag 3263 }], 0, { packet := netFlag 3263 }, netFlag 3263, canon_of_ok (by decide +kernel), by decide +kernel⟩

/-- The packet takes the last free flit of the next buffer, and the last place of the retry buffer. -/
theorem witness_MortarCarriesPackets_hop : ∃ (s : State) (plane : Plane) (node : Endpoint) (port : Fin 5) (cls : Cls) (p : Packet) (d n' : Nat),
    s.Canonical ∧ node.val < 3264 ∧ s.netAt (netKey plane node port cls) = [p] ∧ p.cls = cls.val ∧ p.dst ≠ 0xFFF ∧ adaptive p = false ∧ p.detoured = false ∧
    xyDir node (endpointSite p.dst) = some d ∧ neighbour node d = some n' ∧ s.deadSite n' = false ∧ s.deadSite (endpointSite p.dst) = false ∧
    s.linkFailed plane node d = false ∧ s.moveOf plane node port p = .link d n' (1 + opposite d) false ∧
    s.granted plane node (1 + d) = some (cls.val, port.val) ∧ landing plane n' (1 + opposite d) p false = (netKey 0 1 4 0, 18) ∧
    s.bufferFlits (netKey 0 1 4 0) = 17 ∧ s.room (netKey 0 1 4 0) 18 p = true ∧ (s.link (linkKey plane node d)).unacked + flits p = 32 ∧
    ((after (.routerHop plane node port cls 0) s).netAt (netKey 0 1 4 0)).length = 18 ∧ (after (.routerHop plane node port cls 0) s).reg 0x3000 0x82 = 1 :=
  ⟨{ onNet [(netKey 0 0 0 0, [netFlag 2]), (netKey 0 1 4 0, List.replicate 17 (netFlag 9))] [] with
      links := [(linkKey 0 0 1, { flight := [⟨netFlag 9, [], 31⟩] })] }, 0, 0, 0, 0, netFlag 2, 1, 1, canon_of_ok (by decide +kernel), by decide +kernel⟩

/-- A WRITE of one flit from site 0 to site 69, one column east and one course south. -/
def bulkPacket : Packet := { dst := 69, src := 0, ctx := 0, cls := 2, typ := 0x20, len := 8, payload := List.replicate 8 0, plane := 1 }

/-- The buffer to the east is the fuller one, so the adaptive packet goes south. -/
theorem witness_MortarCarriesPackets_adaptive : ∃ (s : State) (plane : Plane) (node : Endpoint) (port : Fin 5) (cls : Cls) (p : Packet), s.Canonical ∧
    s.netAt (netKey plane node port cls) = [p] ∧ p.cls = cls.val ∧ p.dst ≠ 0xFFF ∧ adaptive p = true ∧ s.moveOf plane node port p = .link 2 68 1 false ∧
    s.granted plane node 3 = some (cls.val, port.val) ∧ s.room (landing plane 68 1 p false).1 (landing plane 68 1 p false).2 p = true ∧
    (s.link (linkKey plane node 2)).unacked + flits p ≤ 32 ∧ (after (.routerHop plane node port cls 0) s).netAt (netKey plane 68 1 cls) = [p] :=
  ⟨onNet [(netKey 1 0 0 2, [bulkPacket]), (netKey 1 1 4 2, [bulkPacket])] [], 1, 0, 0, 2, bulkPacket, canon_of_ok (by decide +kernel), by decide +kernel⟩

theorem witness_MortarCarriesPackets_arrive : ∃ (s : State) (plane : Plane) (node : Endpoint) (port : Fin 5) (cls : Cls) (p : Packet), s.Canonical ∧
    s.netAt (netKey plane node port cls) = [p] ∧ p.cls = cls.val ∧ p.dst ≠ 0xFFF ∧ s.moveOf plane node port p = .eject ∧
    s.granted plane node 0 = some (cls.val, port.val) ∧ s.ejectRoom plane node p = true ∧
    (after (.routerHop plane node port cls 0) s).netAt (netKey plane 1 5 0) = [p] :=
  ⟨onNet [(netKey 0 1 4 0, [netFlag 1])] [], 0, 1, 4, 0, netFlag 1, canon_of_ok (by decide +kernel), by decide +kernel⟩

/-- Site 1 is fenced. -/
theorem witness_MortarCarriesPackets_back : ∃ (s : State) (plane : Plane) (node : Endpoint) (port : Fin 5) (cls : Cls) (p : Packet), s.Canonical ∧
    s.netAt (netKey plane node port cls) = [p] ∧ p.cls = cls.val ∧ p.dst ≠ 0xFFF ∧ s.moveOf plane node port p = .back 1 ∧ p.typ ≠ 0x3E ∧
    (after (.routerHop plane node port cls 0) s).issue = [{ packet := returnOf p 1 1 }] :=
  ⟨State.withRegs (onNet [(netKey 0 1 4 0, [netFlag 1])] []) [(0x2410, 1, 2)], 0, 1, 4, 0, netFlag 1, canon_of_ok (by decide +kernel), by decide +kernel⟩

/-- A SECTION_RELEASE along course 0 from site 0 to site 2. -/
def linePacket : Packet := { flagPacket 0x06 0 0 0xFFF 0 with includeSource := true, farEnd := 2 }

/-- What the statement asks of a multicast that goes on from `node` to `n'` by direction `d`. -/
def lineGoes (s : State) (plane : Plane) (node : Endpoint) (port : Fin 5) (cls : Cls) (p : Packet) (d n' : Nat) : Bool :=
  decide (node.val < 3264) && decide (s.netAt (netKey plane node port cls) = [p]) && decide (p.cls = cls.val ∧ p.dst = 0xFFF ∧ d = lineDir p node)
    && neighbour node d == some n' && !s.deadSite n' && !s.linkFailed plane node d && s.lineAccepts plane n' d p
    && decide ((s.link (linkKey plane node d)).unacked + flits p ≤ 32) && s.granted plane node (1 + d) == some (cls.val, port.val)

theorem witness_MortarCarriesPackets_line : ∃ (s : State) (plane : Plane) (node : Endpoint) (port : Fin 5) (cls : Cls) (p : Packet) (d n' : Nat),
    s.Canonical ∧ lineGoes s plane node port cls p d n' = true ∧ s.lineTarget n' = true ∧ n' ≠ p.farEnd ∧
    ((after (.multicastForward plane node port cls) s).netAt (netKey plane n' 5 cls)).map (·.dst) = [1] ∧
    ((after (.multicastForward plane node port cls) s).netAt (netKey plane n' 4 cls)).map (·.dst) = [0xFFF] :=
  ⟨onNet [(netKey 0 0 0 0, [linePacket])] [], 0, 0, 0, 0, linePacket, 1, 1, canon_of_ok (by decide +kernel), by decide +kernel⟩

theorem witness_MortarCarriesPackets_end : ∃ (s : State) (plane : Plane) (node : Endpoint) (port : Fin 5) (cls : Cls) (p : Packet) (d n' : Nat),
    s.Canonical ∧ lineGoes s plane node port cls p d n' = true ∧ n' = p.farEnd ∧
    ((after (.multicastForward plane node port cls) s).netAt (netKey plane n' 5 cls)).map (·.dst) = [2] ∧
    (after (.multicastForward plane node port cls) s).netAt (netKey plane n' 4 cls) = [] :=
  ⟨onNet [(netKey 0 1 4 0, [linePacket])] [], 0, 1, 4, 0, linePacket, 1, 2, canon_of_ok (by decide +kernel), by decide +kernel⟩

/-- Site 1 is link-dead in the route tables. -/
theorem witness_MortarCarriesPackets_dead : ∃ (s : State) (plane : Plane) (node : Endpoint) (port : Fin 5) (cls : Cls) (p : Packet) (d n' : Nat),
    s.Canonical ∧ node.val < 3264 ∧ s.netAt (netKey plane node port cls) = [p] ∧ p.cls = cls.val ∧ p.dst = 0xFFF ∧ d = lineDir p node ∧
    neighbour node d = some n' ∧ s.deadSite n' = true ∧ p.typ ≠ 0x3E ∧
    (after (.multicastForward plane node port cls) s).issue = [{ packet := returnOf p 4 0 }] :=
  ⟨{ onNet [(netKey 0 0 0 0, [linePacket])] [] with routeState := [(1, 2)] }, 0, 0, 0, 0, linePacket, 1, 1,
    canon_of_ok (by decide +kernel), by decide +kernel⟩

/-- The ejection queue of the next site is full. -/
theorem witness_MortarCarriesPackets_hold : ∃ (s : State) (plane : Plane) (node : Endpoint) (port : Fin 5) (cls : Cls) (p : Packet) (d n' : Nat), s.Canonical ∧
    node.val < 3264 ∧ s.netAt (netKey plane node port cls) = [p] ∧ p.cls = cls.val ∧ p.dst = 0xFFF ∧ d = lineDir p node ∧ neighbour node d = some n' ∧
    s.lineAccepts plane n' d p = false ∧ (after (.multicastHoldThreshold plane node port cls 5) s).reg 0x3000 0x87 = 5 :=
  ⟨onNet [(netKey 0 0 0 0, [linePacket]), (netKey 0 1 5 0, List.replicate 18 (netFlag 1))] [], 0, 0, 0, 0, linePacket, 1, 1,
    canon_of_ok (by decide +kernel), by decide +kernel⟩

theorem ne_next (n : Nat) : n ≠ n + 1 := by omega

theorem witness_MortarCarriesPackets_eject : ∃ (s : State) (plane : Plane) (node : Endpoint) (cls : Cls) (p : Packet) (crc : Nat), s.Canonical ∧ packetCrc p ≠ crc ∧
    node.val < 3264 ∧ s.netAt (netKey plane node 5 cls) = [p] ∧ s.endpointHolds node p = false ∧ malformed p = false ∧ p.poison = false ∧ s.isFenced node = false ∧
    (after (.packetEject plane node cls none) s).delivered = [p] ∧ (after (.packetEject plane node cls none) s).reg (0x3000 + node) 0x81 = 1 :=
  ⟨onNet [(netKey 0 1 5 0, [netFlag 1])] [], 0, 1, 0, netFlag 1, packetCrc (netFlag 1) + 1, canon_of_ok (by decide +kernel), ne_next (packetCrc (netFlag 1)),
    by decide +kernel⟩

/-- One RETURN of a management packet, and one of a context's packet, at site 0. -/
theorem witness_MortarCarriesPackets_return : ∃ (s u : State) (p q : Packet), s.Canonical ∧ u.Canonical ∧ p.typ = 0x3E ∧ s.isNext p = true ∧
    returnedField p 95 90 ∉ [0x02, 0x03, 0x25] ∧ p.management = true ∧ q.typ = 0x3E ∧ u.isNext q = true ∧
    returnedField q 95 90 ∉ [0x02, 0x03, 0x25] ∧ q.management = false ∧ q.payload.getD 16 0 ≠ 1 ∧ u.ctxRuns q.ctx = true ∧
    (after (.returnPacket p {}) s).delivered = [] ∧ (after (.returnPacket p {}) s).ctxState 0 = 1 ∧ (after (.returnPacket q {}) u).ctxState 0 = 2 :=
  ⟨{ onNet [] [] with delivered := [{ returnOf (netFlag 1) 5 1 with management := true }] },
    { onNet [] [] with delivered := [returnOf (netFlag 1) 6 1] },
    { returnOf (netFlag 1) 5 1 with management := true }, returnOf (netFlag 1) 6 1, canon_of_ok (by decide +kernel), canon_of_ok (by decide +kernel),
    by decide +kernel⟩

/-- Direction east of site 0 on plane 1, in a state. -/
def onLink (l : LinkState) : State := { dev [(0x2A00, 3, 2)] with links := [(linkKey 1 0 1, l)] }

/-- The last flit of a packet is on its way. -/
def lastFlit : Flight := ⟨netFlag 1, [], 1⟩

theorem witness_MortarLinksRetryAndFail_receive : ∃ (s : State) (n : Endpoint) (plane : Plane) (d : Dir) (m : Nat) (l : LinkState), s.Canonical ∧
    s.link (linkKey plane n d) = l ∧ s.linkFailed plane n d = false ∧ l.flight = [lastFlit] ∧ l.rejecting = false ∧ routerBeyond n d = some m ∧ m < 3264 ∧
    l.fails + 1 = s.reg 0x2A00 0x03 ∧ (after (.flitReceive n plane d .none) s).link (linkKey plane n d) = {} ∧
    (after (.flitReceive n plane d .corrected) s).reg (0x3000 + m) 0x83 = 1 ∧ ((after (.flitReceive n plane d .bad) s).link (linkKey plane n d)).rejecting = true :=
  ⟨onLink { flight := [lastFlit], expected := 63, fails := 1 }, 0, 1, 1, 1, { flight := [lastFlit], expected := 63, fails := 1 },
    canon_of_ok (by decide +kernel), by decide +kernel⟩

theorem witness_MortarLinksRetryAndFail_fail : ∃ (s : State) (n : Endpoint) (plane : Plane) (d : Dir) (l : LinkState), s.Canonical ∧
    s.link (linkKey plane n d) = l ∧ s.linkFailed plane n d = false ∧ l.flight = [lastFlit] ∧ l.rejecting = false ∧ s.reg 0x2A00 0x03 < l.fails + 1 ∧
    (after (.flitReceive n plane d .bad) s).reg 0x3000 0x8A = 32 ∧ (after (.flitReceive n plane d .bad) s).link (linkKey plane n d) = {} :=
  ⟨onLink { flight := [lastFlit], fails := 2 }, 0, 1, 1, { flight := [lastFlit], fails := 2 }, canon_of_ok (by decide +kernel), by decide +kernel⟩

theorem witness_MortarLinksRetryAndFail_retry : ∃ (s : State) (n : Endpoint) (plane : Plane) (d : Dir) (l : LinkState), s.Canonical ∧
    s.link (linkKey plane n d) = l ∧ s.linkFailed plane n d = false ∧ l.flight = [lastFlit] ∧ l.rejecting = true ∧
    (after (.linkRetry n plane d) s).reg 0x3000 0x84 = 1 ∧ ((after (.linkRetry n plane d) s).link (linkKey plane n d)).retries = 1 :=
  ⟨onLink { flight := [lastFlit], fails := 1, rejecting := true }, 0, 1, 1, { flight := [lastFlit], fails := 1, rejecting := true },
    canon_of_ok (by decide +kernel), by decide +kernel⟩

/-! ## Endpoints -/

/-- Context 0 runs with stacks 0 and 1 online, packet `p` has been delivered, and tile `site` and its slots are as given. -/
def atEnd (p : Packet) : State := { dev (ctxOn 1 ++ hbmOn) with delivered := [p] }

/-- A packet of `len` bytes, each 7, for an address; `n` is the read length. -/
def memPacket (dst typ a len n : Nat) : Packet :=
  { dst := dst, src := 5, ctx := 0, cls := 2, typ := typ, len := len, operand := a + n * 2 ^ 48, payload := List.replicate len 7 }

/-- The packet ends on the last byte of its kilobyte, which stack 1 serves through memory X-tile 7. -/
theorem witness_EndpointsApplyPackets_hbm (typ : Nat) (h : typ ∈ [0x20, 0x21]) : ∃ (s : State) (p : Packet) (x : XTile), s.Canonical ∧
    s.atEndpoint p ∧ p.payload.length = p.len ∧ p.typ = typ ∧ p.dst = 0xD00 + x.val ∧ s.xRefuses x (packetAddr p) p.len = false ∧
    (∀ l ∈ linesOf (packetAddr p) p.len, s.retiredLine l = false) ∧
    (after (if typ = 0x20 then .write p {} else .writeOrdered p {}) s).bytesAt 0x3FF8 8 = List.replicate 8 7 ∧
    (after (if typ = 0x20 then .write p {} else .writeOrdered p {}) s).bytesAt 0x3FF0 8 = List.replicate 8 0 := by
  refine ⟨atEnd (memPacket 0xD07 typ 0x3FF8 8 0), memPacket 0xD07 typ 0x3FF8 8 0, 7, ?_⟩
  rcases List.mem_pair.1 h with rfl | rfl <;> exact ⟨canon_of_ok (by decide +kernel), ⟨by decide +kernel, by decide +kernel, by decide +kernel⟩, by decide +kernel⟩

theorem witness_EndpointsApplyPackets_read : ∃ (s : State) (q : Packet) (x : XTile), s.Canonical ∧ s.atEndpoint q ∧ q.payload.length = q.len ∧
    q.typ = 0x12 ∧ q.dst = 0xD00 + x.val ∧ packetLen q = 8 ∧ s.xRefuses x (packetAddr q) (packetLen q) = false ∧
    ((after (.readRequest q {}) s).issue.map fun r => r.packet.payload) = [List.replicate 8 0] :=
  ⟨atEnd (memPacket 0xD07 0x12 0x3FF8 0 8), memPacket 0xD07 0x12 0x3FF8 0 8, 7, canon_of_ok (by decide +kernel), ⟨by decide +kernel, by decide +kernel, by decide +kernel⟩, by decide +kernel⟩

/-- The last word of the scratchpad of S-tile 0, whose slot is full. -/
theorem witness_EndpointsApplyPackets_scratch : ∃ (s : State) (p : Packet) (k : Nat) (ws : List Nat), s.Canonical ∧ s.atEndpoint p ∧
    s.reaches p p.len k ws ∧ p.payload.length = p.len ∧ p.typ = 0x20 ∧ ws.Nodup ∧ (after (.write p {}) s).word k 524287 = 0x0707070707070707 ∧
    (after (.write p {}) s).slotTag k 65535 = 1 :=
  ⟨{ atEnd (memPacket 136 0x20 0x400003FFFF8 8 0) with tags := [(65535, 1)] }, memPacket 136 0x20 0x400003FFFF8 8 0, 0, [524287],
    canon_of_ok (by decide +kernel), ⟨by decide +kernel, by decide +kernel, by decide +kernel⟩,
    ⟨128, 0x3FFFF8, false, by decide +kernel⟩, by decide +kernel⟩

theorem witness_EndpointsApplyPackets_slot : ∃ (s : State) (q : Packet) (k : Nat) (ws : List Nat), s.Canonical ∧ s.atEndpoint q ∧
    s.reaches q (packetLen q) k ws ∧ q.payload.length = q.len ∧ q.typ = 0x12 ∧ packetLen q = 8 ∧
    ((after (.readRequest q {}) s).issue.map fun r => (r.packet.typ, r.packet.dst, r.packet.payload)) = [(0x23, 5, List.replicate 8 0)] :=
  ⟨{ atEnd (memPacket 136 0x12 0x400003FFFF8 0 8) with tags := [(65535, 1)] }, memPacket 136 0x12 0x400003FFFF8 0 8, 0, [524287],
    canon_of_ok (by decide +kernel), ⟨by decide +kernel, by decide +kernel, by decide +kernel⟩,
    ⟨128, 0x3FFFF8, false, by decide +kernel⟩, by decide +kernel⟩

theorem witness_EndpointsApplyPackets_store : ∃ (s : State) (p : Packet) (l off : Nat), s.Canonical ∧ s.atEndpoint p ∧ p.payload.length = p.len ∧ p.typ = 0x20 ∧
    p.dst < 3264 ∧ s.tileOf p.dst = some l ∧ tileType l = 0 ∧ placeOf (packetAddr p) = .store (mIndex l) off ∧ off + p.len = 0x80000 ∧
    s.writeLocked p.dst off p.len = none ∧ (after (.write p {}) s).bytesAt (storeAddr 0 (off + 7)) 1 = [7] :=
  ⟨atEnd (memPacket 0 0x20 0x5000007FFF8 8 0), memPacket 0 0x20 0x5000007FFF8 8 0, 0, 0x7FFF8, canon_of_ok (by decide +kernel),
    ⟨by decide +kernel, by decide +kernel, by decide +kernel⟩, by decide +kernel⟩

/-- A SYNC_WRITE of slot 65,535 of S-tile 0. -/
def syncPacket : Packet := { memPacket 136 0x22 0x400003FFFC0 64 0 with poison := true }

/-- `v` is the slot's tag. -/
theorem witness_EndpointsApplyPackets_sync (v : Nat) (h : v ∈ [0, 1]) : ∃ (s : State) (k j : Nat), s.Canonical ∧ s.atEndpoint syncPacket ∧
    s.reaches syncPacket 64 k (slotWords j) ∧ syncPacket.payload.length = syncPacket.len ∧ syncPacket.len = 64 ∧ packetAddr syncPacket % 64 = 0 ∧
    s.syncReady k j .write = decide (v = 0) ∧ s.isWide syncPacket.dst (8 * j) = true ∧
    (after (.syncWrite syncPacket {}) s).slotTag k j = (if v = 0 then 2 else 1) ∧ ((after (.syncWrite syncPacket {}) s).stile k).blocked.length = v := by
  refine ⟨{ atEnd syncPacket with tags := if v = 0 then [] else [(65535, 1)] }, 0, 65535, ?_⟩
  rcases List.mem_pair.1 h with rfl | rfl <;> exact ⟨canon_of_ok (by decide +kernel), ⟨by decide +kernel, by decide +kernel, by decide +kernel⟩,
    ⟨128, 0x3FFFC0, false, by decide +kernel⟩, by decide +kernel⟩

/-- The slot's group is narrow port 0's. -/
theorem witness_EndpointsApplyPackets_narrow : ∃ (s : State) (k j : Nat), s.Canonical ∧ s.atEndpoint syncPacket ∧ s.reaches syncPacket 64 k (slotWords j) ∧
    s.syncReady k j .write = true ∧ s.isWide syncPacket.dst (8 * j) = false ∧ (after (.syncWrite syncPacket {}) s).slotTag k j = 3 :=
  ⟨State.withRegs (atEnd syncPacket) [(0x3088, 0x50, 2 ^ 14)], 0, 65535, canon_of_ok (by decide +kernel), ⟨by decide +kernel, by decide +kernel, by decide +kernel⟩,
    ⟨128, 0x3FFFC0, false, by decide +kernel⟩, by decide +kernel⟩

theorem witness_EndpointsApplyPackets_response : ∃ (s : State) (p : Packet), s.Canonical ∧ s.atEndpoint p ∧ p.payload.length = p.len ∧ p.typ = 0x23 ∧
    0xD80 ≤ p.dst ∧ (after (.readResponse p) s).out = [.readData 0xD80 (List.replicate 8 7) false] :=
  ⟨atEnd (memPacket 0xD80 0x23 0 8 0), memPacket 0xD80 0x23 0 8 0, canon_of_ok (by decide +kernel), ⟨by decide +kernel, by decide +kernel, by decide +kernel⟩, by decide +kernel⟩

/-- LOAD_PLAN descriptor 0 of context 0 runs. -/
def loadDesc : ActiveDesc := { num := 0, words := [2 ^ 58, 0, 3, 0, 0, 0, 0, 0], started := true }

/-- The last 8 bytes of the plan of slot 3 of site 0. -/
theorem witness_EndpointsApplyPackets_plan : ∃ (s : State) (p : Packet) (l k : Nat) (x : SlotPlan) (d : ActiveDesc), s.Canonical ∧ s.atEndpoint p ∧
    p.payload.length = p.len ∧ p.typ = 0x25 ∧ p.management = false ∧ p.dst < 3264 ∧ s.stewardUp (siteField p.dst) = true ∧ s.tileOf p.dst = some l ∧
    k = l * 4 + bits p.operand 1 0 ∧ s.planAt k = some x ∧ x.ctx = p.ctx ∧ x.left ≠ 0 ∧ x.left = p.len ∧ s.slotState p.dst 3 = 1 ∧
    (s.ctx p.ctx).active = [d] ∧ dOp d = 1 ∧ d.started = true ∧ d.status = none ∧ (after (.planWrite p) s).slotState p.dst 3 = 2 ∧
    ((after (.planWrite p) s).ctx p.ctx).active = [{ d with status := some 0 }] :=
  ⟨{ State.withRegs (atEnd (memPacket 0 0x25 3 8 0)) [(0x3000, 0x70, 0x1000)] with
      plans := [(3, some { plan [] with left := 8 })], ctxs := [(0, { active := [loadDesc] })] },
    memPacket 0 0x25 3 8 0, 0, 3, { plan [] with left := 8 }, loadDesc, canon_of_ok (by decide +kernel), ⟨by decide +kernel, by decide +kernel, by decide +kernel⟩,
    by decide +kernel⟩

/-! ## The section switch -/

/-- A switch to slot 1, on tile 1, of tiles 0 and 1, coordinated by site 0. -/
def switchNow : SwitchState :=
  { next := 1, union := [0, 1], coordinator := 0, foot := ⟨1, [1], 0, 1, []⟩, armedCame := true, doneFrom := [0] }

/-- Context 0 switches from slot 0, on tile 0, to slot 1, on tile 1, whose plan `x` has been armed. -/
def switching (w : SwitchState) (ps : List Packet) : State :=
  { dev (ctxOn 1 ++ [(0x2700, 0x30, 3), (0x2700, 0x31, 0), (0x2700, 0x32, 1), (0x3000, 0x70, 4), (0x3000, 0x71, 0), (0x3001, 0x70, 0x30)]) with
    ctxs := [(0, { switch := some w, foot := [⟨0, [0], 0, 0, []⟩, ⟨1, [1], 0, 1, []⟩] })]
    running := [(0, some ⟨0, 0, true⟩)]
    plans := [(0, some (plan [])), (5, some { plan [] with section_ := 1 })]
    delivered := ps }

theorem witness_SectionsSwitch_last : ∃ (s : State) (p : Packet) (w w' : SwitchState) (l : Nat), s.Canonical ∧ s.isNext p = true ∧
    (s.ctx p.ctx).switch = some w ∧ s.ctxRuns p.ctx = true ∧ p.typ = 0x05 ∧ w.coordinator = p.dst ∧ w.released = false ∧ p.src < 0xD80 ∧ s.tileOf p.src = some l ∧
    w.doneFrom.contains l = false ∧ w' = { w with doneFrom := w.doneFrom ++ [l] } ∧ s.allDone w' = true ∧ s.invalidNext w' = none ∧
    ((after (.sectionDone p) s).ctx p.ctx).switch = some { w' with released := true } :=
  ⟨switching switchNow [flagPacket 0x05 0 1 0 1], flagPacket 0x05 0 1 0 1, switchNow, { switchNow with doneFrom := [0, 1] }, 1, canon_of_ok (by decide +kernel),
    by decide +kernel⟩

theorem witness_SectionsSwitch_wait : ∃ (s : State) (p : Packet) (w w' : SwitchState) (l : Nat), s.Canonical ∧ s.isNext p = true ∧
    (s.ctx p.ctx).switch = some w ∧ s.ctxRuns p.ctx = true ∧ p.typ = 0x05 ∧ w.coordinator = p.dst ∧ w.released = false ∧ p.src < 0xD80 ∧ s.tileOf p.src = some l ∧
    w.doneFrom.contains l = false ∧ w' = { w with doneFrom := w.doneFrom ++ [l] } ∧ s.allDone w' = false ∧
    ((after (.sectionDone p) s).ctx p.ctx).switch = some w' :=
  ⟨switching { switchNow with doneFrom := [] } [flagPacket 0x05 0 1 0 1], flagPacket 0x05 0 1 0 1, { switchNow with doneFrom := [] },
    { switchNow with doneFrom := [1] }, 1, canon_of_ok (by decide +kernel), by decide +kernel⟩

/-- A SECTION_RELEASE along a line that reaches site `n`. -/
def released (n : Nat) : Packet := { flagPacket 0x06 0 0 n 1 with includeSource := true, farEnd := 1 }

/-- Tile 0 leaves its section, the first of the union. -/
theorem witness_SectionsSwitch_leave : ∃ (s : State) (p : Packet) (w : SwitchState) (l : Nat), s.Canonical ∧ s.isNext p = true ∧
    (s.ctx p.ctx).switch = some w ∧ s.ctxRuns p.ctx = true ∧ p.typ = 0x06 ∧ s.awaits p = some (l, w) ∧ s.tileFree l = true ∧ p.includeSource = true ∧
    w.next < 4 ∧ w.replay = false ∧ w.foot.tiles.contains l = false ∧ ¬(∀ u ∈ w.union, u = l ∨ w.switched.contains u = true) ∧
    (after (.sectionRelease p 9) s).runningAt p.dst = none ∧ (after (.sectionRelease p 9) s).reg 0x3000 0x71 = 0xFF ∧
    (after (.sectionRelease p 9) s).reg 0x2700 0x34 = 9 :=
  ⟨switching { switchNow with released := true } [released 0], released 0, { switchNow with released := true }, 0,
    canon_of_ok (by decide +kernel), by decide +kernel⟩

/-- Tile 1 enters the section, the last of the union. -/
theorem witness_SectionsSwitch_enter : ∃ (s : State) (p : Packet) (w : SwitchState) (l : Nat) (x : SlotPlan), s.Canonical ∧
    s.isNext p = true ∧ (s.ctx p.ctx).switch = some w ∧ s.ctxRuns p.ctx = true ∧ p.typ = 0x06 ∧ s.awaits p = some (l, w) ∧ s.tileFree l = true ∧
    p.includeSource = true ∧ s.planAt (l * 4 + w.next) = some x ∧ x.poison = false ∧ w.next < 4 ∧ w.replay = false ∧ w.foot.tiles.contains l = true ∧
    (∀ u ∈ w.union, u = l ∨ w.switched.contains u = true) ∧ (after (.sectionRelease p 9) s).runningAt p.dst = some { ctx := 0, slot := 1 } ∧
    (after (.sectionRelease p 9) s).reg 0x2700 0x31 = 1 ∧ (after (.sectionRelease p 9) s).slotState p.dst 1 = 4 :=
  ⟨switching { switchNow with released := true, switched := [0] } [released 1], released 1, { switchNow with released := true, switched := [0] }, 1,
    { plan [] with section_ := 1 }, canon_of_ok (by decide +kernel), by decide +kernel⟩

/-! ## The descriptors that load, run, move and convert -/

/-- Context 0 runs with the one active descriptor `d` and the stored bytes `bs` at `a`. -/
def described (ws : List Nat) (a : Nat) (bs : List Byte) : State := stored (active ws) a bs

/-- The descriptor of `described`. -/
def theDesc (ws : List Nat) : ActiveDesc := ⟨3, ws, false, 0, none, false⟩

/-- Words of 8 bytes as bytes. -/
def wordsBytes (ws : List Nat) : List Byte := ws.flatMap (toBytes 8)

/-- A tile plan of one line for logical tile 0 with no lists; its CRC was computed outside Lean. -/
def planLine : List Byte := wordsBytes [0, 0, 0, 2 ^ 48 + 1359950336, 0, 0, 0, 0]

/-- An image of version 1 and section 9 with the one plan: header, directory, plan. -/
def imageBytes : List Byte :=
  wordsBytes [2 ^ 48 + 9 * 2 ^ 32 + 2 ^ 20, 192, 0, 0, 0, 0, 0, 3944732753, 2 * 2 ^ 28 + 2 ^ 19, 0, 0, 0, 0, 0, 0, 0] ++ planLine

/-- The fold of CRC-32, each byte's register computed before the next: the form that the kernel evaluates. -/
def crcRun (c : BitVec 32) (bs : List Byte) : BitVec 32 :=
  match bs with
  | [] => c
  | b :: bs => if crcByte c b = 0 then crcRun 0 bs else crcRun (crcByte c b) bs

theorem crcRun_eq (bs : List Byte) (c : BitVec 32) : bs.foldl crcByte c = crcRun c bs := by
  induction bs generalizing c with
  | nil => rfl
  | cons b bs ih =>
    simp only [List.foldl_cons, crcRun]
    split
    · rename_i h; rw [h, ih]
    · exact ih _

theorem crc32_eq (bs : List Byte) : crc32 bs = (crcRun 0xFFFFFFFF bs ^^^ 0xFFFFFFFF).toNat := by rw [crc32, crcRun_eq]

theorem image_header : headerOk imageBytes = true := by
  simp only [headerOk, crcWithout, crc32_eq]
  decide +kernel

theorem plan_header : planHeaderOk planLine ⟨0, 2, 1⟩ = true := by
  simp only [planHeaderOk, crcWithout, crc32_eq]
  decide +kernel

/-- LOAD_PLAN of the image at 0x3000 into slot 3. -/
def loadWords : List Nat := [2 ^ 58, 0x3000, 3]

theorem image_checks : (described loadWords 0x3000 imageBytes).checkImage 0 3 imageBytes =
    .good [parsePlan planLine] 9 (imageLinks [parsePlan planLine]) [⟨0, parsePlan planLine, planLine, none⟩] := by
  have hm : (described loadWords 0x3000 imageBytes).nativeMode 0 = true := by decide +kernel
  have hs : imSection imageBytes = 9 := by decide +kernel
  have hd : ((imDirectory imageBytes).map fun e => (e, planBytes imageBytes e)) = [(⟨0, 2, 1⟩, planLine)] := by decide +kernel
  have hf : (described loadWords 0x3000 imageBytes).imageFailed 0 3 [(⟨0, 2, 1⟩, planLine)] = none := by
    simp only [State.imageFailed, firstFailed, List.findSome?, plan_header, if_true]
    decide +kernel
  have ht : nativeTiles (described loadWords 0x3000 imageBytes) [(⟨0, 2, 1⟩, planLine)] = [⟨0, parsePlan planLine, planLine, none⟩] := by decide +kernel
  have hn : nativePlans imageBytes = [parsePlan planLine] := by decide +kernel
  simp only [State.checkImage, hm, if_true, State.checkNative, image_header, Bool.not_true, Bool.false_eq_true, if_false, hd, hf, hs, ht, hn]

theorem witness_DataDescriptorsRun_load : ∃ (s : State) (p : Nat) (d : ActiveDesc) (a slot : Nat) (bs : List Byte) (ps : List TilePlan) (sect : Nat)
    (links : List (Nat × Nat)) (x : LoadTile) (n : Nat), s.Canonical ∧ s.hostCame (dOrigin 0 p) = false ∧ s.Startable 0 p 0x01 [] d ∧
    (a = bits (dWord d 1) 47 0 ∧ slot = bits (dWord d 2) 1 0 ∧ a % 64 = 0 ∧ s.imageHeadOk 0 (s.bytesAt a 64) = true ∧
    bs = s.bytesAt a (imLength (s.bytesAt a 64)) ∧ a + bs.length ≤ hbmEnd ∧ touchesDump a bs.length = false ∧ s.hbmServes a bs.length = true ∧
    s.rangeBad a bs.length = false ∧ s.siteOf x.tile = some n) ∧ s.checkImage 0 slot bs = .good ps sect links [x] :=
  ⟨described loadWords 0x3000 imageBytes, 3, theDesc loadWords, 0x3000, 3, imageBytes, _, _, _, _, 0, canon_of_ok (by decide +kernel), by decide +kernel,
    startable (by decide +kernel), by decide +kernel, image_checks⟩

/-- The section number's first bit flipped: the CRC fails. -/
theorem test_image_crc : headerOk (imageBytes.set 4 8) = false := by
  simp only [headerOk, crcWithout, crc32_eq]
  decide +kernel

theorem witness_DataDescriptorsRun_misaligned : ∃ (s : State) (p : Nat) (d : ActiveDesc), s.Canonical ∧ s.hostCame (dOrigin 0 p) = false ∧
    s.Startable 0 p 0x01 [] d ∧ bits (dWord d 1) 47 0 % 64 ≠ 0 ∧ ((after (.loadPlan 0 p) s).ctx 0).active.map (·.status) = [some 0x8001] :=
  ⟨described [2 ^ 58, 0x3001] 0 [], 3, theDesc [2 ^ 58, 0x3001], canon_of_ok (by decide +kernel), by decide +kernel, startable (by decide +kernel), by decide +kernel⟩

/-- RUN_SECTION of slot 1. -/
def runWords : List Nat := [2 * 2 ^ 58, 1]

/-- The slot is loaded on tiles 0 and 1. -/
def runnable : State :=
  { State.withRegs (active runWords) [(0x3000, 0x70, 0x20), (0x3001, 0x70, 0x20)] with
    ctxs := [(0, { active := [theDesc runWords], foot := [⟨1, [0, 1], 0, 1, []⟩] })]
    plans := [(1, some (plan [])), (5, some { plan [] with section_ := 1 })] }

theorem witness_DataDescriptorsRun_run : ∃ (s : State) (p : Nat) (d : ActiveDesc) (slot : Nat) (f : Footprint) (union : List Nat) (l0 k : Nat), s.Canonical ∧
    s.hostCame (dOrigin 0 p) = false ∧ s.Startable 0 p 0x02 [] d ∧ s.reg 0x2700 0x32 = 0xFF ∧ s.fenceHolds 0 = false ∧ slot = bits (dWord d 1) 1 0 ∧
    s.footOf 0 slot = some f ∧ f.tiles ≠ [] ∧ (∀ l ∈ f.tiles, s.holdsLoad 0 slot l = true ∧ s.tileSlot l slot ≠ 5) ∧ channelCycle (s.channels 0) f.links = none ∧
    union = (List.range 3072).filter (fun l => f.tiles.contains l || (s.runningTiles 0).contains l) ∧ union.head? = some l0 ∧ s.siteOf l0 = some k ∧
    (after (.runSection 0 p) s).reg 0x2700 0x32 = 1 ∧ (after (.runSection 0 p) s).slotState 1 1 = 3 :=
  ⟨runnable, 3, theDesc runWords, 1, ⟨1, [0, 1], 0, 1, []⟩, [0, 1], 0, 0, canon_of_ok (by decide +kernel), by decide +kernel, startable (by decide +kernel),
    by decide +kernel⟩

theorem witness_DataDescriptorsRun_none : ∃ (s : State) (p : Nat) (d : ActiveDesc) (slot : Nat), s.Canonical ∧ s.hostCame (dOrigin 0 p) = false ∧
    s.Startable 0 p 0x02 [] d ∧ s.reg 0x2700 0x32 = 0xFF ∧ s.fenceHolds 0 = false ∧ slot = bits (dWord d 1) 1 0 ∧ s.footOf 0 slot = none ∧
    ((after (.runSection 0 p) s).ctx 0).active.map (·.status) = [some 0x8001] :=
  ⟨active runWords, 3, theDesc runWords, 1, canon_of_ok (by decide +kernel), by decide +kernel, startable (by decide +kernel), by decide +kernel⟩

/-- Two words of HBM from 0x21F8 on, the last and the first of their lines, are free for context 0. -/
theorem free_of {s : State} {a : Nat} {w : Bool} (h : a + 16 ≤ hbmEnd ∧ a % 8 = 0 ∧ s.wordFault 0 w (some (.hbm a)) = none ∧ s.wordFault 0 w (some (.hbm (a + 8))) = none ∧
    ∀ l ∈ linesOf a 16, s.retiredLine l = false) : s.hbmFree 0 w a 16 :=
  ⟨h.1, fun b h1 h2 h3 => by
    have hb : b = a ∨ b = a + 8 := by omega
    obtain rfl | rfl := hb
    · exact h.2.2.1
    · exact h.2.2.2.1, h.2.2.2.2⟩

/-- COPY and FILL of 16 bytes to 0x21F8. -/
def moveWords (op : Nat) : List Nat := [op * 2 ^ 58, if op = 3 then 0x2000 else 0, 0x21F8, 16, 0, if op = 3 then 0 else 0xABCD]

theorem witness_DataDescriptorsRun_copy : ∃ (s : State) (p : Nat) (d : ActiveDesc) (src dst n : Nat), s.Canonical ∧ s.hostCame (dOrigin 0 p) = false ∧
    src = bits (dWord d 1) 47 0 ∧ dst = bits (dWord d 2) 47 0 ∧ n = bits (dWord d 3) 39 0 ∧ n % 8 = 0 ∧ n ≠ 0 ∧ dst % 8 = 0 ∧ bits (dWord d 4) 1 0 ≠ 3 ∧
    s.hbmFree 0 true dst n ∧ s.Startable 0 p 0x03 [] d ∧ src % 8 = 0 ∧ s.hbmFree 0 false src n ∧
    (after (.copy 0 p []) s).bytesAt 0x21F8 16 = (List.range 16).map fun i => BitVec.ofNat 8 (i + 1) :=
  ⟨described (moveWords 3) 0x2000 ((List.range 16).map fun i => BitVec.ofNat 8 (i + 1)), 3, theDesc (moveWords 3), 0x2000, 0x21F8, 16,
    canon_of_ok (by decide +kernel), facts (by decide +kernel) <| facts (by decide +kernel)
      ⟨free_of (by decide +kernel), startable (by decide +kernel), by decide +kernel, free_of (by decide +kernel), by decide +kernel⟩⟩

theorem witness_DataDescriptorsRun_fill : ∃ (s : State) (p : Nat) (d : ActiveDesc) (dst n : Nat), s.Canonical ∧ s.hostCame (dOrigin 0 p) = false ∧
    dst = bits (dWord d 2) 47 0 ∧ n = bits (dWord d 3) 39 0 ∧ n % 8 = 0 ∧ n ≠ 0 ∧ dst % 8 = 0 ∧ bits (dWord d 4) 1 0 ≠ 3 ∧
    s.hbmFree 0 true dst n ∧ s.Startable 0 p 0x04 [] d ∧ (after (.fill 0 p []) s).load 0x2200 8 = 0xABCD :=
  ⟨described (moveWords 4) 0 [], 3, theDesc (moveWords 4), 0x21F8, 16, canon_of_ok (by decide +kernel), by decide +kernel, by decide +kernel,
    by decide +kernel, facts (by decide +kernel) ⟨free_of (by decide +kernel), startable (by decide +kernel), by decide +kernel⟩⟩

/-- POST_RING of 16 bytes at 0x2000 to ring 15. -/
def postWords : List Nat := [8 * 2 ^ 58, 15, 0x2000, 16]

theorem witness_DataDescriptorsRun_post : ∃ (s : State) (p : Nat) (d : ActiveDesc) (r a l dst : Nat), s.Canonical ∧ s.hostCame (dOrigin 0 p) = false ∧
    s.Startable 0 p 0x08 [] d ∧ r = bits (dWord d 1) 13 0 ∧ a = bits (dWord d 2) 47 0 ∧ l = bits (dWord d 3) 10 0 ∧ r < 12288 ∧ 0 < l ∧ l ≤ 1024 ∧
    (rdEnabled (s.ring r).desc = true → l + 72 ≤ rdSize (s.ring r).desc) ∧ s.sSite (ringTile r) = some dst ∧ s.hbmFree 0 false a l ∧
    rdSize (s.ring r).desc = 128 ∧ ((after (.postRing 0 p []) s).issue.map fun q => (q.packet.typ, q.packet.dst, q.packet.len)) = [(0x24, 136, 16)] :=
  ⟨{ active postWords with rings := [(15, { desc := ringDesc 0 4 0 0 100 })] }, 3, theDesc postWords, 15, 0x2000, 16, 136, canon_of_ok (by decide +kernel),
    by decide +kernel, startable (by decide +kernel), facts (by decide +kernel) <| facts (by decide +kernel) ⟨free_of (by decide +kernel), by decide +kernel⟩⟩

/-- A conversion of four FP32 elements at 0x2000 to BF16 at 0x2100. -/
def convertWords (op : Nat) : List Nat := [op * 2 ^ 58, 0x2000, 0x2100, 2 ^ 48, 0, 5 * 2 ^ 60, 0, 4]

/-- The elements 1, 2, 3 and -1. -/
def fourFloats : List Byte := [0x3F800000, 0x40000000, 0x40400000, 0xBF800000].flatMap (toBytes 4)

/-- The one output piece: four BF16 elements. -/
def fourHalves : List Piece := [⟨[some (.hbm 0x2100)], [0x3F80, 0x4000, 0x4040, 0xBF80].flatMap (toBytes 2), false⟩]

/-- Two words of the source, unpoisoned. -/
def fourRead : List (List Byte × Bool) := [(fourFloats.take 8, false), (fourFloats.drop 8, false)]

theorem runs_of {op : Nat} (h : (conversionOf (theDesc (convertWords op))).failed (queueEndpoint 0) = none ∧ (conversionOf (theDesc (convertWords op))).count = 4 ∧
    (conversionOf (theDesc (convertWords op))).vb = 1 ∧ (conversionOf (theDesc (convertWords op))).misaligned = false ∧
    (conversionOf (theDesc (convertWords op))).maskBytes = 0 ∧ (conversionOf (theDesc (convertWords op))).src = 0x2000)
    (f : (described (convertWords op) 0x2000 fourFloats).hbmFree 0 false 0x2000 16)
    (r : fourRead = (described (convertWords op) 0x2000 fourFloats).readWords [] (dOrigin 0 3) ((described (convertWords op) 0x2000 fourFloats).wordsOf 0x2000 16))
    (o : fourHalves = (conversionOf (theDesc (convertWords op))).writes (described (convertWords op) 0x2000 fourFloats)
      ((conversionOf (theDesc (convertWords op))).output
        ((conversionOf (theDesc (convertWords op))).input ((described (convertWords op) 0x2000 fourFloats).reg 0x2C03 0x01) fourRead [])))
    (w : (described (convertWords op) 0x2000 fourFloats).firstFault 0 true [some (.hbm 0x2100)] = none) :
    (conversionOf (theDesc (convertWords op))).Runs (described (convertWords op) 0x2000 fourFloats) 0 3 fourRead fourHalves := by
  have hb : (conversionOf (theDesc (convertWords op))).sourceBytes = 16 := by rw [Conversion.sourceBytes, h.2.1]; decide
  refine ⟨⟨h.1, by omega, by omega, h.2.2.2.1, h.2.2.2.2.1⟩, ?_, ⟨?_, by decide⟩, o, ?_⟩
  · rw [hb, h.2.2.2.2.2]; exact f
  · rw [hb, h.2.2.2.2.2]; exact r
  · intro y hy
    obtain rfl : y = _ := by simpa [fourHalves] using hy
    exact ⟨fun x hx => ⟨0x2100, by simpa using hx⟩, w⟩

theorem witness_DataDescriptorsRun_quantise : ∃ (s : State) (d : ActiveDesc), s.Canonical ∧ s.hostCame (dOrigin 0 3) = false ∧
    (conversionOf d).Runs s 0 3 fourRead fourHalves ∧ s.Startable 0 3 0x09 [] d ∧
    (after (.quantise 0 3 []) s).bytesAt 0x2100 8 = [0x3F80, 0x4000, 0x4040, 0xBF80].flatMap (toBytes 2) :=
  ⟨described (convertWords 9) 0x2000 fourFloats, theDesc (convertWords 9), canon_of_ok (by decide +kernel), by decide +kernel,
    runs_of (by decide +kernel) (free_of (by decide +kernel)) (by decide +kernel) (by decide +kernel) (by decide +kernel), startable (by decide +kernel), by decide +kernel⟩

theorem witness_DataDescriptorsRun_compress : ∃ (s : State) (d : ActiveDesc), s.Canonical ∧ s.hostCame (dOrigin 0 3) = false ∧
    (conversionOf d).Runs s 0 3 fourRead fourHalves ∧ s.Startable 0 3 0x0A [] d ∧
    (after (.compress 0 3 []) s).bytesAt 0x2100 8 = [0x3F80, 0x4000, 0x4040, 0xBF80].flatMap (toBytes 2) :=
  ⟨described (convertWords 10) 0x2000 fourFloats, theDesc (convertWords 10), canon_of_ok (by decide +kernel), by decide +kernel,
    runs_of (by decide +kernel) (free_of (by decide +kernel)) (by decide +kernel) (by decide +kernel) (by decide +kernel), startable (by decide +kernel), by decide +kernel⟩

/-! ## Memory edges -/

/-- X-tile 0, of memory edge 0, holds the transfers `ts`, and stacks 0 and 1 are online. -/
def onEdge (ts : List Transfer) : State := { dev (ctxOn 1 ++ hbmOn) with xtiles := if ts = [] then [] else [(0, { inq := ts })] }

/-- A Bond request of channel 7: operation, lines, address. -/
def edgeRequest (op lines a : Nat) : Transfer := { data := op * 2 ^ 62 + lines * 2 ^ 51 + a, chan := 7 }

/-- Two lines on both sides of the border between the stacks; the second is poisoned. -/
theorem witness_MemoryEdgesServe_read : ∃ (s : State) (x : XTile) (tr : Transfer), s.Canonical ∧ (s.xtile x).inq = [tr] ∧ (s.xtile x).orphan = false ∧
    s.lintelOpen x = true ∧ tr.control = false ∧ tr.isMeta = false ∧ brOp tr = 0 ∧ (s.xtile x).inFlight + brLines tr ≤ 256 ∧ s.brFails x tr = false ∧
    (s.xtile x).served = 0 ∧ (after (.bondMemoryRead x {} 9) s).reg 0x3001 0x73 = 9 ∧
    ((after (.bondMemoryRead x {} 0) s).xtile x).outq = [{ data := 5, chan := 7 }, { chan := 7, poison := true }] :=
  ⟨stored { onEdge [edgeRequest 0 2 0x1FC0] with poisonLines := [(128, true)] } 0x1FC0 [5], 0, edgeRequest 0 2 0x1FC0, canon_of_ok (by decide +kernel), by decide +kernel⟩

/-- Stack 2 is not online; the X-tile's output then holds exactly 256 transfers. -/
theorem witness_MemoryEdgesServe_bad : ∃ (s : State) (x : XTile) (tr : Transfer), s.Canonical ∧ (s.xtile x).inq = [tr] ∧ (s.xtile x).orphan = false ∧
    s.lintelOpen x = true ∧ tr.control = false ∧ tr.isMeta = false ∧ brOp tr = 0 ∧ (s.xtile x).inFlight + brLines tr = 256 ∧ s.brFails x tr = true ∧
    ((after (.bondMemoryRead x {} 0) s).xtile x).outq.length = 256 :=
  ⟨{ dev (ctxOn 1 ++ hbmOn) with xtiles := [(0, { inq := [edgeRequest 0 1 0x4000], outq := List.replicate 255 {} })] }, 0, edgeRequest 0 1 0x4000,
    canon_of_ok (by decide +kernel), by decide +kernel⟩

/-- The last 44 lines of a read of 300, of which stacks 2 on are not online. -/
theorem witness_MemoryEdgesServe_part : ∃ (s : State) (x : XTile) (tr : Transfer), s.Canonical ∧ (s.xtile x).inq = [tr] ∧ (s.xtile x).orphan = false ∧
    s.lintelOpen x = true ∧ tr.control = false ∧ tr.isMeta = false ∧ brOp tr = 0 ∧ (s.xtile x).served = 256 ∧ brLines tr = 300 ∧ s.brFails x tr = true ∧
    ((after (.bondMemoryRead x {} 0) s).xtile x).outq.length = 44 ∧ ((after (.bondMemoryRead x {} 0) s).xtile x).inq = [] :=
  ⟨{ dev (ctxOn 1 ++ hbmOn) with xtiles := [(0, { inq := [edgeRequest 0 300 0], served := 256 })] }, 0, edgeRequest 0 300 0,
    canon_of_ok (by decide +kernel), by decide +kernel⟩

/-- A transfer of another channel lies between the request and its data. -/
theorem witness_MemoryEdgesServe_write (op : Nat) (h : op ∈ [1, 2]) : ∃ (s : State) (x : XTile) (tr : Transfer) (rest ds : List Transfer), s.Canonical ∧
    (s.xtile x).inq = tr :: rest ∧ (s.xtile x).orphan = false ∧ s.lintelOpen x = true ∧ tr.control = false ∧ tr.isMeta = false ∧ brOp tr = op ∧
    s.brFails x tr = false ∧ ds = channelFirst tr.chan (brLines tr) rest ∧ ds.length = brLines tr ∧
    (∀ i, i < brLines tr → s.retiredLine (brAddr tr / 64 + i) = false) ∧
    (after (if op = 1 then .bondMemoryWrite x else .bondMemoryWriteAck x) s).load 0x2000 1 = 2 ∧
    ((after (if op = 1 then .bondMemoryWrite x else .bondMemoryWriteAck x) s).xtile x).inq = [{ data := 9, chan := 3 }] ∧
    ((after (if op = 1 then .bondMemoryWrite x else .bondMemoryWriteAck x) s).xtile x).outq = (if op = 2 then [{ chan := 7, control := true }] else []) := by
  have hv : op = 1 ∨ op = 2 := by simpa using h
  obtain rfl | rfl := hv
  · exact ⟨onEdge [edgeRequest 1 2 0x1FC0, { data := 9, chan := 3 }, { data := 1, chan := 7 }, { data := 2, chan := 7 }], 0, edgeRequest 1 2 0x1FC0, _, _,
      canon_of_ok (by decide +kernel), rfl, by decide +kernel, by decide +kernel, rfl, rfl, by decide +kernel, by decide +kernel, rfl, by decide +kernel⟩
  · exact ⟨onEdge [edgeRequest 2 2 0x1FC0, { data := 9, chan := 3 }, { data := 1, chan := 7 }, { data := 2, chan := 7 }], 0, edgeRequest 2 2 0x1FC0, _, _,
      canon_of_ok (by decide +kernel), rfl, by decide +kernel, by decide +kernel, rfl, rfl, by decide +kernel, by decide +kernel, rfl, by decide +kernel⟩

/-- Line 31 of channel 31's last granule before the second: stack 1. -/
theorem witness_MemoryEdgesServe_line : ∃ (s : State) (line : HbmLine) (l k : Nat), s.Canonical ∧
    l = deinterleave line.stack line.channel line.offset / 64 ∧ k = (interleave (64 * l)).1 ∧ s.stackServes k = true ∧ s.lineBad l = false ∧ k = 1 ∧
    (after (.hbmLineReady 0 line .corrected) s).reg 0x4101 5 = 1 ∧ (after (.hbmLineReady 0 line .uncorrectable) s).reg 0x4101 6 = 1 ∧
    (after (.hbmLineReady 0 line .uncorrectable) s).linePoisoned l = true :=
  ⟨onEdge [], ⟨1, 31, 192⟩, 255, 1, canon_of_ok (by decide +kernel), by decide +kernel⟩

theorem witness_MemoryEdgesServe_patrol : ∃ (s : State) (st : Stack) (ch : Fin 32), s.Canonical ∧ s.reg 0x2D00 0x03 ≠ 0 ∧ s.reg (0x4100 + st) 0x01 = 1 ∧
    (s.stackOf st).patrol.getD ch 0 = 2 ^ 25 - 1 ∧ ((after (.hbmPatrol st ch .none) s).stackOf st).patrol.getD ch 1 = 0 :=
  ⟨{ dev hbmOn with hbm := [(1, { patrol := List.replicate 32 (2 ^ 25 - 1) })] }, 1, 31, canon_of_ok (by decide +kernel), by decide +kernel⟩

theorem witness_MemoryEdgesServe_temperature : ∃ s : State, s.Canonical ∧ s.mainOn = true ∧ ((after (.stackTemperature 0 86) s).stackOf 0).doubled = true ∧
    ((after (.stackTemperature 0 85) s).stackOf 0).doubled = false ∧ ((after (.stackTemperature 0 96) s).stackOf 0).level = 1 ∧
    ((after (.stackTemperature 0 101) s).stackOf 0).level = 2 ∧ (after (.stackTemperature 31 (-1)) s).reg 0x411F 4 = 65535 :=
  ⟨dev [], canon_of_ok (by decide +kernel), by decide +kernel⟩

theorem witness_MemoryEdgesServe_test : ∃ (s : State) (p : Path), s.Canonical ∧ s.serves p = true ∧ s.controllerDown = false ∧ s.allFree = true ∧ s.memTest = none ∧
    (after (.memoryTestQuick p) s).memTest = some 1 ∧ (after (.memoryTestFull p) s).memTest = some 2 :=
  ⟨dev [], .jtag, canon_of_ok (by decide +kernel), by decide +kernel⟩

/-- A byte of each stack, one in a retired granule, one beyond HBM. -/
theorem witness_MemoryEdgesServe_end : ∃ (s : State) (m : Nat), s.Canonical ∧ s.memTest = some m ∧ m = 1 ∧ (after (.memoryTestEnd []) s).mem = [(0x3FFF, 7), (0x4000, 7), (0x20000000000, 7)] :=
  ⟨{ dev hbmOn with memTest := some 1, retired := [(0x3F00, 1)], mem := [(0x1FFF, 7), (0x2000, 7), (0x3FFF, 7), (0x4000, 7), (0x20000000000, 7)] }, 1,
    canon_of_ok (by decide +kernel), by decide +kernel⟩

theorem witness_MemoryEdgesServe_finding : ∃ (s : State) (f : TestFinding) (g : Nat), s.Canonical ∧ s.memTest = some 1 ∧ g = f.address / 256 * 256 ∧
    s.reg (0x4100 + (interleave g).1) 0x01 = 1 ∧ (∀ e ∈ s.retired, e.1 ≠ g) ∧ s.retired.length < 4096 ∧ s.retiredOf (homeX g) < 32 ∧
    (after (.memoryTestEnd [f]) s).retired = [(0x3E00, 1), (0x3F00, 2)] :=
  ⟨{ dev hbmOn with memTest := some 1, retired := [(0x3E00, 1)] }, ⟨0x3FFF, 2, true, 0⟩, 0x3F00, canon_of_ok (by decide +kernel), by decide +kernel⟩

theorem witness_MemoryEdgesServe_orphan : ∃ (s : State) (x : XTile), s.Canonical ∧ (s.xtile x).orphan = false ∧ (s.xtile x).inq ≠ [] ∧
    (after (.xTileOrphaned x) s).xtile x = { orphan := true } :=
  ⟨onEdge [edgeRequest 0 1 0], 0, canon_of_ok (by decide +kernel), by decide +kernel⟩

/-! ## Die links, lintels and ports -/

theorem witness_PortsAndLinksWork_die : ∃ (s : State) (q : Die), s.Canonical ∧ s.mainOn = true ∧ s.dieUp q = true ∧ s.reg (0x4200 + q) 0x01 = 0 ∧
    (after (.ucieLinkFailure q [] 3) s).reg (0x4200 + q) 0x02 = 1 ∧ (after (.ucieLinkFailure q [1] 3) s).reg (0x4200 + q) 0x01 = 1 ∧
    queueDie 0 = q.val ∧ s.ctxRuns 0 = true ∧ (after (.ucieLinkFailure q [0, 1] 3) s).reg (0x4200 + q) 0x01 = 2 ∧
    (after (.ucieLinkFailure q [0, 1] 3) s).ctxState 0 = 2 :=
  ⟨dev (ctxOn 1), 0, canon_of_ok (by decide +kernel), by decide +kernel⟩

/-- X-tile 127 holds a transfer, and a packet for it has been delivered. -/
def atLintel (c : LintelCore) : State :=
  { dev (ctxOn 1) with
    lintels := if c = {} then [] else [(127, c)], xtiles := [(127, { inq := [someTransfer] })], delivered := [memPacket 0xD7F 0x12 0 0 8, memPacket 0xD7E 0x12 0 0 8] }

theorem witness_PortsAndLinksWork_lintel : ∃ (s : State) (l : Lintel) (k : Nat), s.Canonical ∧ k = lintelKey l ∧ clockMayStop l = true ∧ k = 127 ∧
    (s.lintel k).clockedReset = false ∧ (s.lintel k).coreReset = false ∧ ((after (.lintelClockStop l 0) s).lintel k).stopped = true ∧
    ((after (.lintelReset l .clocked) s).lintel k).closed = true ∧ (after (.lintelReset l .clocked) s).xTransfers k = 0 ∧
    (after (.lintelReset l .clocked) s).reg 0x2E00 3 = 2 ∧ ((after (.lintelReset l .clocked) s).delivered.map (·.dst)) = [0xD7E] :=
  ⟨atLintel {}, .memory 127, 127, canon_of_ok (by decide +kernel), by decide +kernel⟩

theorem witness_PortsAndLinksWork_owed : ∃ (s : State) (l : Lintel) (k : Nat), s.Canonical ∧ k = lintelKey l ∧ (s.lintel k).coreReset = false ∧
    (s.lintel k).stopped = true ∧ ((after (.lintelReset l .core) s).lintel k).owed = true ∧ ((after (.lintelClockReturn l) s).lintel k).stopped = false :=
  ⟨atLintel { stopped := true }, .memory 127, 127, canon_of_ok (by decide +kernel), by decide +kernel⟩

theorem witness_PortsAndLinksWork_reopen : ∃ (s : State) (l : Lintel) (k : Nat), s.Canonical ∧ k = lintelKey l ∧ (s.lintel k).closed = true ∧
    (s.lintel k).stopped = false ∧ (s.lintel k).owed = false ∧ (after (.lintelReopen l) s).lintel k = {} :=
  ⟨atLintel { closed := true, clockedReset := true }, .memory 127, 127, canon_of_ok (by decide +kernel), by decide +kernel⟩

/-- Context 0 runs, stacks 0 and 1 and the link of port 0, the active one, are up. -/
def hosted : State := dev (ctxOn 1 ++ [(0x2E10, 6, 0x4010)] ++ hbmOn)

/-- Eight bytes over the border of two lines, written with a poison mark. -/
theorem witness_PortsAndLinksWork_bar4 : ∃ (s : State) (h : HostPort) (off n a : Nat) (bytes : List Byte), s.Canonical ∧ s.serves (hostPath h) = true ∧
    off + n ≤ bar4Size ∧ a = s.reg 0x2E10 0x04 + off ∧ s.isActivePort h = true ∧ s.computeReset = false ∧ a + n ≤ hbmEnd ∧ bytes.length = n ∧
    (∀ x ∈ accessParts a n, (s.hostFault h true x.1 x.2).isNone = true) ∧ (∀ l ∈ linesOf a n, s.retiredLine l = false) ∧
    (∀ x ∈ accessParts a n, (s.hostFault h false x.1 x.2).isNone = true) ∧ (after (.bar4Write h off bytes true []) s).bytesAt a 8 = bytes ∧
    (after (.bar4Read h off n []) (after (.bar4Write h off bytes true []) s)).out = [.hostRead 0 0 bytes true] :=
  ⟨hosted, 0, 0x2FFC, 8, 0x2FFC, [1, 2, 3, 4, 5, 6, 7, 8], canon_of_ok (by decide +kernel), by decide +kernel⟩

theorem witness_PortsAndLinksWork_standby : ∃ (s : State) (h : HostPort) (off n : Nat) (bytes : List Byte), s.Canonical ∧ s.serves (hostPath h) = true ∧
    off + n ≤ bar4Size ∧ s.isActivePort h = false ∧ bytes.length = n ∧ (after (.bar4Write h off bytes false []) s).reg 0x2E10 9 = 1 ∧
    (after (.bar4Write h off bytes false []) s).mem = s.mem :=
  ⟨State.withRegs hosted [(0x2E10, 7, 0x4010)], 1, 0, 8, List.replicate 8 1, canon_of_ok (by decide +kernel), by decide +kernel⟩

theorem witness_PortsAndLinksWork_switch : ∃ (s : State) (p : Path) (v : Nat), s.Canonical ∧ s.serves p = true ∧ s.controllerDown = false ∧ v < 2 ∧
    v ≠ s.reg 0x2E10 0x01 ∧ s.portUp (s.reg 0x2E10 0x01) = true ∧ (after (.hostPortSwitch p v) s).reg 0x2E10 0x01 = 1 :=
  ⟨hosted, .jtag, 1, canon_of_ok (by decide +kernel), by decide +kernel⟩

/-- Port 0 is down for exactly the time of 0x2E10:03. -/
theorem witness_PortsAndLinksWork_failover : ∃ (s : State) (downMs old : Nat), s.Canonical ∧ old = s.reg 0x2E10 0x01 ∧ s.reg 0x2E10 0x02 = 1 ∧
    s.reg 0x2E10 (0x06 + old) = 0 ∧ s.reg 0x2E10 0x03 = downMs ∧ s.portUp (1 - old) = true ∧ (∀ a ∈ s.hostWindow, a.port ≠ old) ∧
    (after (.hostFailover downMs) s).reg 0x2E10 0x01 = 1 :=
  ⟨dev [(0x2E10, 2, 1), (0x2E10, 3, 50), (0x2E10, 7, 0x4010)], 50, 0, canon_of_ok (by decide +kernel), by decide +kernel⟩

theorem witness_PortsAndLinksWork_down : ∃ (s : State) (h : HostPort), s.Canonical ∧ s.reg 0x2E10 (0x06 + h) ≠ 0 ∧
    (after (.hostLinkDown h) s).reg 0x2E10 6 = 0 ∧ (after (.perstN h) s).reg 0x2E10 6 = 0 :=
  ⟨hosted, 0, canon_of_ok (by decide +kernel), by decide +kernel⟩

theorem witness_PortsAndLinksWork_up : ∃ (s : State) (h : HostPort) (rate width : Nat), s.Canonical ∧ s.powered 5 = true ∧ s.dieUp (2 * h) = true ∧
    s.reg 0x2E10 (0x06 + h) = 0 ∧ rate ∈ [64, 32, 16, 8, 5, 2] ∧ width ∈ [1, 2, 4, 8, 16] ∧ (after (.hostLinkUp h rate width) s).reg 0x2E10 7 = 0x0201 :=
  ⟨dev [], 1, 2, 1, canon_of_ok (by decide +kernel), by decide +kernel⟩

theorem witness_PortsAndLinksWork_host : ∃ (s : State) (id : Nat) (bytes : List Byte) (a : HostAccess) (h : HostPort), s.Canonical ∧
    (s.hostWindow.find? fun b => decide (b.id = id)) = some a ∧ a.packet = none ∧ a.origin = .host h ∧
    (after (.hostWindowCompletion id true bytes) s).out = [.hostRead 0 0 [7, 0, 0, 0] false] :=
  ⟨{ hosted with hostWindow := [⟨3, 0, 0x060080000000, 4, .host 0, none⟩] }, 3, [7], ⟨3, 0, 0x060080000000, 4, .host 0, none⟩, 0, canon_of_ok (by decide +kernel), by decide +kernel⟩

theorem witness_PortsAndLinksWork_packet : ∃ (s : State) (id : Nat) (bytes : List Byte) (a : HostAccess) (p : Packet), s.Canonical ∧
    (s.hostWindow.find? fun b => decide (b.id = id)) = some a ∧ a.packet = some p ∧ p.typ = 0x12 ∧
    ((after (.hostWindowCompletion id true bytes) s).issue.map (·.packet.payload)) = [[7, 0, 0, 0]] :=
  ⟨{ hosted with hostWindow := [⟨3, 0, 0x060080000000, 4, .none, some (memPacket 0xD80 0x12 0x060080000000 0 4)⟩] }, 3, [7],
    ⟨3, 0, 0x060080000000, 4, .none, some (memPacket 0xD80 0x12 0x060080000000 0 4)⟩, memPacket 0xD80 0x12 0x060080000000 0 4, canon_of_ok (by decide +kernel), by decide +kernel⟩

theorem witness_PortsAndLinksWork_ethernet : ∃ (s u : State) (e : EthPort), s.Canonical ∧ u.Canonical ∧ s.powered 6 = true ∧ s.dieUp (e / 4) = true ∧
    s.reg (0x2E20 + e) 0x01 = 0 ∧ s.reg (0x2E20 + e) 0x02 ≠ 0 ∧ (after (.ethernetLinkUp e) s).reg 0x2E2F 1 = 1 ∧
    u.reg (0x2E20 + e) 0x01 = 1 ∧ (after (.ethernetLinkDown e) u).reg 0x2E2F 1 = 0 :=
  ⟨dev [], dev [(0x2E2F, 1, 1)], 15, canon_of_ok (by decide +kernel), canon_of_ok (by decide +kernel), by decide +kernel⟩

/-- A compute reset runs. -/
theorem witness_PortsAndLinksWork_reset : ∃ (s : State) (h : HostPort) (off n : Nat), s.Canonical ∧ s.serves (hostPath h) = true ∧ off + n ≤ bar4Size ∧
    s.isActivePort h = true ∧ s.computeReset = true ∧ (after (.bar4Read h off n []) s).out = [.hostRead 0 2 [] false] :=
  ⟨{ hosted with reset_ := some { width := 4, cause := 1, retrain := true } }, 0, 0, 8, canon_of_ok (by decide +kernel), by decide +kernel⟩

/-! ## Queue pairs -/

/-- Pair 255 of die 3, ready, of context 0 on port 12, which is up; the exposed range is the kilobyte at 0x2000 under key 9.
Its next send and receive requests are `req`, in the last slots of their queues. -/
def pairNow : Pair := { words := [2 ^ 62, 0, 0x2000, 1024, 9, 0, 0, 0], sendCons := 2 ^ 32 - 1, recvCons := 2 ^ 32 - 1 }

/-- A device with pair `x` in place of `pairNow`. -/
def withPair (x : Pair) : State :=
  { dev (ctxOn 1 ++ hbmOn ++ [(0x2E2C, 1, 1)]) with pairs := [(1023, x)], fmap := [(0, 2 ^ 63)] }

/-- The device with request `req` as the next of both queues of `pairNow`. -/
def requested (req : List Nat) : State :=
  stored (stored (withPair pairNow) (pairAddr 1023 (63 * 64)) (wordsBytes req)) (pairAddr 1023 (0x1000 + 63 * 64)) (wordsBytes req)

/-- A request of an opcode for 8 bytes at 0x1FFC, with remote address 0x77, key 5 and immediate 6. -/
def requestOf (op : Nat) : List Nat := [op * 2 ^ 60, 0x1FFC, 8, 0x77, 5 * 2 ^ 32 + 6, 0, 0, 0]

theorem sends_of {s : State} {n op : Nat} {ws : List Nat} (h : (s.dieUp (n / 256) = true ∧ s.lintelOpen (128 + n / 256) = true) ∧
    ((s.pair n).state = 1 ∧ (s.pair n).sendCons ≠ (s.pair n).sendProd) ∧
    (s.requestWords n ((s.pair n).sendCons % 64 * 64) = ws ∧ s.requestBad n ((s.pair n).sendCons % 64 * 64) = false) ∧ wrOp ws = op ∧
    (wrReserved false ws = false ∧ wrLen ws ≠ 0) ∧ s.reg (0x2E20 + pairPort n (s.pair n)) 0x01 = 1) : s.SendsNext n op ws :=
  ⟨h.1, h.2.1, h.2.2.1, h.2.2.2.1, h.2.2.2.2.1, h.2.2.2.2.2⟩

theorem receives_of {s : State} {n op : Nat} {ws : List Nat} (h : s.dieUp (n / 256) = true ∧ ((s.pair n).state = 1 ∧ (s.pair n).recvCons ≠ (s.pair n).recvProd) ∧
    (s.requestWords n (0x1000 + (s.pair n).recvCons % 64 * 64) = ws ∧ s.requestBad n (0x1000 + (s.pair n).recvCons % 64 * 64) = false) ∧ wrOp ws = op ∧
    (wrReserved true ws = false ∧ wrLen ws ≠ 0)) : s.ReceivesNext n op ws :=
  ⟨h.1, h.2.1, h.2.2.1, h.2.2.2.1, h.2.2.2.2⟩

/-- The record of a new pair, ready, of context 0. -/
def newRecord : List Byte := wordsBytes [2 ^ 62 + 5, 0, 0x2000, 8, 3, 0, 0, 0]

/-- Pair 0 of die 3 is selected after reset. -/
theorem witness_QueuePairsSendAndReceive_record : ∃ (s : State) (p : Path) (q : Die) (n : Nat) (bytes : List Byte), s.Canonical ∧ n = 256 * q.val ∧
    s.serves p = true ∧ s.selectedPair p q = n ∧ bytes.length = 64 ∧ (pairRecordCommand p q bytes).code s (0x4200 + q) 0x06 = 0 ∧
    ((after (.queuePairRecordWrite p q bytes) s).pair n).words = recordImage bytes ∧ ((after (.queuePairRecordWrite p q bytes) s).pair n).psn = 5 :=
  ⟨withPair pairNow, .jtag, 3, 768, newRecord, canon_of_ok (by decide +kernel), by decide +kernel⟩

/-- A count 64 ahead over the wrap of 32 bits is taken, one 65 ahead is not. -/
theorem witness_QueuePairsSendAndReceive_producer : ∃ (s : State) (q : Die) (i : PairNo) (n : Nat) (v : Nat), s.Canonical ∧ n = 256 * q.val + i.val ∧ v < 2 ^ 32 ∧
    s.dieUp q = true ∧ (v + 2 ^ 32 - (s.pair n).sendCons) % 2 ^ 32 = 64 ∧ (v + 2 ^ 32 - (s.pair n).recvCons) % 2 ^ 32 = 64 ∧
    64 < (v + 1 + 2 ^ 32 - (s.pair n).sendCons) % 2 ^ 32 ∧ ((after (.sendProducerWrite q i v) s).pair n).sendProd = v ∧
    ((after (.receiveProducerWrite q i v) s).pair n).recvProd = v ∧ ((after (.sendProducerWrite q i (v + 1)) s).pair n).sendProd = 0 ∧
    (after (.sendProducerWrite q i (v + 1)) s).reg 0x4203 8 = 1 :=
  ⟨withPair pairNow, 3, 255, 1023, 63, canon_of_ok (by decide +kernel), by decide +kernel⟩

/-- The command that takes a send request of an opcode. -/
def sendCommand (op : Nat) : Instr :=
  match op with
  | 1 => .send 3 255 []
  | 3 => .rdmaWrite 3 255 []
  | 4 => .rdmaWriteImm 3 255 []
  | _ => .rdmaRead 3 255

theorem witness_QueuePairsSendAndReceive_send (op : Nat) (h : op ∈ [1, 3, 4, 5]) : (requested (requestOf op)).Canonical ∧
    (requested (requestOf op)).SendsNext 1023 op (requestOf op) ∧ (requested (requestOf op)).localHbm 1023 false 0x1FFC 8 ∧
    ((after (sendCommand op) (requested (requestOf op))).pair 1023).sendCons = 0 ∧ (after (sendCommand op) (requested (requestOf op))).out.length = 1 := by
  have h' : op = 1 ∨ op = 3 ∨ op = 4 ∨ op = 5 := by simpa using h
  rcases h' with rfl | rfl | rfl | rfl <;>
  exact ⟨canon_of_ok (by decide +kernel), sends_of (by decide +kernel), ⟨by decide +kernel, by decide +kernel, by decide +kernel⟩, by decide +kernel⟩

/-- A format word of a tensor: base E2M1, ceiling E2M1, framed. -/
def tensorWord : Nat := 2 ^ 28 + 2 ^ 26 + 2 ^ 10

theorem witness_QueuePairsSendAndReceive_receive (op : Nat) (h : op ∈ [8, 9]) : ∃ ws : List Nat, (requested ws).Canonical ∧
    (requested ws).ReceivesNext 1023 op ws ∧
    ((after (if op = 8 then .receive 3 255 else .receiveTensor 3 255) (requested ws)).pair 1023).recvs = [(ws, none)] := by
  have h' : op = 8 ∨ op = 9 := by simpa using h
  rcases h' with rfl | rfl
  · exact ⟨requestOf 8, canon_of_ok (by decide +kernel), receives_of (by decide +kernel), by decide +kernel⟩
  · exact ⟨[9 * 2 ^ 60, 0x1FF8, 1, 0, tensorWord, 0, 0x2000, 0x2008], canon_of_ok (by decide +kernel), receives_of (by decide +kernel), by decide +kernel⟩

/-- SEND_TENSOR of one S24 block: word at 0x2000, frame at 0x2100, index at 0x2200. -/
def tensorRequest : List Nat := [2 * 2 ^ 60, 0x2100, 1, 0, tensorWord, 0, 0x2000, 0x2200]

theorem witness_QueuePairsSendAndReceive_tensor : ∃ (s : State) (n : Nat) (ws : List Nat) (w f y : LocalData) (z : Nat) (msg : List Byte), s.Canonical ∧
    s.SendsNext n 2 ws ∧ s.localHbm n false (wrWords ws) (8 * wrLen ws) ∧ w = s.localRead [] (.pair n) (wrWords ws) (8 * wrLen ws) ∧
    z = storedBytes (wrImm ws) (tensorForm ((List.range (wrLen ws)).map fun b => ofBytes (w.bytes (8 * b) 8))) ∧
    s.localHbm n false (wrLocal ws) (z * wrLen ws) ∧ f = s.localRead [] (.pair (n + 2048)) (wrLocal ws) (z * wrLen ws) ∧
    s.localHbm n false (wrIndex ws) (4 * wrLen ws) ∧ y = s.localRead [] (.pair (n + 3072)) (wrIndex ws) (4 * wrLen ws) ∧
    msg = tensorMessage (wrImm ws) (tensorBlocks (wrImm ws) (wrLen ws) w f y) ∧ msg.length ≤ 2 ^ 31 + 16 ∧ z = 8 :=
  ⟨stored (requested tensorRequest) 0x2000 (toBytes 8 (2 ^ 54)), 1023, tensorRequest, _, _, _, _, _, canon_of_ok (by decide +kernel), sends_of (by decide +kernel),
    ⟨by decide +kernel, by decide +kernel, by decide +kernel⟩, rfl, rfl, ⟨by decide +kernel, by decide +kernel, by decide +kernel⟩, rfl,
    ⟨by decide +kernel, by decide +kernel, by decide +kernel⟩, rfl, rfl, by decide +kernel, by decide +kernel⟩

/-- A request with a status word at 0x3FF8, or with a flag under handle 0. -/
def asked (bit_ : Nat) : List Nat := [2 ^ 60 + 2 ^ bit_, 0, 0, 0, 0, 0x3FF8, 0, 0]

theorem witness_QueuePairsSendAndReceive_ended : ∃ (s : State) (q : Die) (i : PairNo) (n : Nat) (ws : List Nat) (st imm : Nat), s.Canonical ∧ n = 256 * q.val + i.val ∧
    s.dieUp q = true ∧ s.lintelOpen (128 + q) = true ∧ (s.pair n).recvs = [(ws, some (st, imm))] ∧ bit (ws.headD 0) 17 = false ∧ bit (ws.headD 0) 16 = false ∧
    ((after (.workRequestComplete q i true) s).pair n).recvs = [] :=
  ⟨withPair { pairNow with recvs := [(requestOf 8, some (0, 0))] }, 3, 255, 1023, requestOf 8, 0, 0, canon_of_ok (by decide +kernel), by decide +kernel⟩

theorem witness_QueuePairsSendAndReceive_status : ∃ (s : State) (q : Die) (i : PairNo) (n : Nat) (r : SendReq) (st a : Nat), s.Canonical ∧ n = 256 * q.val + i.val ∧
    s.dieUp q = true ∧ s.lintelOpen (128 + q) = true ∧ (s.pair n).sends = [r] ∧ r.status = some st ∧ a = bits (r.words.getD 5 0) 47 0 ∧
    bit (r.words.headD 0) 17 = true ∧ bit (r.words.headD 0) 16 = false ∧ s.localHbm n true a 8 ∧
    (after (.workRequestComplete q i false) s).bytesAt a 8 = [0, 0, 0, 0, 0, 0, 0x0D, 0xA0] :=
  ⟨withPair { pairNow with sends := [{ words := asked 17, status := some 0xA00D }] }, 3, 255, 1023, { words := asked 17, status := some 0xA00D }, 0xA00D, 0x3FF8,
    canon_of_ok (by decide +kernel), facts (by decide +kernel) <| facts (by decide +kernel)
      ⟨⟨by decide +kernel, by decide +kernel, by decide +kernel⟩, by decide +kernel⟩⟩

theorem witness_QueuePairsSendAndReceive_flag : ∃ (s : State) (q : Die) (i : PairNo) (n : Nat) (r : SendReq) (st m : Nat), s.Canonical ∧ n = 256 * q.val + i.val ∧
    s.dieUp q = true ∧ s.lintelOpen (128 + q) = true ∧ (s.pair n).sends = [r] ∧ r.status = some st ∧ bit (r.words.headD 0) 17 = false ∧
    bit (r.words.headD 0) 16 = true ∧ s.resolve (s.pair n).owner (bits (r.words.headD 0) 15 0) = .cell m ∧ m < 3264 ∧
    ((after (.workRequestComplete q i false) s).issue.map fun p => (p.packet.typ, p.packet.dst)) = [(1, 0)] :=
  ⟨withPair { pairNow with sends := [{ words := asked 16, status := some 0 }] }, 3, 255, 1023, { words := asked 16, status := some 0 }, 0, 0,
    canon_of_ok (by decide +kernel), by decide +kernel⟩

/-- A write of the last 8 bytes of the exposed range. -/
theorem witness_QueuePairsSendAndReceive_incoming : ∃ (s : State) (q : Die) (n k a : Nat) (b : List Byte), s.Canonical ∧ s.dieUp q = true ∧
    s.lintelOpen (128 + q) = true ∧ (s.rdmaIn.find? fun e => decide (e.1 / 256 = q.val)) = some (n, 0, .write k a b) ∧ (s.pair n).state = 1 ∧
    (s.pair n).exposes (k, a, b.length) = true ∧ s.localHbm n true a b.length ∧ s.reg (0x2E20 + pairPort n (s.pair n)) 0x01 = 1 ∧
    (after (.incomingRdma q []) s).bytesAt 0x23F8 8 = b ∧ (after (.incomingRdma q []) s).out = [.roce n .ack 0] :=
  ⟨{ withPair pairNow with rdmaIn := [(1023, 0, .write 9 0x23F8 (List.replicate 8 7))] }, 3, 1023, 9, 0x23F8, List.replicate 8 7, canon_of_ok (by decide +kernel),
    by decide +kernel, facts (by decide +kernel) ⟨⟨by decide +kernel, by decide +kernel, by decide +kernel⟩, by decide +kernel⟩⟩

theorem witness_QueuePairsSendAndReceive_packet : ∃ (s : State) (q : Die) (i : PairNo) (n : Nat) (e : EthPort) (b : List Byte) (ws : List Nat), s.Canonical ∧
    n = 256 * q.val + i.val ∧ e.val / 4 = q.val ∧ s.reg (0x2E20 + e) 0x01 = 1 ∧ s.dieUp q = true ∧ s.lintelOpen (128 + q) = true ∧ (s.pair n).state = 1 ∧
    pairPort n (s.pair n) = e.val ∧ s.arrivalPsn n = 0 ∧ s.rdmaIn = [] ∧ (s.pair n).waitingReceive = some ws ∧ wrOp ws = 8 ∧ b.length = wrLen ws ∧ s.localHbm n true (wrLocal ws) b.length ∧
    (after (.rocePacketReceive e ⟨i, 1, true, .send b, 1, 0⟩ []) s).out = [.roce n .nakSequence 0] ∧ isRequest (.send b) = true ∧ psnPast 1 0 = false ∧
    psnPast (2 ^ 24 - 1) 0 = true ∧ (after (.rocePacketReceive e ⟨i, 2 ^ 24 - 1, true, .send b, 1, 0⟩ []) s).out = [.roce n .ack (2 ^ 24 - 1)] ∧
    ((after (.rocePacketReceive e ⟨i, 0, false, .ack, 1, 0⟩ []) s).pair n).icrcErrors = 1 ∧ (after (.rocePacketReceive e ⟨i, 0, true, .write 1 2 b, 1, 0⟩ []) s).rdmaIn = [(n, 0, .write 1 2 b)] ∧
    (after (.rocePacketReceive e ⟨i, 0, true, .send b, 1, 0⟩ []) s).bytesAt 0x1FFC 8 = b ∧
    ((after (.rocePacketReceive e ⟨i, 0, true, .send b, 1, 0⟩ []) s).pair n).recvs = [(ws, some (0, 0))] :=
  ⟨withPair { pairNow with recvs := [(requestOf 8, none)] }, 3, 255, 1023, 12, List.replicate 8 7, requestOf 8, canon_of_ok (by decide +kernel), by decide +kernel,
    by decide +kernel, facts (by decide +kernel) <| facts (by decide +kernel)
      ⟨by decide +kernel, by decide +kernel, ⟨by decide +kernel, by decide +kernel, by decide +kernel⟩, by decide +kernel⟩⟩

/-- Die 3's lintel is under reset on the port's side, so a message of priority 5 waits in the port's buffer. -/
theorem witness_QueuePairsSendAndReceive_paused : ∃ (s : State) (e : EthPort) (i : PairNo) (n : Nat), s.Canonical ∧ n = 256 * (e.val / 4) + i.val ∧
    s.reg (0x2E20 + e) 0x01 = 1 ∧ s.dieUp (e / 4) = true ∧ s.lintelOpen (128 + e / 4) = false ∧ (s.pair n).state = 1 ∧ pairPort n (s.pair n) = e.val ∧
    s.arrivalPsn n = 0 ∧ (after (.rocePacketReceive e ⟨i, 0, true, .send [7], 0, 0⟩ []) s).reg (0x2E20 + e) 0x0A = 1 ∧
    (after (.rocePacketReceive e ⟨i, 0, true, .send [7], 0, 0⟩ []) s).out = [.pause e (bits ((s.pair n).words.headD 0) 50 48)] ∧
    (after (.rocePacketReceive e ⟨i, 0, true, .send [7], 0, 0⟩ []) s).rdmaIn = [(n, 0, .send [7])] :=
  ⟨{ withPair pairNow with lintels := [(131, { closed := true })] }, 12, 255, 1023, canon_of_ok (by decide +kernel), by decide +kernel⟩

/-- One send is outstanding with a retry left, and with none. -/
theorem witness_QueuePairsSendAndReceive_timers : ∃ (s u : State) (q : Die) (i : PairNo) (n : Nat), s.Canonical ∧ u.Canonical ∧ n = 256 * q.val + i.val ∧
    s.dieUp q = true ∧ (s.pair n).state = 1 ∧ (s.pair n).outstanding ≠ [] ∧ (s.pair n).retries ≠ 0 ∧ ((after (.cnpReceive q i 50) s).pair n).rate = 2 ^ 63 ∧
    ((after (.rateIncreaseTick q i) s).pair n).rate = 2 ^ 64 ∧ ((after (.ackTimeout q i) s).pair n).retries = 0 ∧
    u.dieUp q = true ∧ (u.pair n).state = 1 ∧ (u.pair n).outstanding ≠ [] ∧ (u.pair n).retries = 0 ∧ ((after (.ackTimeout q i) u).pair n).state = 2 :=
  ⟨withPair { pairNow with sends := [{ words := requestOf 1, op := some (.send []) }], retries := 1 },
    withPair { pairNow with sends := [{ words := requestOf 1, op := some (.send []) }] }, 3, 255, 1023, canon_of_ok (by decide +kernel), canon_of_ok (by decide +kernel),
    by decide +kernel⟩

/-! ## Watchdogs and dumps -/

/-- Context 0 runs a descriptor under a watchdog of 100 beats, with the dump slots `ds`. -/
def watched (ds : List DumpSlot) : State :=
  { dev (ctxOn 1 ++ [(0x2700, 0x35, 100)]) with ctxs := [(0, { active := [loadDesc] })], dumps := ds }

theorem witness_WatchdogsAndDumps_expiry : ∃ (s u : State) (c : Ctx) (beats k : Nat), s.Canonical ∧ u.Canonical ∧ s.watchdogDue c beats = true ∧ s.dumpSlot = some k ∧
    k < s.dumps.length ∧ u.watchdogDue c beats = true ∧ u.dumpSlot = none :=
  ⟨watched [{ state := 1, ctx := 1 }, { state := 1, ctx := 1 }, { state := 1, ctx := 1 }, {}], watched (List.replicate 4 { state := 1, ctx := 1 }), 0, 100, 3, canon_of_ok (by decide +kernel),
    canon_of_ok (by decide +kernel), by decide +kernel⟩

/-- Slots 0 to 2 hold dumps; the oldest that is not locked is taken. -/
theorem witness_WatchdogsAndDumps_capture : ∃ (s : State) (p : Path) (c : Ctx) (k : Nat), s.Canonical ∧ s.serves p = true ∧ s.controllerDown = false ∧
    s.ctxState c = 2 ∧ s.dumpSlot = some k ∧ k = 2 ∧ ((after (.capture p c) s).dumps.map (·.state)) = [2, 2, 1, 1] :=
  ⟨{ dev (ctxSet 1 ++ [(0x2700, 1, 2), (0x2F20, 4, 1)]) with
      dumps := [{ state := 2, since := 1 }, { state := 2, since := 9 }, { state := 2, since := 5 }, { state := 1 }] }, .jtag, 0, 2, canon_of_ok (by decide +kernel),
    by decide +kernel⟩

theorem witness_WatchdogsAndDumps_complete : ∃ (s u : State) (k : Fin 4) (d e : DumpSlot), s.Canonical ∧ u.Canonical ∧ s.dumps.getD k {} = d ∧ d.state = 1 ∧ d.watchdog = false ∧
    (after (.dumpCaptureComplete k) s).reg 0x2700 0x3B = 3 ∧ (after (.dumpCaptureComplete k) s).dumpCopying = some [1] ∧
    u.dumps.getD k {} = e ∧ e.state = 1 ∧ e.watchdog = true ∧ u.ctxRuns e.ctx = true ∧ (after (.dumpCaptureComplete k) u).ctxState 0 = 2 :=
  ⟨watched [{}, {}, {}, { state := 1, bytes := [1] }], watched [{}, {}, {}, { state := 1, bytes := [1], watchdog := true }], 3,
    { state := 1, bytes := [1] }, { state := 1, bytes := [1], watchdog := true }, canon_of_ok (by decide +kernel), canon_of_ok (by decide +kernel), by decide +kernel⟩

theorem witness_WatchdogsAndDumps_copy : ∃ (s : State) (bs : List Byte), s.Canonical ∧ s.dumpCopying = some bs ∧ (after .dumpFlashCopyComplete s).dumpFlash = [1] :=
  ⟨{ dev [] with dumpCopying := some [1] }, [1], canon_of_ok (by decide +kernel), by decide +kernel⟩

theorem witness_WatchdogsAndDumps_empty : ∃ (s : State) (p : Path) (v : Nat), s.Canonical ∧ s.serves p = true ∧ s.controllerDown = false ∧ v ≠ 0 ∧
    (s.dumps.getD (s.selectedDump p) {}).state ≠ 1 ∧ ((after (.emptySlot p v) s).dumps.map (·.state)) = [0, 1, 1, 1] :=
  ⟨watched [{ state := 2 }, { state := 1 }, { state := 1 }, { state := 1 }], .jtag, 1, canon_of_ok (by decide +kernel), by decide +kernel⟩

/-! ## The stated rules -/

/-- The lowest, one and the highest count of fenced sites of a course. -/
theorem witness_CourseStateField : ∃ mask k : Nat, mask < 2 ^ 17 ∧ k = ((List.range 17).filter fun b => mask.testBit b).length ∧ k = 17 ∧
    bits (courseEntry mask) 23 22 = 2 ∧ bits (courseEntry (2 ^ 16)) 23 22 = 1 ∧ bits (courseEntry 0) 23 22 = 0 :=
  ⟨2 ^ 17 - 1, 17, by decide +kernel⟩

/-- A state whose oldest incoming message of die 3 is `op`. -/
def incoming (op : RoceOp) : State := { withPair pairNow with rdmaIn := [(1023, 0, op)] }

/-- The messages that the exposed range refuses: the first address before it, one byte past its end, and a wrong key. -/
def outside : List RoceOp := [.write 9 0x1FFF [7], .readRequest 9 0x23F9 8, .writeImm 8 0x2000 [7] 1]

theorem witness_RdmaOutsideTheExposedRange (op : RoceOp) (h : op ∈ outside) : (incoming op).Canonical ∧ (incoming op).dieUp 3 = true ∧
    (incoming op).lintelOpen 131 = true ∧ ((incoming op).rdmaIn.find? fun e => decide (e.1 / 256 = 3)) = some (1023, 0, op) ∧ ((incoming op).pair 1023).state = 1 ∧
    (incoming op).reg (0x2E20 + pairPort 1023 ((incoming op).pair 1023)) 0x01 = 1 ∧ ((incoming op).pair 1023).words.getD 2 0 = 0x2000 ∧
    ((incoming op).pair 1023).words.getD 3 0 = 1024 ∧ ((incoming op).pair 1023).words.getD 4 0 = 9 ∧
    (after (.incomingRdma 3 []) (incoming op)).out = [.roce 1023 .nakRemoteAccess 0] ∧ ((after (.incomingRdma 3 []) (incoming op)).pair 1023).nakked = 1 ∧
    (after (.incomingRdma 3 []) (incoming op)).mem = (incoming op).mem :=
  have hc : ∀ op ∈ outside, canonOk (incoming op) = true := by decide +kernel
  have hr : ∀ op ∈ outside, (incoming op).dieUp 3 = true ∧
    (incoming op).lintelOpen 131 = true ∧ ((incoming op).rdmaIn.find? fun e => decide (e.1 / 256 = 3)) = some (1023, 0, op) ∧ ((incoming op).pair 1023).state = 1 ∧
    (incoming op).reg (0x2E20 + pairPort 1023 ((incoming op).pair 1023)) 0x01 = 1 ∧ ((incoming op).pair 1023).words.getD 2 0 = 0x2000 ∧
    ((incoming op).pair 1023).words.getD 3 0 = 1024 ∧ ((incoming op).pair 1023).words.getD 4 0 = 9 ∧
    (after (.incomingRdma 3 []) (incoming op)).out = [.roce 1023 .nakRemoteAccess 0] ∧ ((after (.incomingRdma 3 []) (incoming op)).pair 1023).nakked = 1 ∧
    (after (.incomingRdma 3 []) (incoming op)).mem = (incoming op).mem := by decide +kernel
  ⟨canon_of_ok (hc op h), hr op h⟩

end Sys2Proof.Tests
end

/-! SUPPORT. Rings: what a write of whole words, of a status word and of a ring descriptor leaves in memory, tags and
scalars, and the statement on descriptors and credits (R267 to R269, R273). -/

namespace Sys2Proof.Machine

open Sys2Proof

/-! ## Bytes of memory -/

/-- Reading a byte after a run of bytes was stored. -/
theorem readByte_storeBytes {s : State} (h : Memory.wf s.mem) (a : Nat) (bs : List Byte) (x : Nat) :
    readByte ((storeBytes a bs).run s).mem x =
      if a ≤ x ∧ x < a + bs.length then bs.getD (x - a) 0 else readByte s.mem x := by
  induction bs generalizing a s with
  | nil => rw [if_neg (by simp)]; rfl
  | cons b bs ih =>
    have hb : (Eff.apply (.store a b) s).mem = writeByte s.mem a b := rfl
    rw [storeBytes, run_seq, run_eff, ih (apply_mem_wf _ h), hb, readByte_writeByte h, List.length_cons]
    by_cases hx : x = a
    · subst hx
      rw [if_neg (by omega), if_pos rfl, if_pos (by omega), Nat.sub_self, List.getD_cons_zero]
    · rw [if_neg hx]
      by_cases hin : a + 1 ≤ x ∧ x < a + 1 + bs.length
      · rw [if_pos hin, if_pos (by omega), show x - a = x - (a + 1) + 1 by omega, List.getD_cons_succ]
      · rw [if_neg hin, if_neg (by omega)]

theorem bytesAt_of_mem {s t : State} (h : t.mem = s.mem) (a n : Nat) : t.bytesAt a n = s.bytesAt a n := by
  unfold State.bytesAt; rw [h]

/-- Bytes that were stored read back. -/
theorem bytesAt_storeBytes {s : State} (h : Memory.wf s.mem) (a : Nat) (bs : List Byte) :
    ((storeBytes a bs).run s).bytesAt a bs.length = bs := by
  refine List.ext_getElem (by simp [State.bytesAt]) fun i _ hi => ?_
  simp [State.bytesAt, readByte_storeBytes h, hi]

/-- A store leaves the bytes that it does not reach. -/
theorem bytesAt_storeBytes_disjoint {s : State} (h : Memory.wf s.mem) {a b n : Nat} {bs : List Byte}
    (hd : b + n ≤ a ∨ a + bs.length ≤ b) : ((storeBytes a bs).run s).bytesAt b n = s.bytesAt b n := by
  refine List.map_congr_left fun i hi => ?_
  have hi : i < n := List.mem_range.mp hi
  rw [readByte_storeBytes h, if_neg (by omega)]

/-! ## Writes of whole words (Table 06-4) -/

@[simp] theorem padTo_length (n : Nat) (bs : List Byte) : (padTo n bs).length = n := by
  simp [padTo]; omega

theorem modS_mem (k : Nat) (f : SCore → SCore) (s : State) : ((modS k f).run s).mem = s.mem := rfl

/-- A write of words leaves every other word of its S-tile. -/
theorem bytesAt_putWords_of_notMem {s : State} (h : Memory.wf s.mem) {t w : Nat} {ws : List Nat} (hw : w ∉ ws)
    (bs : List Byte) : ((putWords t ws bs).run s).bytesAt (wordAddr t w) 8 = s.bytesAt (wordAddr t w) 8 := by
  induction ws generalizing s bs with
  | nil => rfl
  | cons v ws ih =>
    obtain ⟨hv, hw⟩ := not_or.mp (mt List.mem_cons.mpr hw)
    simp only [putWords, run_all_cons, run_all_nil]
    rw [ih (run_mem_wf _ (run_mem_wf _ h)) hw, bytesAt_of_mem (modS_mem _ _ _)]
    refine bytesAt_storeBytes_disjoint h ?_
    simp only [wordAddr, scratchAddr, padTo_length]; omega

/-- The first word that a write of words names holds its first eight bytes. -/
theorem bytesAt_putWords_head {s : State} (h : Memory.wf s.mem) {t w : Nat} {ws : List Nat} (hw : w ∉ ws)
    (bs : List Byte) : ((putWords t (w :: ws) bs).run s).bytesAt (wordAddr t w) 8 = padTo 8 bs := by
  have hp := bytesAt_storeBytes h (wordAddr t w) (padTo 8 bs)
  rw [padTo_length] at hp
  simp only [putWords, run_all_cons, run_all_nil]
  rw [bytesAt_putWords_of_notMem (run_mem_wf _ (run_mem_wf _ h)) hw, bytesAt_of_mem (modS_mem _ _ _), hp]

/-- The first of a slot's words. -/
theorem slotWords_cons (k : Nat) : slotWords k = 8 * k :: (List.range 7).map fun i => 8 * k + (i + 1) := rfl

/-- A plain write without poison leaves the tag of every slot that is not poisoned. -/
theorem tagAt_plainTag {s : State} {k : Nat} (hk : s.tagAt k ≠ 2) (t slot : Nat) (whole : Bool) :
    ((plainTag t slot whole false).run s).tagAt k = s.tagAt k := by
  simp only [plainTag, run_look, Bool.false_eq_true, if_false, run_whenP]
  split
  · rename_i hc
    have h2 : s.tagAt (t * 65536 + slot) = 2 := by simpa [State.slotTag] using (Bool.and_eq_true_iff.mp hc).2
    refine get_set_ne _ _ _ _ _ _ ?_
    rintro rfl
    exact hk h2
  · rfl

theorem tagAt_eachP_plainTag {s : State} {k : Nat} (hk : s.tagAt k ≠ 2) (t : Nat) (slots : List Nat) (whole : Nat → Bool) :
    ((eachP slots fun j => plainTag t j (whole j) false).run s).tagAt k = s.tagAt k := by
  induction slots generalizing s with
  | nil => rfl
  | cons j slots ih =>
    have h1 := tagAt_plainTag hk t j (whole j)
    rw [run_eachP_cons, ih (by rwa [h1]), h1]

/-- Tag changes of plain writes leave memory. -/
theorem eachP_plainTag_mem (t : Nat) (slots : List Nat) (whole : Nat → Bool) (poison : Bool) (s : State) :
    ((eachP slots fun j => plainTag t j (whole j) poison).run s).mem = s.mem :=
  run_keeps (g := State.mem) (P := fun e => e.field ≠ .mem) (by simp [plainTag, setTag, Eff.field])
    (fun _ s he => Eff.keeps_mem he s) s

/-! ## What a counted write of words can do -/

theorem mem_beatKeys {ns : List Nat} {k : Nat} :
    k ∈ beatKeys ns ↔ ∃ n ∈ ns, k = rk (0x3000 + n) 0x51 ∨ k = rk (0x3000 + n) 0x52 ∨ k = rk (0x3000 + n) 0x57 := by
  simp [beatKeys]

/-- An effect that a write of words through the ports of sites `ns` can have. -/
def Eff.isWordWrite (ns : List Nat) (e : Eff) : Bool :=
  match e with
  | .regs k _ => (beatKeys ns).contains k
  | .store _ _ => true
  | .stiles _ _ => true
  | .tags _ _ => true
  | _ => false

/-- What such a write relates: fields other than its own, and scalars that count no access beat of the sites, stay. -/
def WordWriteStep (ns : List Nat) (s t : State) : Prop :=
  t = { s with tags := t.tags, mem := t.mem, stiles := t.stiles, regs := t.regs } ∧
    ∀ k, k ∉ beatKeys ns → t.regAt k = s.regAt k

theorem WordWriteStep.trans {ns : List Nat} (s m t : State) (h1 : WordWriteStep ns s m) (h2 : WordWriteStep ns m t) :
    WordWriteStep ns s t := by
  obtain ⟨hm, hmk⟩ := h1
  obtain ⟨ht, htk⟩ := h2
  refine ⟨?_, fun k hk => (htk k hk).trans (hmk k hk)⟩
  rw [hm] at ht
  exact ht

theorem apply_wordWriteStep {ns : List Nat} (e : Eff) (s : State) (h : e.isWordWrite ns = true) :
    WordWriteStep ns s (e.apply s) := by
  cases e with
  | regs k v =>
    refine ⟨rfl, fun j hj => get_set_ne _ _ _ _ _ _ ?_⟩
    rintro rfl
    exact hj (List.contains_iff_mem.mp h)
  | store a b => exact ⟨rfl, fun _ _ => rfl⟩
  | stiles k v => exact ⟨rfl, fun _ _ => rfl⟩
  | tags k v => exact ⟨rfl, fun _ _ => rfl⟩
  | _ => exact Bool.noConfusion h

theorem run_wordWriteStep {ns : List Nat} {p : Prog} (h : p.Every fun e => e.isWordWrite ns = true) (s : State) :
    WordWriteStep ns s (p.run s) :=
  run_rel (R := WordWriteStep ns) (fun _ => ⟨rfl, fun _ _ => rfl⟩) WordWriteStep.trans h apply_wordWriteStep s

theorem every_countBeats {ns : List Nat} {n : Nat} (hn : n ∈ ns) (ws : List Nat) :
    (countBeats n ws).Every fun e => e.isWordWrite ns = true := by
  have hwide := mem_beatKeys.mpr ⟨n, hn, .inl rfl⟩
  have hnarrow := mem_beatKeys.mpr ⟨n, hn, .inr (.inl rfl)⟩
  have hsplit := mem_beatKeys.mpr ⟨n, hn, .inr (.inr rfl)⟩
  simp [countBeats, siteCount64, siteCount32, count64, count32, bump, setReg, Eff.isWordWrite, hwide, hnarrow, hsplit]

/-- An effect that stores bytes or cancels the rewrites of words. -/
def Eff.isBytes (e : Eff) : Bool :=
  match e with
  | .store _ _ => true
  | .stiles _ _ => true
  | _ => false

theorem every_storeBytes (a : Nat) (bs : List Byte) : (storeBytes a bs).Every fun e => e.isBytes = true := by
  induction bs generalizing a with
  | nil => trivial
  | cons b bs ih => exact ⟨rfl, ih (a + 1)⟩

theorem every_putWords (t : Nat) (ws : List Nat) (bs : List Byte) : (putWords t ws bs).Every fun e => e.isBytes = true := by
  induction ws generalizing bs with
  | nil => trivial
  | cons w ws ih => exact ⟨every_storeBytes _ _, fun _ => rfl, ih _, trivial⟩

theorem isWordWrite_of_isBytes {ns : List Nat} (e : Eff) (h : e.isBytes = true) : e.isWordWrite ns = true := by
  cases e with
  | store a b => rfl
  | stiles k v => rfl
  | _ => exact Bool.noConfusion h

theorem every_plainWriteWords {ns : List Nat} (t : Nat) (ws : List Nat) (bs : List Byte) (poison : Bool) :
    (plainWriteWords t ws bs poison).Every fun e => e.isWordWrite ns = true := by
  simp only [plainWriteWords, plainTag, setTag, every_all, every_eachP, every_look, every_ite, every_whenP, every_eff,
    List.forall_mem_cons]
  exact ⟨every_mono isWordWrite_of_isBytes (every_putWords t ws bs), fun _ _ _ => ⟨fun _ => rfl, fun _ _ => rfl⟩, by simp⟩

theorem field_ne_tags_of_isBytes {e : Eff} (h : e.isBytes = true) : e.field ≠ .tags := by
  intro hf
  cases e with
  | store a b => exact Field.noConfusion hf
  | stiles k v => exact Field.noConfusion hf
  | _ => exact Bool.noConfusion h

/-- Storing words leaves every tag. -/
theorem putWords_tags (t : Nat) (ws : List Nat) (bs : List Byte) (s : State) : ((putWords t ws bs).run s).tags = s.tags :=
  run_keeps (g := State.tags) (every_putWords t ws bs)
    (fun _ s he => Eff.keeps_tags (field_ne_tags_of_isBytes he) s) s

theorem tagAt_plainWriteWords {s : State} {k : Nat} (hk : s.tagAt k ≠ 2) (t : Nat) (ws : List Nat) (bs : List Byte) :
    ((plainWriteWords t ws bs false).run s).tagAt k = s.tagAt k := by
  have hput : ((putWords t ws bs).run s).tagAt k = s.tagAt k := by unfold State.tagAt; rw [putWords_tags]
  simp only [plainWriteWords, run_all_cons, run_all_nil]
  rw [tagAt_eachP_plainTag (by rwa [hput]), hput]

/-- The first word of a plain write holds its first eight bytes. -/
theorem bytesAt_plainWriteWords_head {s : State} (h : Memory.wf s.mem) {t w : Nat} {ws : List Nat} (hw : w ∉ ws)
    (bs : List Byte) (poison : Bool) :
    ((plainWriteWords t (w :: ws) bs poison).run s).bytesAt (wordAddr t w) 8 = padTo 8 bs := by
  simp only [plainWriteWords, run_all_cons, run_all_nil]
  rw [bytesAt_of_mem (eachP_plainTag_mem _ _ _ _ _), bytesAt_putWords_head h hw]

/-- Counting access beats leaves every tag. -/
theorem tagAt_countBeats (n : Nat) (ws : List Nat) (s : State) (k : Nat) : ((countBeats n ws).run s).tagAt k = s.tagAt k :=
  run_keeps (g := fun s => s.tagAt k) (P := fun e => e.field ≠ .tags)
    (by simp [countBeats, siteCount64, siteCount32, count64, count32, bump, setReg, Eff.field])
    (fun _ s he => by unfold State.tagAt; rw [Eff.keeps_tags he]) s

/-! ## The status word of a ring (R269) -/

/-- A tag code that finds no error does nothing. -/
@[simp] theorem run_tagErrors_clean (t site : Nat) (slots : List Nat) (s : State) : (tagErrors t site slots {}).run s = s := rfl

/-- Writing a ring's status word without a code error: the beats count, then the slot's eight words are written. -/
theorem run_writeStatus (r : Nat) (s : State) :
    (writeStatus r {}).run s =
      (plainWriteWords (ringTile r) (slotWords (rdStatus (s.ring r).desc)) (toBytes 64 (statusWord (s.ring r))) false).run
        ((countBeats (s.sSiteNo (ringTile r)) (slotWords (rdStatus (s.ring r).desc))).run s) := by
  simp only [writeStatus, run_look, run_all_cons, run_all_nil, run_tagErrors_clean, slotWords]

/-- All that writing a status word can do. -/
theorem writeStatus_step (r : Nat) (s : State) :
    WordWriteStep [s.sSiteNo (ringTile r)] s ((writeStatus r {}).run s) := by
  rw [run_writeStatus]
  exact WordWriteStep.trans _ _ _ (run_wordWriteStep (every_countBeats (List.mem_singleton_self _) _) s)
    (run_wordWriteStep (every_plainWriteWords _ _ _ _) _)

theorem tagAt_writeStatus {s : State} {k : Nat} (hk : s.tagAt k ≠ 2) (r : Nat) :
    ((writeStatus r {}).run s).tagAt k = s.tagAt k := by
  rw [run_writeStatus, tagAt_plainWriteWords (by rwa [tagAt_countBeats]), tagAt_countBeats]

/-- The first word of the status slot holds the status word. -/
theorem bytesAt_writeStatus {s : State} (h : Memory.wf s.mem) (r : Nat) :
    ((writeStatus r {}).run s).bytesAt (wordAddr (ringTile r) (8 * rdStatus (s.ring r).desc)) 8 =
      padTo 8 (toBytes 64 (statusWord (s.ring r))) := by
  rw [run_writeStatus, slotWords_cons]
  exact bytesAt_plainWriteWords_head (run_mem_wf _ h) (by simp) _ _

/-! ## Changing a ring's record -/

@[simp] theorem ring_answered (s t : State) (k : Nat) : (s.answered t).ring k = s.ring k := rfl

theorem ring_modRing {s : State} (h : s.Canonical) (r : Nat) (f : Ring → Ring) (j : Nat) :
    ((modRing r f).run s).ring j = if j = r then f (s.ring r) else s.ring j :=
  Tab.get_set h.rings.1 r (f (s.ring r)) j

/-! ## Ring descriptors (R268) -/

/-- An accepted write to an enabled ring changes its descriptor and sets its credits to 0. -/
theorem run_writeRing_enabled {s : State} {r : Nat} (h : rdEnabled (s.ring r).desc = true) (w : Nat) :
    (writeRing r w).run s = (modRing r fun x => { x with desc := w, credits := 0 }).run s := by
  simp only [writeRing, run_look, h, if_true]

/-- The state in which an enabled ring's status word is written: its record is fresh and its slots are empty. -/
def emptiedRing (r w : Nat) (s : State) : State :=
  (emptyRingSlots r w).run ((modRing r fun x => { x.off with desc := w }).run s)

/-- Enabling a ring that is no channel empties it and writes its status word. -/
theorem run_writeRing_enable {s : State} {r w : Nat} (h : rdEnabled (s.ring r).desc = false) (hw : rdEnabled w = true)
    (hc : isChannel w = false) : (writeRing r w).run s = (writeStatus r {}).run (emptiedRing r w s) := by
  simp [writeRing, h, hw, hc, emptiedRing]

theorem ring_emptiedRing {s : State} (h : s.Canonical) (r w j : Nat) :
    (emptiedRing r w s).ring j = if j = r then { (s.ring r).off with desc := w } else s.ring j :=
  ring_modRing h r (fun x => { x.off with desc := w }) j

theorem slotTag_emptiedRing (s : State) {r w k : Nat} (hlo : rdSlot w ≤ k) (hhi : k < rdSlot w + rdSlots w) :
    (emptiedRing r w s).slotTag (ringTile r) k = 0 := by
  have hk : ringTile r * 65536 + rdSlot w ≤ ringTile r * 65536 + k ∧
      ringTile r * 65536 + k < ringTile r * 65536 + rdSlot w + rdSlots w := by omega
  exact (Tab.get_drop _ _ _).trans (if_pos hk)

/-- The status word of a ring that was just enabled is 0: head, tail and placed count are 0. -/
theorem statusWord_off (x : Ring) (w : Nat) : statusWord { x.off with desc := w } = 0 := by
  simp [statusWord, Ring.off, place]

/-- Enabling a posted or signal ring: its record, its slots, its status word, and what stays (R268, R269). -/
theorem writeRing_enable {s u : State} {r w : Nat} (hs : s.Canonical) (h : rdEnabled (s.ring r).desc = false)
    (hw : rdEnabled w = true) (hc : isChannel w = false) (hu : (writeRing r w).run s = u) :
    (∀ j, u.ring j = if j = r then { (s.ring r).off with desc := w } else s.ring j) ∧
      (∀ k, rdSlot w ≤ k → k < rdSlot w + rdSlots w → u.slotTag (ringTile r) k = 0) ∧
      u.load (wordAddr (ringTile r) (8 * rdStatus w)) 8 = 0 ∧
      u = { s with rings := u.rings, tags := u.tags, mem := u.mem, stiles := u.stiles, regs := u.regs } ∧
      ∀ k, k ∉ beatKeys [s.sSiteNo (ringTile r)] → u.regAt k = s.regAt k := by
  rw [run_writeRing_enable h hw hc] at hu
  have hring : (emptiedRing r w s).ring r = { (s.ring r).off with desc := w } := by rw [ring_emptiedRing hs, if_pos rfl]
  obtain ⟨hframe, hregs⟩ := hu ▸ writeStatus_step r (emptiedRing r w s)
  have hrings : u.rings = (emptiedRing r w s).rings := by rw [hframe]
  refine ⟨fun j => ?_, fun k hlo hhi => ?_, ?_, ?_, hregs⟩
  · rw [← ring_emptiedRing hs r w j]; unfold State.ring; rw [hrings]
  · have h0 := slotTag_emptiedRing s (r := r) hlo hhi
    unfold State.slotTag at h0 ⊢
    rw [← hu, tagAt_writeStatus (by rw [h0]; decide), h0]
  · have hb := bytesAt_writeStatus (s := emptiedRing r w s) hs.mem r
    rw [hring, statusWord_off, hu] at hb
    unfold State.load
    rw [hb]
    decide
  · rw [hrings]; exact hframe

/-! ## Returned credits (R273) -/

/-- A CREDIT_RETURN packet leaves no count of its context's operations behind. -/
theorem run_packetDone_credits {p : Packet} (h : p.typ = 0x11) (s : State) : (packetDone p).run s = s := by
  simp [packetDone, isFlagOp, h]

/-- The credits that come back for an enabled send ring of the packet's context are added to it. -/
theorem run_takeCredits {s : State} {p : Packet} {r : Nat} (ht : p.typ = 0x11) (hr : bits p.operand 13 0 = r)
    (he : rdEnabled (s.ring r).desc = true) (hk : rdKind (s.ring r).desc = 1) (hc : rdCtx (s.ring r).desc = p.ctx)
    (hp : r < 12288 → (s.sSite (ringTile r)).isSome = true) :
    (takeCredits p).run s = (modRing r fun x => { x with credits := min 65535 (x.credits + bits p.operand 31 16) }).run s := by
  subst hr
  have hpresent : (decide (bits p.operand 13 0 < 12288) && (s.sSite (ringTile (bits p.operand 13 0))).isNone) = false := by
    by_cases h : bits p.operand 13 0 < 12288
    · rw [Option.isNone_eq_false_iff.mpr (hp h), Bool.and_false]
    · rw [decide_eq_false h, Bool.false_and]
  simp only [takeCredits, run_look, hpresent, Bool.false_eq_true, if_false, run_all_cons, run_all_nil,
    run_packetDone_credits ht, run_whenP, he, hk, hc, and_self, decide_true, Bool.and_true, if_true]

/-- The next packet of its type is taken from the endpoint and then applied. -/
theorem run_applyPacket {s : State} {p : Packet} {typ : Nat} (hn : s.isNext p = true) (ht : p.typ = typ) (f : Prog) :
    (applyPacket typ p f).run s = f.run { s with delivered := s.delivered.erase p } := by
  simp only [applyPacket, run_look, ht, hn, beq_self_eq_true, Bool.and_self, run_whenP, if_true, run_all_cons, run_all_nil]
  rfl

/-! ## The statement -/

/-- The end of an accepted descriptor write is the end of its effect with the answer's fields. -/
theorem run_ringDescriptorWrite {s : State} {p : Path} {v : Nat} (hs : s.serves p = true)
    (hc : (ringCommand p v).code s 0x2900 0x02 = 0) :
    ∃ t, exec (.ringDescriptorWrite p v) s = .next t ∧
      t = ((writeRing (s.selectedRing p) (v - v % 2)).run s).answered t :=
  ⟨_, rfl, (command_accepted hs hc rfl).1⟩

/-- Settles O21: the effect of an accepted write is `writeRing`, of whose steps only the status write touches more than the
ring and its tags; the answer touches none of these. -/
theorem ringDescriptorsAndCredits : Obligations.RingDescriptorsAndCredits := by
  intro s hs
  refine ⟨fun p v r hserves hr hcode => ⟨fun hoff hon hchan => ?_, fun hon => ?_⟩,
    fun p r hnext htyp hr hon hkind hctx hpresent => ?_⟩
  all_goals subst hr
  case refine_1 =>
    obtain ⟨t, hexec, ht⟩ := run_ringDescriptorWrite hserves hcode
    obtain ⟨hring, hslots, hstatus, hframe, hregs⟩ := writeRing_enable hs hoff hon hchan rfl
    refine ⟨t, hexec, ?_, ?_, ?_, ?_, ?_, ?_⟩
    · rw [ht, ring_answered, hring, if_pos rfl]
    · rw [ht]; exact hslots
    · rw [ht]; exact hstatus
    · intro j hj; rw [ht, ring_answered, hring, if_neg hj]
    · rw [hframe] at ht; rw [ht]; rfl
    · intro k hk; rw [ht]; exact hregs k (by simpa [beatKeys] using hk)
  case refine_2 =>
    obtain ⟨t, hexec, ht⟩ := run_ringDescriptorWrite hserves hcode
    rw [run_writeRing_enabled hon] at ht
    refine ⟨t, hexec, ?_, ?_, ?_⟩
    · rw [ht, ring_answered, ring_modRing hs, if_pos rfl]
    · intro j hj; rw [ht, ring_answered, ring_modRing hs, if_neg hj]
    · rw [ht]; rfl
  case refine_3 =>
    have hrun := (run_applyPacket hnext htyp (takeCredits p)).trans
      (run_takeCredits (s := { s with delivered := s.delivered.erase p }) htyp rfl hon hkind hctx hpresent)
    exact ⟨_, congrArg Host.Outcome.next hrun, (Tab.get_set hs.rings.1 ..).trans (if_pos rfl),
      fun j hj => (Tab.get_set hs.rings.1 ..).trans (if_neg hj), rfl⟩

end Sys2Proof.Machine

/-! SUPPORT. The bounds that every effect keeps (O4, O5), and the state field of a course entry (O59). -/

namespace Sys2Proof.Machine

open Sys2Proof

/-- Every effect that writes one of the bounded lists cuts it to its bound (R49, R397, R415, R450, R472). -/
theorem apply_bounded (e : Eff) {s : State} (h : s.Bounded) : (e.apply s).Bounded := by
  cases e with
  | log v => exact { h with log := List.length_take_le 65536 v }
  | errorHistory v => exact { h with history := List.length_take_le 16 v }
  | resultLog v => exact { h with results := List.length_take_le 1024 v }
  | findings v => exact { h with findings := List.length_take_le 256 v }
  | health v => exact { h with health := List.length_take_le 256 v }
  | oscillator v => exact { h with oscillator := Nat.mod_lt v (by decide) }
  | _ => exact { h with }

theorem popCount_eq_length (n v : Nat) : popCount n v = ((List.range n).filter fun b => v.testBit b).length := by
  induction n with
  | zero => rfl
  | succ n ih =>
    rw [popCount, ih, List.range_succ, List.filter_append, List.length_append]
    cases h : v.testBit n <;> simp [h]

/-- Bits [23:22] of a course entry hold the course's state code. -/
theorem courseEntry_state (mask : Nat) :
    bits (courseEntry mask) 23 22 = courseState ((List.range 17).filter fun b => mask.testBit b).length := by
  rw [← popCount_eq_length]
  have hs : courseState (popCount 17 mask) < 4 := by unfold courseState; split_ifs <;> decide
  simp only [bits, courseEntry, place]
  omega

/-- Settles O59: the state code of the entry is `courseState` of the fenced count. -/
theorem courseStateField : Obligations.CourseStateField := by
  intro mask k _ hk
  rw [courseEntry_state, ← hk]
  unfold courseState
  exact ⟨fun h => by simp [h], fun h => by simp [h], fun h => by rw [if_neg (by omega), if_neg (by omega)]⟩

/-- Every command runs a program. -/
theorem exec_runs (c : Instr) (s : State) : ∃ p : Prog, exec c s = .next (p.run s) := by
  cases c <;> exact ⟨_, rfl⟩

/-- A step takes the first command of the queue, if there is one, and runs a program. -/
theorem step_runs (s : State) : ∃ p : Prog, step s = .next (p.run { s with pending := s.pending.tail }) := by
  unfold step
  split
  case h_1 h => exact ⟨tick, by rw [h, List.tail_nil, ← h]; rfl⟩
  case h_2 c rest h => rw [h]; exact exec_runs c _

/-- Settles O5: a step runs a program, and every effect of a program keeps the bounds. -/
theorem stepKeepsBounded : Obligations.StepKeepsBounded := by
  intro s t hs ht
  obtain ⟨p, hp⟩ := step_runs s
  obtain rfl : p.run _ = t := Host.Outcome.next.inj (hp.symm.trans ht)
  exact run_invariant (every_true p) (fun e _ _ h => apply_bounded e h) (I := State.Bounded) { hs with }

/-- Settles O4: after reset every table and list is empty. -/
theorem invariantsAtReset : Obligations.InvariantsAtReset :=
  ⟨by constructor <;> exact ⟨.nil, fun _ h => absurd h List.not_mem_nil⟩, by constructor <;> decide⟩

end Sys2Proof.Machine

/-! SUPPORT. Partition masks, suspicion scores, decisions and findings (O29). -/

namespace Sys2Proof.Machine

open Sys2Proof

/-- An object that the management plane holds may be reached at any time. -/
theorem available_of_sourceStep {idx sub : Nat} (h : sourceStep idx sub = 0) (s : State) (b : Bool) :
    s.available idx sub b = true := by
  simp [State.available, h]

theorem available_of_setting (idx sub : Nat) (s : State) : s.available idx sub true = true := by
  simp [State.available]

/-- The end of an accepted command is the end of its effect with the answer's fields. -/
theorem answered_regAt {u t : State} (h : t = u.answered t) (k : Nat) : t.regAt k = u.regAt k := by
  rw [h]; rfl

theorem answered_isCandidate {u t : State} (h : t = u.answered t) (n : Nat) : t.isCandidate n = u.isCandidate n := by
  rw [h]; rfl

theorem answered_scores {s u t : State} (h : t = u.answered t) (hu : u = { s with regs := u.regs, candidates := u.candidates }) :
    t = { s.answered t with regs := t.regs, candidates := t.candidates } := by
  have hr : t.regs = (u.answered t).regs := congrArg State.regs h
  have hc : t.candidates = (u.answered t).candidates := congrArg State.candidates h
  rw [hu] at h hr hc
  rw [hr, hc]; exact h

/-- A command whose effect writes scalars alone leaves the rest but for the answer. -/
theorem answered_regs {s u t : State} (h : t = u.answered t) (hu : u = { s with regs := u.regs }) :
    t = { s.answered t with regs := t.regs } := by
  have hr : t.regs = (u.answered t).regs := congrArg State.regs h
  rw [hu] at h hr
  rw [hr]; exact h

theorem regAt_setReg {s : State} (h : s.Sorted) (i j v k : Nat) :
    ((setReg i j v).run s).regAt k = if k = rk i j then v else s.regAt k := regAt_regs h ..

theorem setReg_frame (i j v : Nat) (s : State) : (setReg i j v).run s = { s with regs := ((setReg i j v).run s).regs } := rfl

/-- A partition mask that fits is stored (R51). -/
theorem partitionWrite_stores {s : State} (hs : s.Canonical) {p : Path} (hp : s.serves p = true) (hd : s.controllerDown = false)
    {k : Fin 8} {mask : Nat} (hm : mask = 0 ∨ isRectangle mask = true) (hf : s.maskFits k mask = true) :
    ∃ t, exec (.partitionWrite p k mask) s = .next t ∧ t.reg 0x2430 (k + 1) = mask ∧ t = { s.answered t with regs := t.regs } ∧
      (∀ j, j ≠ rk 0x2430 (k + 1) → t.regAt j = s.regAt j) ∧ t.out = s.out ++ [.dictDone p 0 0] := by
  have hcode : (partitionCommand k mask).code s 0x2430 (k + 1) = 0 :=
    Command.code_zero hd (by simpa [partitionCommand] using hm) (available_of_setting ..) hf
  obtain ⟨ht, hout⟩ := command_accepted hp hcode rfl
  have hreg := fun j => (answered_regAt ht j).trans (regAt_setReg hs.regs 0x2430 (k + 1) mask j)
  exact ⟨_, rfl, (hreg _).trans (if_pos rfl), answered_regs ht (setReg_frame ..), fun j hj => (hreg j).trans (if_neg hj), hout⟩

/-- Acknowledging clears the decision bits (R391). -/
theorem acknowledgeDecision_clears {s : State} (hs : s.Canonical) {p : Path} (hp : s.serves p = true)
    (hd : s.controllerDown = false) {v : Nat} (hv : v ≠ 0) :
    ∃ t, exec (.acknowledgeDecision p v) s = .next t ∧ t.reg 0x2500 0x07 = 0 ∧
      t = { s.answered t with regs := t.regs } ∧ ∀ j, j ≠ rk 0x2500 0x07 → t.regAt j = s.regAt j := by
  have hcode : (acknowledgeCommand v).code s 0x2500 0x06 = 0 :=
    Command.code_zero hd rfl (available_of_sourceStep rfl ..) rfl
  have ht := (command_accepted hp hcode rfl).1
  have heff : (acknowledgeCommand v).effect.run s = (setReg 0x2500 0x07 0).run s := by simp [acknowledgeCommand, hv]
  rw [heff] at ht
  have hreg := fun j => (answered_regAt ht j).trans (regAt_setReg hs.regs 0x2500 0x07 0 j)
  exact ⟨_, rfl, (hreg _).trans (if_pos rfl), answered_regs ht (setReg_frame ..), fun j hj => (hreg j).trans (if_neg hj)⟩

/-! ## Scores (R375, R376) -/

/-- The tables that hold scores and candidacies are in canonical form. -/
def State.Scored (s : State) : Prop := s.Sorted ∧ Tab.Canon (fun _ => false) s.candidates

theorem State.Scored.run {s : State} (h : s.Scored) (p : Prog) : (p.run s).Scored :=
  ⟨run_sorted p h.1, run_invariant (I := fun s => Tab.Canon (fun _ => false) s.candidates) (every_true p) (fun e _ _ hs => by
    cases e <;> first
      | exact hs
      | exact Tab.canon_set hs _ _
      | exact Tab.canon_drop hs _ _) h.2⟩

theorem isCandidate_candidates {s : State} (h : Tab.Canon (fun _ => false) s.candidates) (n : Nat) (v : Bool) (m : Nat) :
    ((Eff.candidates n v).apply s).isCandidate m = if m = n then v else s.isCandidate m := Tab.get_set h.1 ..

/-- Setting a site's score writes that scalar, and ends the site's candidacy when the score is below the threshold. -/
theorem run_setScore {s : State} (n v : Nat) :
    (setScore n v).run s = if v < s.reg 0x2530 0x01 then (Eff.candidates n false).apply ((setReg (0x3000 + n) 0xB0 v).run s)
      else (setReg (0x3000 + n) 0xB0 v).run s := by
  have hthr : ((setReg (0x3000 + n) 0xB0 v).run s).reg 0x2530 0x01 = s.reg 0x2530 0x01 :=
    get_set_ne _ _ _ _ _ _ (by unfold rk; omega)
  simp [setScore, hthr]

theorem regAt_setScore {s : State} (h : s.Sorted) (n v k : Nat) :
    ((setScore n v).run s).regAt k = if k = rk (0x3000 + n) 0xB0 then v else s.regAt k := by
  rw [run_setScore, ← regAt_setReg h]
  split <;> rfl

theorem isCandidate_setScore {s : State} (h : s.Scored) (n v m : Nat) :
    ((setScore n v).run s).isCandidate m = if m = n ∧ v < s.reg 0x2530 0x01 then false else s.isCandidate m := by
  rw [run_setScore]
  split
  · rename_i hv
    simp only [hv, and_true]
    exact isCandidate_candidates (s := (setReg (0x3000 + n) 0xB0 v).run s) h.2 n false m
  · rename_i hv
    rw [if_neg fun h => hv h.2]; rfl

theorem setScore_frame (n v : Nat) (s : State) :
    (setScore n v).run s = { s with regs := ((setScore n v).run s).regs, candidates := ((setScore n v).run s).candidates } := by
  rw [run_setScore]
  split <;> rfl

/-- Scalars with different subindices have different keys. -/
theorem rk_sub_ne {i j a b : Nat} (ha : a < 256) (hb : b < 256) (h : a ≠ b) : rk i a ≠ rk j b :=
  fun he => h ((rk_inj ha hb).mp he).2

/-- Clearing a site's suspicion sets its score to 0 and ends its candidacy (R375). -/
theorem clearSiteSuspicion_clears {s : State} (hs : s.Canonical) {p : Path} (hp : s.serves p = true)
    (hd : s.controllerDown = false) (n : Site) (hthr : 0 < s.reg 0x2530 0x01) :
    ∃ t, exec (.clearSiteSuspicion p n) s = .next t ∧ t.reg (0x3000 + n) 0xB0 = 0 ∧ t.isCandidate n = false ∧
      t = { s.answered t with regs := t.regs, candidates := t.candidates } ∧
      (∀ j, j ≠ rk (0x3000 + n) 0xB0 → t.regAt j = s.regAt j) ∧ ∀ m, m ≠ n.val → t.isCandidate m = s.isCandidate m := by
  have hcode : (clearSuspicionCommand n).code s 0x2530 0x09 = 0 :=
    Command.code_zero hd (decide_eq_true n.isLt) (available_of_sourceStep rfl ..) rfl
  have ht := (command_accepted hp hcode rfl).1
  have hreg := fun j => (answered_regAt ht j).trans (regAt_setScore hs.regs n 0 j)
  have hcand := fun m => (answered_isCandidate ht m).trans (isCandidate_setScore ⟨hs.regs, hs.candidates⟩ n 0 m)
  exact ⟨_, rfl, (hreg _).trans (if_pos rfl), (hcand _).trans (if_pos ⟨rfl, hthr⟩), answered_scores ht (setScore_frame ..),
    fun j hj => (hreg j).trans (if_neg hj), fun m hm => (hcand m).trans (if_neg fun h => hm h.1)⟩

/-! ## The hourly decay (R375) -/

theorem get_of_mem {α : Type} {d : α} {t : Tab α} (ht : t.Pairwise fun a b => a.1 < b.1) {k : Nat} {v : α} (h : (k, v) ∈ t) :
    Tab.get d t k = v := by
  induction t with
  | nil => exact absurd h List.not_mem_nil
  | cons e t ih =>
    obtain ⟨he, ht⟩ := List.pairwise_cons.mp ht
    rcases List.mem_cons.mp h with rfl | h
    · exact if_pos rfl
    · exact (if_neg (he _ h).ne).trans (ih ht h)

theorem get_of_notMem {α : Type} {d : α} {t : Tab α} {k : Nat} (h : ∀ v, (k, v) ∉ t) : Tab.get d t k = d := by
  induction t with
  | nil => rfl
  | cons e t ih =>
    have he : e.1 ≠ k := fun he => h e.2 (he ▸ List.mem_cons_self ..)
    exact (if_neg he).trans (ih fun v hv => h v (List.mem_cons_of_mem _ hv))

/-- The sites that the decay visits are those that a score is written for. -/
theorem mem_suspects {s : State} {n v : Nat} :
    (n, v) ∈ s.suspects ↔ n < 3264 ∧ (rk (0x3000 + n) 0xB0, v) ∈ s.regs := by
  simp only [State.suspects, List.mem_filterMap, Option.ite_none_right_eq_some, Option.some.injEq, Prod.mk.injEq, rk]
  constructor
  · rintro ⟨⟨k, w⟩, hmem, ⟨hsub, hlo, hhi⟩, hn, rfl⟩
    dsimp only at hsub hlo hhi hn
    rw [show (0x3000 + n) * 256 + 0xB0 = k by omega]
    exact ⟨by omega, hmem⟩
  · rintro ⟨hn, hmem⟩
    exact ⟨_, hmem, by dsimp only; omega, by dsimp only; omega, rfl⟩

theorem suspects_rising {s : State} (h : s.Sorted) : s.suspects.Pairwise fun a b => a.1 < b.1 := by
  refine List.pairwise_filterMap.mpr (h.1.imp fun {a b} hab x hx y hy => ?_)
  simp only [Option.ite_none_right_eq_some, Option.some.injEq] at hx hy
  obtain ⟨ha, rfl⟩ := hx
  obtain ⟨hb, rfl⟩ := hy
  dsimp only
  omega

theorem regAt_eachP_setScore_of_ne {xs : List (Nat × Nat)} (d : Nat) {k : Nat} (hk : ∀ e ∈ xs, k ≠ rk (0x3000 + e.1) 0xB0)
    {s : State} (h : s.Sorted) : ((eachP xs fun e => setScore e.1 (e.2 - d)).run s).regAt k = s.regAt k := by
  induction xs generalizing s with
  | nil => rfl
  | cons e xs ih =>
    obtain ⟨he, hk⟩ := List.forall_mem_cons.mp hk
    rw [run_eachP_cons, ih hk (run_sorted _ h), regAt_setScore h, if_neg he]

theorem isCandidate_eachP_setScore_of_notMem {xs : List (Nat × Nat)} (d : Nat) {n : Nat} (hn : ∀ e ∈ xs, n ≠ e.1)
    {s : State} (h : s.Scored) : ((eachP xs fun e => setScore e.1 (e.2 - d)).run s).isCandidate n = s.isCandidate n := by
  induction xs generalizing s with
  | nil => rfl
  | cons e xs ih =>
    obtain ⟨he, hn⟩ := List.forall_mem_cons.mp hn
    rw [run_eachP_cons, ih hn (h.run _), isCandidate_setScore h, if_neg fun hc => he hc.1]

/-- A walk over distinct sites lowers the score of each of them, and ends the candidacy of those below the threshold. -/
theorem eachP_setScore_of_mem {xs : List (Nat × Nat)} (hx : xs.Pairwise fun a b => a.1 < b.1) (d : Nat) {n v : Nat}
    (hn : (n, v) ∈ xs) {s t : State} (h : s.Scored) (ht : (eachP xs fun e => setScore e.1 (e.2 - d)).run s = t) :
    t.reg (0x3000 + n) 0xB0 = v - d ∧
      t.isCandidate n = if v - d < s.reg 0x2530 0x01 then false else s.isCandidate n := by
  induction xs generalizing s with
  | nil => exact absurd hn List.not_mem_nil
  | cons e xs ih =>
    obtain ⟨he, hx⟩ := List.pairwise_cons.mp hx
    rw [run_eachP_cons] at ht
    rcases List.mem_cons.mp hn with rfl | hn
    · subst ht
      refine ⟨(regAt_eachP_setScore_of_ne d (fun e' he' => ?_) (h.run _).1).trans ?_, ?_⟩
      · have := he e' he'; dsimp only at this; unfold rk; omega
      · rw [regAt_setScore h.1, if_pos rfl]
      · rw [isCandidate_eachP_setScore_of_notMem d (fun e' he' => (he e' he').ne) (h.run _), isCandidate_setScore h]
        simp
    · have hne : e.1 < n := he _ hn
      have hthr : ((setScore e.1 (e.2 - d)).run s).reg 0x2530 0x01 = s.reg 0x2530 0x01 :=
        (regAt_setScore h.1 ..).trans (if_neg (by unfold rk; omega))
      have hcand : ((setScore e.1 (e.2 - d)).run s).isCandidate n = s.isCandidate n :=
        (isCandidate_setScore h ..).trans (if_neg fun hc => hne.ne' hc.1)
      rw [← hthr, ← hcand]
      exact ih hx hn (h.run _) ht

theorem eachP_setScore_frame (xs : List (Nat × Nat)) (d : Nat) (s : State) :
    ∃ u : State, (eachP xs fun e => setScore e.1 (e.2 - d)).run s = { s with regs := u.regs, candidates := u.candidates } := by
  induction xs generalizing s with
  | nil => exact ⟨s, rfl⟩
  | cons e xs ih =>
    obtain ⟨u, hu⟩ := ih ((setScore e.1 (e.2 - d)).run s)
    exact ⟨u, by rw [run_eachP_cons, hu, setScore_frame]⟩

/-- A score starts at 0: no row of the defaults reaches subindex 0xB0. -/
theorem regDefault_score (n : Nat) : regDefault (rk (0x3000 + n) 0xB0) = 0 := by
  have hrows : ∀ r ∈ nonzeroDefaults, r.2.2.1 < (0xB0 + 256 - r.1 % 256) % 256 := by decide
  have hnone : (nonzeroDefaults.find? fun r => decide (r.1 ≤ rk (0x3000 + n) 0xB0 ∧
      (rk (0x3000 + n) 0xB0 - r.1) / 256 < r.2.1 ∧ (rk (0x3000 + n) 0xB0 - r.1) % 256 ≤ r.2.2.1)) = none := by
    refine List.find?_eq_none.mpr fun r hr hmatch => ?_
    have := hrows r hr
    have hmatch := of_decide_eq_true hmatch
    unfold rk at hmatch
    omega
  rw [regDefault, hnone]

/-- Each site's score falls by the decay, and a site whose positive score falls below the threshold is a candidate no more. -/
theorem suspicionDecay_lowers {s : State} (hs : s.Canonical) (hd : s.controllerDown = false) :
    ∃ t, exec .suspicionDecay s = .next t ∧
      (∀ n : Site, t.reg (0x3000 + n) 0xB0 = s.reg (0x3000 + n) 0xB0 - s.reg 0x2530 0x02 ∧
        (t.isCandidate n = true → s.isCandidate n = true) ∧
        (0 < s.reg (0x3000 + n) 0xB0 → t.reg (0x3000 + n) 0xB0 < s.reg 0x2530 0x01 → t.isCandidate n = false)) ∧
      t = { s with regs := t.regs, candidates := t.candidates } ∧
      ∀ j, (∀ n : Site, j ≠ rk (0x3000 + n) 0xB0) → t.regAt j = s.regAt j := by
  have hscored : s.Scored := ⟨hs.regs, hs.candidates⟩
  obtain ⟨t, ht⟩ : ∃ t, (eachP s.suspects fun e => setScore e.1 (e.2 - s.reg 0x2530 0x02)).run s = t := ⟨_, rfl⟩
  refine ⟨t, by rw [← ht]; simp [exec, execSuspicionDecay, hd], fun n => ?_, ?_, fun j hj => ?_⟩
  · by_cases hmem : ∃ v, (n.val, v) ∈ s.suspects
    · obtain ⟨v, hmem⟩ := hmem
      have hv : s.reg (0x3000 + n) 0xB0 = v := get_of_mem hs.regs.1 (mem_suspects.mp hmem).2
      obtain ⟨hreg, hcand⟩ := eachP_setScore_of_mem (suspects_rising hs.regs) _ hmem hscored ht
      rw [hv, hreg, hcand]
      refine ⟨rfl, ?_, fun _ hlt => if_pos hlt⟩
      split
      · exact fun h => Bool.noConfusion h
      · exact id
    · have hne : ∀ e ∈ s.suspects, n.val ≠ e.1 := fun e he hn => hmem ⟨e.2, hn ▸ he⟩
      have h0 : s.reg (0x3000 + n) 0xB0 = 0 :=
        (get_of_notMem fun v hv => hmem ⟨v, mem_suspects.mpr ⟨n.isLt, hv⟩⟩).trans (regDefault_score n)
      have hreg : t.reg (0x3000 + n) 0xB0 = s.reg (0x3000 + n) 0xB0 := by
        rw [← ht]
        refine regAt_eachP_setScore_of_ne _ (fun e he => ?_) hs.regs
        have := hne e he
        unfold rk; omega
      rw [hreg, h0, ← ht, isCandidate_eachP_setScore_of_notMem _ hne hscored]
      exact ⟨(Nat.zero_sub _).symm, id, fun h => absurd h (Nat.lt_irrefl 0)⟩
  · obtain ⟨u, hu⟩ := eachP_setScore_frame s.suspects (s.reg 0x2530 0x02) s
    rw [hu] at ht
    rw [← ht]
  · rw [← ht]
    refine regAt_eachP_setScore_of_ne _ (fun e he => ?_) hs.regs
    exact hj ⟨e.1, (mem_suspects.mp he).1⟩

/-! ## Closing findings (R398) -/

/-- Closing every finding closes each and reports those that were open. -/
theorem closeFindings_all (s : State) (hlen : s.findings.length ≤ 256) :
    ∃ u, (closeFindings fun _ => true).run s =
        { s.reported u with findings := s.findings.map fun f => { f with isOpen := false } } ∧
      ∀ k, k ∉ reportKeys → u.regAt k = s.regAt k := by
  have hclosed : (s.findings.map fun f => if f.isOpen && true then { f with isOpen := false } else f) =
      s.findings.map fun f => { f with isOpen := false } := by
    refine List.map_congr_left fun f _ => ?_
    obtain ⟨_, _, _, _, o, _⟩ := f
    cases o <;> rfl
  have hstep := run_reportStep (p := eachP (s.findings.filter fun f => f.isOpen && true) fun f => report 0x380F 6 0 f.site f.pattern)
    (by simp only [every_eachP]; exact fun _ _ => every_report _ _ _ _ _)
    { s with findings := s.findings.map fun f => { f with isOpen := false } }
  refine ⟨_, ?_, hstep.2⟩
  simp only [closeFindings, run_look, run_all_cons, run_all_nil, run_eff, hclosed]
  have htake : (Eff.findings (s.findings.map fun f => { f with isOpen := false })).apply s =
      { s with findings := s.findings.map fun f => { f with isOpen := false } } := by
    simp only [Eff.apply]
    rw [List.take_of_length_le (by simpa using hlen)]
  rw [htake]
  exact hstep.1

/-- An answer to a command that reports and changes the findings. -/
theorem answered_findings {s u t : State} {fs : List Finding} (h : t = ({ s.reported u with findings := fs } : State).answered t) :
    t = { (s.reported t).answered t with findings := fs } :=
  calc t = ({ s.reported u with findings := fs } : State).answered t := h
    _ = { (s.reported (({ s.reported u with findings := fs } : State).answered t)).answered t with findings := fs } := rfl
    _ = { (s.reported t).answered t with findings := fs } := by rw [← h]

/-- The command that closes all findings (R398). -/
theorem closeAllFindings_closes {s : State} {p : Path} (hp : s.serves p = true)
    (hd : s.controllerDown = false) {v : Nat} (hv : v ≠ 0) (hlen : s.findings.length ≤ 256) :
    ∃ t, exec (.closeAllFindings p v) s = .next t ∧
      t = { (s.reported t).answered t with findings := s.findings.map fun f => { f with isOpen := false } } ∧
      s.scalarsBut [] t := by
  have hcode : (closeAllCommand v).code s 0x2550 0x02 = 0 :=
    Command.code_zero hd rfl (available_of_sourceStep rfl ..) rfl
  have ht := (command_accepted hp hcode rfl).1
  have heff : (closeAllCommand v).effect.run s = (closeFindings fun _ => true).run s := by simp [closeAllCommand, hv]
  obtain ⟨u, hu, hreg⟩ := closeFindings_all s hlen
  refine ⟨_, rfl, ?_, fun k _ hk => ?_⟩
  · have hclosed := heff.trans hu
    rw [hclosed] at ht
    exact answered_findings ht
  · exact (answered_regAt ht k).trans (by rw [heff, hu]; exact hreg k hk)

/-- Settles O29: each command has its own lemma above; the decay is a walk over the sites whose score is not 0. -/
theorem partitionsSuspicionAndFindings : Obligations.PartitionsSuspicionAndFindings := fun _ hs =>
  ⟨fun _ hp hd => ⟨fun _ _ => partitionWrite_stores hs hp hd, fun n => clearSiteSuspicion_clears hs hp hd n,
    fun _ => acknowledgeDecision_clears hs hp hd, fun _ => closeAllFindings_closes hp hd⟩, suspicionDecay_lowers hs⟩

end Sys2Proof.Machine

/-! SUPPORT. Two statements that fail on states whose numbers reach outside the grid (O27, O47): a site, a ring or a partition
number with no bound makes the model read another object's scalar, which the step itself raises by a report. -/

namespace Sys2Proof.Machine

open Sys2Proof

/-- The route of `spillFar`: from link 1 to link 0, with a spill ring in an S-tile that the grid does not have. -/
def farRoute : Route :=
  { srcKind := 1, srcNum := 0, srcOut := 0, dstKind := 0, dstNum := 0, dstIn := 0, entries := 0, tokens := 0,
    ring := 3981568, spill := true, slack := 0, first := 0 }

def farPlan : TilePlan :=
  { logical := 0, kind := 0, own := 0, routes := [farRoute], sched := [], elems := [], tokens := [], consts := [], recs := [],
    streams := [] }

/-- A device on which the route of context 0 leaves link 1 for link 0 and spills, with one transfer in the stage at link 1.
The ring's S-tile lies outside the grid, so its site is found through a course entry whose key is that of the count of
withheld messages, and an emergency message is under way, so the next report raises that count. -/
def spillFar : State := { State.reset with
  regs := [(rk 0x2700 0x01, 1)]
  booted := true, nmt := .operational, emcyBusy := true
  running := [(0, some ⟨0, 0, false⟩)]
  plans := [(0, some ⟨0, 0, 0, farPlan, none, 0, 0, false⟩)]
  bond := [(0, { spilled := [1] }), (1, { stages := [none, none, none, some {}] })]
  rings := [(3981568, { desc := place 10 50 })] }
/-- Refutes O47: in `spillFar` the transfer's corrected-error report raises the count through which the model finds the
ring's site, so the packet goes to site 1057690 and not to 1057689, which the state before the step names. -/
theorem not_bondMovesTransfers : ¬ Obligations.BondMovesTransfers := by
  intro h
  have hcanon : spillFar.Canonical := by constructor <;> decide +kernel
  obtain ⟨hlink, -⟩ := h spillFar 0 0 .data {} hcanon
  obtain ⟨-, -, hin⟩ := hlink (by decide)
  obtain ⟨hstage, -⟩ := hin 0 1 0 farPlan false 0 farRoute 3 1057689 (by decide +kernel) (by decide +kernel)
    ⟨by decide +kernel, by decide, fun _ => by decide +kernel⟩
  have hfrom : spillFar.linkFrom 0 1 1 := .inl ⟨[], 1, by decide +kernel⟩
  obtain ⟨t, hexec, -, -, -, -, -, -, -, hspilt, -⟩ := hstage 1 (by decide) hfrom ⟨by decide +kernel, by decide +kernel⟩
  have hpacket := congrArg (List.map fun x => x.packet.dst) hspilt.1
  obtain rfl : _ = t := Host.Outcome.next.inj hexec
  revert hpacket
  decide +kernel

/-- A device on which every site of region 0 is fenced and context 0's partition number is 0xA0102: the mask of that
partition is the count of withheld messages, 1, and an emergency message is under way. -/
def strayPartition : State := { State.reset with
  regs := (List.range 24).map (fun k => (rk 0x2410 (k + 1), 0x1FFFF)) ++
    [(rk 0x2430 0x01, 1), (rk 0x2700 0x01, 1), (rk 0x2700 0x03, 0xA0102), (rk 0x2E31 0x03, 1)]
  booted := true, nmt := .operational, emcyBusy := true, reset_ := none }

/-- Refutes O27: in `strayPartition` report 0x3009 raises the mask of context 0's partition from 1 to 2 before the reset
looks for the contexts that hold region 0, so context 0, which held it, keeps running. -/
theorem not_structureErrorsResetThePartition : ¬ Obligations.StructureErrorsResetThePartition := by
  intro h
  have hcanon : strayPartition.Canonical := by constructor <;> decide +kernel
  obtain ⟨hregion, -⟩ := h strayPartition 1 hcanon ⟨rfl, rfl, rfl, rfl⟩ (by decide)
  obtain ⟨⟨t, hexec, -, -, -, hdead⟩, -⟩ := hregion 0 (by decide +kernel)
  have hstopped : t.ctxState 0 = 2 := (hdead 0 (by decide +kernel) (by decide +kernel)).1
  obtain rfl : _ = t := Host.Outcome.next.inj hexec
  revert hstopped
  decide +kernel

end Sys2Proof.Machine

/-! SUPPORT. Fences: what a stop leaves, the remap entry that a fence changes, and the start of a fence (R35, R36, R392). -/

namespace Sys2Proof.Machine

open Sys2Proof

/-- A scalar of the remap tables, objects 0x2410 to 0x2417 (Table 02-2). -/
def isRemapKey (k : Nat) : Bool := decide (0x241000 ≤ k ∧ k < 0x241800)

/-- The fields that stopping a section and moving tiles leave, the scalars apart. -/
def keptFields : List Field := [.fences, .fencedAs, .health, .log, .licence, .firmware, .dumpFlash]

/-- An effect that leaves every scalar of the remap tables. -/
def Eff.sparesRemap (e : Eff) : Bool :=
  match e with
  | .regs k _ => !isRemapKey k
  | .dropRegs _ _ => false
  | _ => true

/-- Effects that leave the fence queue, the fenced sites, the remap tables, the health record and what no reset changes. -/
def Eff.isStop (e : Eff) : Bool := decide (e.field ∉ keptFields) && e.sparesRemap

@[simp] theorem isStop_regs (k v : Nat) : (Eff.regs k v).isStop = !isRemapKey k := by
  simp [Eff.isStop, Eff.sparesRemap, keptFields]

theorem Eff.sparesRemap_of_field {e : Eff} (h : e.field ≠ .regs) : e.sparesRemap = true := by
  cases e <;> first | rfl | exact absurd rfl h

@[simp] theorem Eff.isStop_of_field {e : Eff} (h : e.field ∉ Field.regs :: keptFields) : e.isStop = true := by
  obtain ⟨hr, hk⟩ := not_or.mp (mt List.mem_cons.mpr h)
  simp [Eff.isStop, Eff.sparesRemap_of_field hr, hk]

theorem isStop_of_isReport (e : Eff) (h : e.isReport = true) : e.isStop = true := by
  have hkeys : ∀ k ∈ reportKeys, (!isRemapKey k) = true := by decide
  cases e with
  | regs k v => exact (isStop_regs k v).trans (hkeys k (List.contains_iff_mem.mp h))
  | _ => first
    | rfl
    | exact Bool.noConfusion h

theorem Eff.field_of_isStop {e : Eff} (h : e.isStop = true) : e.field ∉ keptFields :=
  of_decide_eq_true (Bool.and_eq_true_iff.mp h).1

/-- A scalar of a site or of a context is not one of the remap tables'. -/
@[simp] theorem isRemapKey_rk_of_le {idx sub : Nat} (h : 0x2418 ≤ idx) : isRemapKey (rk idx sub) = false := by
  unfold isRemapKey rk; exact decide_eq_false (by omega)

@[simp] theorem every_report_isStop (code kind num a1 a2 : Nat) : (report code kind num a1 a2).Every fun e => e.isStop = true :=
  every_mono isStop_of_isReport (every_report code kind num a1 a2)

@[simp] theorem every_setReg_isStop {idx sub v : Nat} (h : 0x2418 ≤ idx) : (setReg idx sub v).Every fun e => e.isStop = true := by
  simp [setReg, h]

@[simp] theorem every_setReg_site (n sub v : Nat) : (setReg (0x3000 + n) sub v).Every fun e => e.isStop = true :=
  every_setReg_isStop (by omega)

@[simp] theorem every_setSlotState_isStop (n k v : Nat) : (setSlotState n k v).Every fun e => e.isStop = true := by
  simp [setSlotState]

@[simp] theorem every_dropDispute_isStop (n : Nat) : (dropDispute n).Every fun e => e.isStop = true := by
  simp [dropDispute, count64, bump, keptFields]

@[simp] theorem every_stopTile_isStop (n : Nat) : (stopTile n).Every fun e => e.isStop = true := by
  intro s
  dsimp only
  split
  · trivial
  · simp [modBond, modM, modF, modS, keptFields]

@[simp] theorem every_stopSections_isStop (c : Nat) : (stopSections c).Every fun e => e.isStop = true := by
  simp [stopSections, modCtx, keptFields]

@[simp] theorem every_appendResultAt_isStop (time : Nat) (r : SliceReport) (outcome margin : Nat) :
    (appendResultAt time r outcome margin).Every fun e => e.isStop = true := by
  simp [appendResultAt, count32, bump, keptFields]

@[simp] theorem every_abortSlices_isStop (sites : List Nat) (cause : Nat) :
    (abortSlices sites cause).Every fun e => e.isStop = true := by
  simp only [abortSlices, every_look, every_all, every_eachP, List.forall_mem_cons, every_eff]
  refine fun s => ⟨by simp [keptFields], fun r _ => ?_, by simp⟩
  split
  · simp [appendResult]
  · trivial

@[simp] theorem every_wipeSite_isStop (n : Nat) : (wipeSite n).Every fun e => e.isStop = true := by
  simp [wipeSite, modBond, keptFields]

@[simp] theorem every_discardTile_isStop (l : Nat) : (discardTile l).Every fun e => e.isStop = true := by
  simp [discardTile, modRing, keptFields]

@[simp] theorem every_loseTile_isStop (l : Nat) : (loseTile l).Every fun e => e.isStop = true := by
  simp [loseTile, modCell, keptFields]

@[simp] theorem every_invalidateRegion_isStop (old : State) (r : Nat) :
    (invalidateRegion old r).Every fun e => e.isStop = true := by
  simp [invalidateRegion]

@[simp] theorem every_refreshWatch_isStop (mask : Nat) : (refreshWatch mask).Every fun e => e.isStop = true := by
  simp only [refreshWatch, every_look, every_eachP]
  exact fun _ _ _ => every_setReg_isStop (by omega)

@[simp] theorem every_restartVotes_isStop (referee : Nat) : (restartVotes referee).Every fun e => e.isStop = true := by
  simp [restartVotes, keptFields]

@[simp] theorem every_refereeMoved_isStop (r : Nat) (before : Option Nat) (tell : Bool) :
    (refereeMoved r before tell).Every fun e => e.isStop = true := by
  intro s
  dsimp only
  split
  · simp
  · simp
  · trivial

theorem Eff.regAt_of_sparesRemap {e : Eff} (h : e.sparesRemap = true) {k : Nat} (hk : isRemapKey k = true) (s : State) :
    (e.apply s).regAt k = s.regAt k := by
  cases e with
  | regs j v =>
    refine get_set_ne _ _ _ _ _ _ fun hkj => ?_
    rw [Eff.sparesRemap, ← hkj, hk] at h
    exact Bool.noConfusion h
  | dropRegs lo hi => exact Bool.noConfusion h
  | _ => rfl

/-- A stop leaves the scalars of the remap tables. -/
theorem regAt_run_of_isStop {p : Prog} (hp : p.Every fun e => e.isStop = true) {k : Nat} (hk : isRemapKey k = true) (s : State) :
    (p.run s).regAt k = s.regAt k :=
  run_keeps (g := fun s => s.regAt k) hp (fun _ _ he => Eff.regAt_of_sparesRemap (Bool.and_eq_true_iff.mp he).2 hk _) s

theorem Eff.keeps_fencedAs {e : Eff} (h : e.field ≠ .fencedAs) (s : State) : (e.apply s).fencedAs = s.fencedAs := by
  cases e <;> first | rfl | exact absurd rfl h

theorem Eff.keeps_running {e : Eff} (h : e.field ≠ .running) (s : State) : (e.apply s).running = s.running := by
  cases e <;> first | rfl | exact absurd rfl h

theorem Eff.keeps_mtiles {e : Eff} (h : e.field ≠ .mtiles) (s : State) : (e.apply s).mtiles = s.mtiles := by
  cases e <;> first | rfl | exact absurd rfl h

/-- A stop leaves the fenced sites. -/
theorem fencedAs_run_of_isStop {p : Prog} (hp : p.Every fun e => e.isStop = true) (s : State) :
    (p.run s).fencedAs = s.fencedAs :=
  run_keeps (g := State.fencedAs) hp
    (fun _ s he => Eff.keeps_fencedAs (fun hf => Eff.field_of_isStop he (by rw [hf]; decide)) s) s

/-! ## What a fence writes besides -/

/-- Effects that leave the fence queue, the health record and what no reset changes. -/
def Eff.isFence (e : Eff) : Bool := decide (e.field ∉ [Field.fences, .health, .log, .licence, .firmware, .dumpFlash])

@[simp] theorem Eff.isFence_of_field {e : Eff} (h : e.field ∉ [Field.fences, .health, .log, .licence, .firmware, .dumpFlash]) :
    e.isFence = true := decide_eq_true h

theorem isFence_of_isStop (e : Eff) (h : e.isStop = true) : e.isFence = true := by
  have hfield := Eff.field_of_isStop h
  simp only [keptFields, List.mem_cons, not_or] at hfield
  simp [Eff.isFence, hfield]

theorem every_isFence {p : Prog} (h : p.Every fun e => e.isStop = true) : p.Every fun e => e.isFence = true :=
  every_mono isFence_of_isStop h

theorem every_setReg_isFence (i j v : Nat) : (setReg i j v).Every fun e => e.isFence = true := by
  simp [setReg]

theorem every_refreshRegion_isFence (r : Nat) : (refreshRegion r).Every fun e => e.isFence = true := by
  simp [refreshRegion, every_setReg_isFence]

theorem every_bumpGeneration_isFence (r : Nat) : (bumpGeneration r).Every fun e => e.isFence = true := by
  simp [bumpGeneration, every_setReg_isFence]

theorem every_changeCourse_isFence (site mask st : Nat) (lost : Bool) :
    (changeCourse site mask st lost).Every fun e => e.isFence = true := by
  intro old
  simp only [every_all, List.forall_mem_cons]
  refine ⟨every_isFence ?_, every_setReg_isFence _ _ _, ?_, every_refreshRegion_isFence _, every_bumpGeneration_isFence _,
    every_look.mpr fun s => every_isFence ?_, every_isFence ?_, every_isFence ?_, every_isFence ?_, every_isFence ?_, ?_⟩
  all_goals simp

theorem every_fenceNow_isFence (site st : Nat) (lost : Bool) : (fenceNow site st lost).Every fun e => e.isFence = true := by
  intro s
  simp only [every_all, List.forall_mem_cons]
  exact ⟨every_changeCourse_isFence _ _ _ _, every_isFence (every_wipeSite_isStop _), by simp, by simp⟩

/-! ## The remap entry that a fence changes (R35, R36) -/

theorem regAt_setReg_of_ne {i j v k : Nat} (h : k ≠ rk i j) (s : State) : ((setReg i j v).run s).regAt k = s.regAt k :=
  get_set_ne _ _ _ _ _ _ h

theorem regAt_refreshRegion_of_ne {r k : Nat} (h1 : k ≠ rk (0x2410 + r) 0x19) (h2 : k ≠ rk (0x2410 + r) 0x1A) (s : State) :
    ((refreshRegion r).run s).regAt k = s.regAt k := by
  simp only [refreshRegion, run_look, run_all_cons, run_all_nil]
  rw [regAt_setReg_of_ne h2, regAt_setReg_of_ne h1]

theorem siteRegion_lt {n : Nat} (h : n < 3264) : siteRegion n < 8 := by
  unfold siteRegion siteRow sitePier; omega

theorem courseOf_lt (row : Nat) : courseOf row < 24 := Nat.mod_lt _ (by decide)

theorem sitePierLocal_lt (n : Nat) : sitePierLocal n < 17 := Nat.mod_lt _ (by decide)

theorem isRemapKey_rk {r j : Nat} (hr : r < 8) (hj : j < 256) : isRemapKey (rk (0x2410 + r) j) = true := by
  unfold isRemapKey rk; exact decide_eq_true (by omega)

theorem courseEntry_mod (mask : Nat) : courseEntry mask % 2 ^ 17 = mask % 2 ^ 17 := by
  simp only [courseEntry, place]; omega

/-- The scalars and the placement state that a change of a course writes. -/
def writeCourse (site mask st : Nat) : Prog := all [
  setReg (0x2410 + siteRegion site) (courseOf (siteRow site) + 1) (courseEntry mask), .eff (.fencedAs site st),
  refreshRegion (siteRegion site), bumpGeneration (siteRegion site)]

/-- A change of a course is the writing of its entry between two stops. -/
theorem changeCourse_parts (site mask st : Nat) (lost : Bool) (s : State) :
    ∃ p q : Prog, (p.Every fun e => e.isStop = true) ∧ (q.Every fun e => e.isStop = true) ∧
      (changeCourse site mask st lost).run s = q.run ((writeCourse site mask st).run (p.run s)) := by
  refine ⟨whenP lost (withP (s.tileOf site) loseTile), all [
    .look fun t => eachP (((List.range 16).map fun c => siteRow site * 64 + sitePier site / 17 * 16 + c).filter fun l =>
      (s.siteOf l).isSome && (t.siteOf l).isNone) discardTile,
    invalidateRegion s (siteRegion site),
    whenP (decide (2 ≤ popCount 17 mask) && decide (popCount 17 (s.fenceMask (siteRegion site) (courseOf (siteRow site))) <
      popCount 17 mask)) (report 0x3003 6 0 (siteRegion site) (siteRow site)),
    refereeMoved (siteRegion site) (s.referee (siteRegion site)) true,
    refreshWatch (2 ^ siteRegion site)], by simp, by simp, ?_⟩
  simp only [changeCourse, writeCourse, run_look, run_all_cons, run_all_nil]

/-- The entry of a course as it is written, and a generation that has risen. -/
theorem writeCourse_remap {s : State} (h : s.Sorted) (site mask st : Nat) :
    ((writeCourse site mask st).run s).fenceMask (siteRegion site) (courseOf (siteRow site)) = mask % 2 ^ 17 ∧
      ((writeCourse site mask st).run s).reg (0x2410 + siteRegion site) 0x1B =
        (s.reg (0x2410 + siteRegion site) 0x1B + 1) % 2 ^ 32 := by
  have hk := courseOf_lt (siteRow site)
  have hbump : ∀ (u : State) (j : Nat), j < 0x19 → ((bumpGeneration (siteRegion site)).run ((refreshRegion (siteRegion site)).run
      u)).reg (0x2410 + siteRegion site) j = u.reg (0x2410 + siteRegion site) j := fun u j hj => by
    unfold State.reg bumpGeneration
    rw [run_look, regAt_setReg_of_ne (rk_sub_ne (by omega) (by omega) (by omega)),
      regAt_refreshRegion_of_ne (rk_sub_ne (by omega) (by omega) (by omega)) (rk_sub_ne (by omega) (by omega) (by omega))]
  simp only [writeCourse, run_all_cons, run_all_nil, run_eff]
  constructor
  · have hentry : ((setReg (0x2410 + siteRegion site) (courseOf (siteRow site) + 1) (courseEntry mask)).run s).reg
        (0x2410 + siteRegion site) (courseOf (siteRow site) + 1) = courseEntry mask := by
      rw [reg_setReg h (by omega) (by omega), if_pos ⟨rfl, rfl⟩]
    unfold State.fenceMask
    rw [hbump _ _ (by omega)]
    exact (congrArg (· % 2 ^ 17) hentry).trans (courseEntry_mod mask)
  · have hold : ∀ v, ((refreshRegion (siteRegion site)).run ((Eff.fencedAs site st).apply
        ((setReg (0x2410 + siteRegion site) (courseOf (siteRow site) + 1) v).run s))).reg (0x2410 + siteRegion site) 0x1B =
        s.reg (0x2410 + siteRegion site) 0x1B := fun v => by
      unfold State.reg
      rw [regAt_refreshRegion_of_ne (rk_sub_ne (by omega) (by omega) (by omega)) (rk_sub_ne (by omega) (by omega) (by omega))]
      exact regAt_setReg_of_ne (rk_sub_ne (by omega) (by omega) (by omega)) s
    rw [bumpGeneration, run_look, hold, reg_setReg (run_sorted _ (apply_sorted _ (run_sorted _ h))) (by omega) (by omega),
      if_pos ⟨rfl, rfl⟩]

/-- The tables of which a fence rewrites entries are in canonical form. -/
def State.FenceCanon (s : State) : Prop :=
  s.Sorted ∧ Tab.Canon (fun _ => 0) s.fencedAs ∧ Tab.Canon (fun _ => none) s.running ∧ Tab.Canon (fun _ => {}) s.mtiles

theorem State.FenceCanon.apply {s : State} (h : s.FenceCanon) (e : Eff) : (e.apply s).FenceCanon := by
  obtain ⟨hregs, hfenced, hrunning, hmtiles⟩ := h
  refine ⟨apply_sorted e hregs, ?_⟩
  cases e with dsimp only [Eff.apply]
  | fencedAs k v => exact ⟨Tab.canon_set hfenced k v, hrunning, hmtiles⟩
  | dropFencedAs lo hi => exact ⟨Tab.canon_drop hfenced lo hi, hrunning, hmtiles⟩
  | running k v => exact ⟨hfenced, Tab.canon_set hrunning k v, hmtiles⟩
  | dropRunning lo hi => exact ⟨hfenced, Tab.canon_drop hrunning lo hi, hmtiles⟩
  | mtiles k v => exact ⟨hfenced, hrunning, Tab.canon_set hmtiles k v⟩
  | dropMtiles lo hi => exact ⟨hfenced, hrunning, Tab.canon_drop hmtiles lo hi⟩
  | _ => exact ⟨hfenced, hrunning, hmtiles⟩

theorem State.FenceCanon.run {s : State} (h : s.FenceCanon) (p : Prog) : (p.run s).FenceCanon :=
  run_invariant (every_true p) (fun e _ _ hs => hs.apply e) h

/-- The course of a site that has changed: its entry, its region's generation and the site's placement state. -/
theorem changeCourse_writes {s : State} (h : s.FenceCanon) {site : Nat} (hsite : site < 3264) (mask st : Nat) (lost : Bool) {t : State}
    (ht : (changeCourse site mask st lost).run s = t) :
    t.fenceMask (siteRegion site) (courseOf (siteRow site)) = mask % 2 ^ 17 ∧
      t.reg (0x2410 + siteRegion site) 0x1B = (s.reg (0x2410 + siteRegion site) 0x1B + 1) % 2 ^ 32 ∧
      t.fencedState site = st := by
  obtain ⟨p, q, hp, hq, hrun⟩ := changeCourse_parts site mask st lost s
  obtain rfl := hrun.symm.trans ht
  obtain ⟨hmask, hgen⟩ := writeCourse_remap (h.run p).1 site mask st
  have hr := siteRegion_lt hsite
  have hk := courseOf_lt (siteRow site)
  refine ⟨?_, ?_, ?_⟩
  · rw [← hmask]
    exact congrArg (· % 2 ^ 17) (regAt_run_of_isStop hq (isRemapKey_rk hr (by omega)) _)
  · have hold : (p.run s).reg (0x2410 + siteRegion site) 0x1B = s.reg (0x2410 + siteRegion site) 0x1B :=
      regAt_run_of_isStop hp (isRemapKey_rk hr (by omega)) s
    rw [← hold, ← hgen]
    exact regAt_run_of_isStop hq (isRemapKey_rk hr (by omega)) _
  · unfold State.fencedState
    rw [fencedAs_run_of_isStop hq]
    exact (Tab.get_set (h.run p).2.1.1 site st site).trans (if_pos rfl)

/-- A wiped site runs nothing and its engine is idle. -/
theorem wipeSite_clears {s : State} (h : s.FenceCanon) (n : Nat) :
    ((wipeSite n).run s).runningAt n = none ∧ ((wipeSite n).run s).mtile n = {} := by
  obtain ⟨-, -, -, hmtiles⟩ := h.run (dropDispute n)
  obtain ⟨-, -, hrunning, -⟩ := (h.run (dropDispute n)).run
    (all [.eff (.mtiles n {}), .eff (.ftiles n {}), modBond n fun b => { stopped := b.stopped }])
  simp only [wipeSite, run_all_cons, run_all_nil, run_eff, State.runningAt, State.mtile] at hrunning ⊢
  constructor
  · rw [Eff.keeps_running (by simp), Eff.keeps_running (by simp), Eff.keeps_running (by simp), Eff.keeps_running (by simp)]
    exact (Tab.get_set hrunning.1 n none n).trans (if_pos rfl)
  · rw [Eff.keeps_mtiles (by simp), Eff.keeps_mtiles (by simp), Eff.keeps_mtiles (by simp), Eff.keeps_mtiles (by simp),
      Eff.keeps_mtiles (by simp)]
    exact (Tab.get_set hmtiles.1 n {} n).trans (if_pos rfl)

theorem fenceMask_of_reg {s t : State} {r k : Nat} (h : t.reg (0x2410 + r) (k + 1) = s.reg (0x2410 + r) (k + 1)) :
    t.fenceMask r k = s.fenceMask r k := congrArg (· % 2 ^ 17) h

theorem reg_of_regs {s t : State} (h : t.regs = s.regs) (i j : Nat) : t.reg i j = s.reg i j := by
  unfold State.reg State.regAt; rw [h]

theorem isFenced_of_regs {s t : State} (h : t.regs = s.regs) (n : Nat) : t.isFenced n = s.isFenced n := by
  unfold State.isFenced
  rw [fenceMask_of_reg (reg_of_regs h _ _)]

theorem fencedState_of_fencedAs {s t : State} (h : t.fencedAs = s.fencedAs) (n : Nat) : t.fencedState n = s.fencedState n := by
  unfold State.fencedState; rw [h]

theorem testBit_setBit_pier (m n : Nat) : (setBit m (sitePierLocal n) % 2 ^ 17).testBit (sitePierLocal n) = true := by
  rw [Nat.testBit_mod_two_pow, setBit, Nat.testBit_or, Nat.testBit_two_pow_self]
  simp [sitePierLocal_lt]

/-- A fence of a site: its remap entry names it and the site is powered down (Table 14-3). -/
theorem fenceNow_fences {s : State} (h : s.FenceCanon) {site : Nat} (hsite : site < 3264) (st : Nat) (lost : Bool) {t : State}
    (ht : (fenceNow site st lost).run s = t) :
    t.isFenced site = true ∧ t.fencedState site = st ∧ t.runningAt site = none ∧ t.mtile site = {} ∧
      t.reg (0x2410 + siteRegion site) 0x1B = (s.reg (0x2410 + siteRegion site) 0x1B + 1) % 2 ^ 32 := by
  simp only [fenceNow, run_look, run_all_cons, run_all_nil, run_eff] at ht
  generalize hu : (changeCourse site _ st lost).run s = u at ht
  generalize hw : (wipeSite site).run u = w at ht
  obtain ⟨hmask, hgen, hstate⟩ := changeCourse_writes h hsite _ st lost hu
  obtain ⟨hrun, hm⟩ := wipeSite_clears (hu ▸ h.run _ : u.FenceCanon) site
  have hstop := every_wipeSite_isStop site
  have hcand : (Eff.candidates site false).field = .candidates := Eff.field_candidates
  have hkeep : ∀ j, j < 256 → t.reg (0x2410 + siteRegion site) j = u.reg (0x2410 + siteRegion site) j := fun j hj => by
    rw [← ht, State.reg, regAt_keeps (by simp [hcand]), ← hw]
    exact regAt_run_of_isStop hstop (isRemapKey_rk (siteRegion_lt hsite) hj) u
  have hk := courseOf_lt (siteRow site)
  refine ⟨?_, ?_, ?_, ?_, (hkeep 0x1B (by omega)).trans hgen⟩
  · unfold State.isFenced
    rw [fenceMask_of_reg (hkeep _ (by omega)), hmask, testBit_setBit_pier]
  · rw [← hstate]
    exact fencedState_of_fencedAs (by rw [← ht, Eff.keeps_fencedAs (by simp [hcand]), ← hw, fencedAs_run_of_isStop hstop]) site
  · rw [← hrun, hw, State.runningAt, State.runningAt, ← ht, Eff.keeps_running (by simp [hcand])]
  · rw [← hm, hw, State.mtile, State.mtile, ← ht, Eff.keeps_mtiles (by simp [hcand])]

/-! ## The start of a fence (R392) -/

/-- What a fence stops and restores before the remap entry changes, with no word that a restore could not correct. -/
def fenceStopsProg (f : FenceReq) (s : State) : Prog := all [
  restoreSlices (courseSites f.site) [], abortSlices (courseSites f.site) 0,
  eachP (s.fenceStops (siteRegion f.site)) fun e => stopSections e.1,
  eachP ((courseSites f.site).filter fun n => decide (f.site ≤ n) && !s.slicing n) (poisonMoved [])]

theorem every_fenceStopsProg_isStop (f : FenceReq) (s : State) : (fenceStopsProg f s).Every fun e => e.isStop = true := by
  have hnone : ∀ n, badWordsOf [] n = [] := fun _ => rfl
  simp [fenceStopsProg, restoreSlices, poisonMoved, hnone]

/-- The start of a fence that leaves the site in bypass. -/
theorem run_fenceBegin {f : FenceReq} (hf : f.cause ≠ 0x07) (s : State) :
    (fenceBegin f []).run s =
      (Eff.fence (some { req := f, linkDead := false, stopped := s.fenceStops (siteRegion f.site) })).apply
        ((Eff.injectStop (s.partitionOf (siteRegion f.site))).apply
          ((fenceNow f.site 4 (s.siteDark f.site)).run ((fenceStopsProg f s).run s))) := by
  have hdead : (f.cause == 0x07) = false := beq_eq_false_iff_ne.mpr hf
  simp only [fenceBegin, fenceStopsProg, run_look, run_all_cons, run_all_nil, hdead, run_whenP, Bool.false_eq_true, if_false,
    run_eff]

theorem find_stopped_steward {s : State} {n : Nat} (h : ∀ g ∈ siteFields n, s.stewardUp g = true) :
    (siteFields n).find? (fun g => !s.stewardUp g) = none :=
  List.find?_eq_none.mpr fun g hg => by simp [h g hg]

/-- A ready device takes the first request of a site that is not fenced. -/
theorem run_fenceStart {s : State} (hready : s.ready = true) (hd : s.controllerDown = false) (hq : s.quiet) {f : FenceReq}
    {rest : List FenceReq} (hfs : s.fences = f :: rest) (hf : s.isFenced f.site = false)
    (hup : ∀ g ∈ siteFields f.site, s.stewardUp g = true) :
    (fenceStartProg []).run s = (fenceBegin f []).run ((Eff.fences rest).apply s) := by
  obtain ⟨hreset, hwait, -, hfence⟩ := hq
  have hcond : (s.ready && s.fence.isNone && !s.controllerDown && s.reset_.isNone && s.resetWaiting.isNone) = true := by
    simp [hready, hd, hreset, hwait, hfence]
  have husable : s.fenceUsable f = true := by simp [State.fenceUsable, hf]
  simp only [fenceStartProg, run_look, hcond, run_whenP, if_true, hfs, run_seq, run_eff, find_stopped_steward hup, husable]

/-- What every step of a fence leaves. -/
def FenceKeeps (s t : State) : Prop := t.fences = s.fences ∧ t.health = s.health ∧ s.keptByResets t

theorem FenceKeeps.trans (s m t : State) (h1 : FenceKeeps s m) (h2 : FenceKeeps m t) : FenceKeeps s t := by
  obtain ⟨hf1, hh1, hl1, hc1, hw1, hd1, hs1, hn1, hp1⟩ := h1
  obtain ⟨hf2, hh2, hl2, hc2, hw2, hd2, hs2, hn2, hp2⟩ := h2
  exact ⟨hf2.trans hf1, hh2.trans hh1, hl2.trans hl1, hc2.trans hc1, hw2.trans hw1, hd2.trans hd1, hs2.trans hs1,
    hn2.trans hn1, hp2.trans hp1⟩

theorem run_fenceKeeps {p : Prog} (hp : p.Every fun e => e.isFence = true) (s : State) : FenceKeeps s (p.run s) := by
  refine run_rel (fun _ => ⟨rfl, rfl, rfl, rfl, rfl, rfl, rfl, rfl, rfl⟩) FenceKeeps.trans hp (fun e s he => ?_) s
  cases e <;> dsimp only [Eff.apply] <;> first
    | exact ⟨rfl, rfl, rfl, rfl, rfl, rfl, rfl, rfl, rfl⟩
    | exact Bool.noConfusion he

/-- The start of a fence as one program, what it stops taken from its first state. -/
def fenceBeginProg (f : FenceReq) (s : State) : Prog := all [
  fenceStopsProg f s, fenceNow f.site 4 (s.siteDark f.site), .eff (.injectStop (s.partitionOf (siteRegion f.site))),
  .eff (.fence (some { req := f, linkDead := false, stopped := s.fenceStops (siteRegion f.site) }))]

theorem every_fenceBeginProg_isFence (f : FenceReq) (s : State) : (fenceBeginProg f s).Every fun e => e.isFence = true := by
  simp only [fenceBeginProg, every_all, List.forall_mem_cons]
  exact ⟨every_isFence (every_fenceStopsProg_isStop f s), every_fenceNow_isFence _ _ _, by simp, by simp, by simp⟩

/-- The fence of a request has begun: its site is fenced and powered down, and its partition's ordered injection stops. -/
theorem fenceBegin_begins {s : State} (h : s.FenceCanon) {f : FenceReq} (hsite : f.site < 3264) (hf : f.cause ≠ 0x07) {t : State}
    (ht : (fenceBegin f []).run s = t) :
    FenceKeeps s t ∧ t.isFenced f.site = true ∧ t.fencedState f.site = 4 ∧ t.runningAt f.site = none ∧ t.mtile f.site = {} ∧
      t.reg (0x2410 + siteRegion f.site) 0x1B = (s.reg (0x2410 + siteRegion f.site) 0x1B + 1) % 2 ^ 32 ∧
      t.injectStop = s.partitionOf (siteRegion f.site) ∧
      t.fence = some { req := f, linkDead := false, stopped := s.fenceStops (siteRegion f.site) } := by
  rw [run_fenceBegin hf] at ht
  have hkeeps := run_fenceKeeps (every_fenceBeginProg_isFence f s) s
  simp only [fenceBeginProg, run_all_cons, run_all_nil, run_eff, ht] at hkeeps
  have hgen := regAt_run_of_isStop (every_fenceStopsProg_isStop f s)
    (isRemapKey_rk (siteRegion_lt hsite) (show 0x1B < 256 by decide)) s
  generalize hu : (fenceStopsProg f s).run s = u at ht hgen
  generalize hv : (fenceNow f.site 4 (s.siteDark f.site)).run u = v at ht
  obtain ⟨hfenced, hstate, hrun, hm, hrise⟩ := fenceNow_fences (hu ▸ h.run _) hsite 4 _ hv
  generalize hw : (Eff.injectStop (s.partitionOf (siteRegion f.site))).apply v = w at ht
  have hregs : t.regs = v.regs := by rw [← ht, Eff.keeps_regs (by simp), ← hw, Eff.keeps_regs (by simp)]
  have hfencedAs : t.fencedAs = v.fencedAs := by rw [← ht, Eff.keeps_fencedAs (by simp), ← hw, Eff.keeps_fencedAs (by simp)]
  have hrunning : t.running = v.running := by rw [← ht, Eff.keeps_running (by simp), ← hw, Eff.keeps_running (by simp)]
  have hmtiles : t.mtiles = v.mtiles := by rw [← ht, Eff.keeps_mtiles (by simp), ← hw, Eff.keeps_mtiles (by simp)]
  refine ⟨hkeeps, (isFenced_of_regs hregs _).trans hfenced, (fencedState_of_fencedAs hfencedAs _).trans hstate, ?_, ?_, ?_, ?_, ?_⟩
  · rw [← hrun, State.runningAt, State.runningAt, hrunning]
  · rw [← hm, State.mtile, State.mtile, hmtiles]
  · rw [reg_of_regs hregs, hrise, State.reg, hgen, State.reg]
  · rw [← ht, ← hw]; rfl
  · rw [← ht, Eff.fence_fence]

/-- A ready device with no reset takes the first request of an unfenced site (R392, Table 14-3). -/
theorem fenceStart_starts {s : State} (hs : s.Canonical) (hd : s.controllerDown = false) {f : FenceReq} {rest : List FenceReq}
    (hready : s.ready = true) (hq : s.quiet) (hfs : s.fences = f :: rest) (hsite : f.site < 3264) (hcause : f.cause ≠ 0x07)
    (hf : s.isFenced f.site = false) (hup : ∀ g ∈ siteFields f.site, s.stewardUp g = true) :
    ∃ t, exec (.fenceStart []) s = .next t ∧ t.fences = rest ∧ t.isFenced f.site = true ∧ t.fencedState f.site = 4 ∧
      t.runningAt f.site = none ∧ t.mtile f.site = {} ∧
      t.reg (0x2410 + siteRegion f.site) 0x1B = (s.reg (0x2410 + siteRegion f.site) 0x1B + 1) % 2 ^ 32 ∧
      t.injectStop = s.partitionOf (siteRegion f.site) ∧
      t.fence = some { req := f, linkDead := false, stopped := s.fenceStops (siteRegion f.site) } ∧
      t.health = s.health ∧ s.keptByResets t := by
  have hcanon : ((Eff.fences rest).apply s).FenceCanon := ⟨hs.regs, hs.fencedAs, hs.running, hs.mtiles⟩
  have hrun := run_fenceStart hready hd hq hfs hf hup
  obtain ⟨⟨hfences, hhealth, hkept⟩, hfenced, hstate, hidle, hm, hgen, hstop, hfence⟩ :=
    fenceBegin_begins hcanon hsite hcause hrun.symm
  exact ⟨_, rfl, hfences, hfenced, hstate, hidle, hm, hgen, hstop, hfence, hhealth, hkept⟩

end Sys2Proof.Machine

/-! SUPPORT. Fence requests and releases, the route tables and the end of a fence (O28; R45, R46, R49, R239, R295, R392). -/

namespace Sys2Proof.Machine

open Sys2Proof

/-! ## Requests (R45, R46) -/

/-- A fence of a site that is neither fenced nor queued enters the queue while the stewards that it needs run. -/
theorem run_wantFence {s : State} {f : FenceReq} (hf : s.isFenced f.site = false)
    (hq : ∀ g ∈ s.fences ++ s.heldFences, g.site ≠ f.site) (hup : ∀ g ∈ siteFields f.site, s.stewardUp g = true) :
    (wantFence f).run s = (Eff.fences (insertFence f s.fences)).apply s := by
  have hfree : ∀ xs ⊆ s.fences ++ s.heldFences, xs.any (fun g => decide (g.site = f.site)) = false := fun xs hxs =>
    List.any_eq_false.mpr fun g hg => by simpa using hq g (hxs hg)
  simp only [wantFence, run_look, hf, hfree _ (List.subset_append_left ..), hfree _ (List.subset_append_right ..),
    find_stopped_steward hup, run_whenP, run_withState]
  rfl

/-- The scalars that an accepted fence request writes beside the queue. -/
def fenceNoted (n : Nat) (s : State) : State := (setReg (0x3000 + n) 0xB4 0x01).run (addEvidence.run s)

theorem regAt_fenceNoted {s : State} {n k : Nat} (h1 : k ≠ rk (0x3000 + n) 0xB4) (h2 : k ≠ rk 0x2530 0x04) :
    (fenceNoted n s).regAt k = s.regAt k :=
  (regAt_setReg_of_ne h1 _).trans (get_set_ne _ _ _ _ _ _ h2)

theorem fenceNoted_frame (n : Nat) (s : State) :
    fenceNoted n s = { s with regs := (fenceNoted n s).regs, evidence := (fenceNoted n s).evidence } := rfl

/-- An answer to a command that writes scalars, the evidence and the fence queue. -/
theorem answered_fences {s u t : State} {fs : List FenceReq} (h : t = ((Eff.fences fs).apply u).answered t)
    (hu : u = { s with regs := u.regs, evidence := u.evidence }) :
    t = { s.answered t with regs := t.regs, evidence := t.evidence, fences := fs } := by
  have hr : t.regs = u.regs := by rw [h]; rfl
  have he : t.evidence = u.evidence := by rw [h]; rfl
  rw [hr, he]
  rw [hu] at h
  exact h

/-- An accepted fence request waits in site order and counts as evidence (R45). -/
theorem fenceSite_queues {s : State} (hs : s.Canonical) (hd : s.controllerDown = false) {p : Path} (hp : s.serves p = true)
    (n : Site) (hf : s.isFenced n = false) (hup : ∀ g ∈ siteFields n, s.stewardUp g = true)
    (hq : ∀ f ∈ s.fences ++ s.heldFences, f.site ≠ n.val) :
    ∃ t, exec (.fenceSite p n) s = .next t ∧ t.reg (0x3000 + n) 0xB4 = 0x01 ∧
      t = { s.answered t with regs := t.regs, evidence := t.evidence, fences := insertFence ⟨n, 0x01, none⟩ s.fences } ∧
      (∀ k, k ≠ rk (0x3000 + n) 0xB4 → k ≠ rk 0x2530 0x04 → t.regAt k = s.regAt k) ∧
      t.out = s.out ++ [.dictDone p 0 0] := by
  have hcode : (fenceCommand n).code s 0x2420 0x01 = 0 :=
    Command.code_zero hd (decide_eq_true n.isLt) (available_of_sourceStep rfl ..) rfl
  obtain ⟨ht, hout⟩ := command_accepted hp hcode rfl
  have hr := siteRegion_lt n.isLt
  have hk := courseOf_lt (siteRow n)
  have hf' : (fenceNoted n s).isFenced n = false := by
    rw [← hf]
    unfold State.isFenced
    rw [fenceMask_of_reg (regAt_fenceNoted (rk_sub_ne (by omega) (by omega) (by omega)) (by unfold rk; omega))]
  have hup' : ∀ g ∈ siteFields n, (fenceNoted n s).stewardUp g = true := fun g hg => by
    rw [← hup g hg]
    exact congrArg (· == 0) (regAt_fenceNoted (rk_sub_ne (by omega) (by omega) (by omega))
      (rk_sub_ne (by omega) (by omega) (by omega)))
  have heff : (fenceCommand n).effect.run s = (Eff.fences (insertFence ⟨n, 0x01, none⟩ s.fences)).apply (fenceNoted n s) :=
    run_wantFence (f := ⟨n, 0x01, none⟩) hf' hq hup'
  rw [heff] at ht hout
  have hB4 : (fenceNoted n s).reg (0x3000 + n) 0xB4 = 0x01 :=
    (regAt_setReg (run_sorted addEvidence hs.regs) ..).trans (if_pos rfl)
  have hother := fun k h1 h2 => regAt_fenceNoted (s := s) (n := n) (k := k) h1 h2
  have hframe := fenceNoted_frame n s
  generalize fenceNoted n s = u at ht hout hB4 hother hframe
  have hreg : ∀ {t : State}, t = ((Eff.fences (insertFence ⟨n, 0x01, none⟩ s.fences)).apply u).answered t →
      ∀ k, t.regAt k = u.regAt k := fun h k => (answered_regAt h k).trans (regAt_keeps (by simp) u k)
  refine ⟨_, rfl, (hreg ht _).trans hB4, answered_fences ht hframe, fun k h1 h2 => (hreg ht k).trans (hother k h1 h2), ?_⟩
  rw [hframe] at hout
  exact hout

/-- The release of a site in the health record and not in the fuses is noted (R46). -/
theorem releaseSite_notes {s : State} (hd : s.controllerDown = false) {p : Path} (hp : s.serves p = true) (n : Site)
    (hfuse : n.val ∉ s.fuseSites) (hrel : n.val ∉ s.releases) (hhealth : ∃ h ∈ s.health, h.site = n.val) :
    ∃ t, exec (.releaseSite p n) s = .next t ∧ t = { s.answered t with releases := s.releases ++ [n.val] } ∧
      t.out = s.out ++ [.dictDone p 0 0] := by
  have hcode : (releaseCommand n).code s 0x2420 0x02 = 0 :=
    Command.code_zero hd (by simpa [releaseCommand] using hfuse) (available_of_sourceStep rfl ..) rfl
  obtain ⟨ht, hout⟩ := command_accepted hp hcode rfl
  have heff : (releaseCommand n).effect.run s = (Eff.releases (s.releases ++ [n.val])).apply s := by
    simp [releaseCommand, hrel, hhealth]
  rw [heff] at ht hout
  exact ⟨_, rfl, ht, hout⟩

/-! ## Route tables (R239, R295) -/

/-- The X-tiles of which a table lists that they are orphaned are those that are. -/
theorem mem_orphans {s : State} (h : Tab.Canon (fun _ => ({} : XCore)) s.xtiles) (x : Nat) :
    x ∈ ((s.xtiles.filter fun e => e.2.orphan).map fun e => e.1) ↔ (s.xtile x).orphan = true := by
  simp only [List.mem_map, List.mem_filter]
  constructor
  · rintro ⟨⟨k, v⟩, ⟨hmem, ho⟩, rfl⟩
    rw [State.xtile, get_of_mem h.1 hmem]
    exact ho
  · intro ho
    by_cases hmem : ∃ v, (x, v) ∈ s.xtiles
    · obtain ⟨v, hmem⟩ := hmem
      rw [State.xtile, get_of_mem h.1 hmem] at ho
      exact ⟨(x, v), ⟨hmem, ho⟩, rfl⟩
    · rw [State.xtile, get_of_notMem fun v hv => hmem ⟨v, hv⟩] at ho
      exact Bool.noConfusion ho

/-- Naming X-tiles for their substitutes marks those and leaves the others. -/
theorem xtile_eachP_rerouted (ks : List Nat) {s : State} (h : Tab.Canon (fun _ => ({} : XCore)) s.xtiles) (x : Nat) :
    ((eachP ks fun k => modX k fun y => { y with rerouted := true }).run s).xtile x =
      if x ∈ ks then { s.xtile x with rerouted := true } else s.xtile x := by
  induction ks generalizing s with
  | nil => simp
  | cons k ks ih =>
    have hget : ((modX k fun y => { y with rerouted := true }).run s).xtile x =
        if x = k then { s.xtile k with rerouted := true } else s.xtile x := Tab.get_set h.1 ..
    have hcanon : Tab.Canon (fun _ => ({} : XCore)) ((modX k fun y => { y with rerouted := true }).run s).xtiles := Tab.canon_set h _ _
    rw [run_eachP_cons, ih hcanon, hget]
    by_cases hx : x = k
    · subst hx; simp
    · simp [hx]

theorem eachP_modX_frame (ks : List Nat) (f : XCore → XCore) (s : State) :
    (eachP ks fun k => modX k f).run s = { s with xtiles := ((eachP ks fun k => modX k f).run s).xtiles } := by
  induction ks generalizing s with
  | nil => rfl
  | cons k ks ih => rw [run_eachP_cons, ih]; rfl

theorem reroute_xtile {s : State} (h : Tab.Canon (fun _ => ({} : XCore)) s.xtiles) (x : Nat) :
    (reroute.run s).xtile x = if (s.xtile x).orphan then { s.xtile x with rerouted := true } else s.xtile x := by
  rw [reroute, run_look, xtile_eachP_rerouted _ h]
  simp only [mem_orphans h]

theorem reroute_frame (s : State) : reroute.run s = { s with xtiles := (reroute.run s).xtiles } := eachP_modX_frame ..

/-- Rewriting the route tables raises their generation and names substitutes. -/
theorem routesWritten_writes {s : State} (hs : s.Sorted) (hx : Tab.Canon (fun _ => ({} : XCore)) s.xtiles) {t : State}
    (ht : routesWritten.run s = t) :
    t = { s with regs := t.regs, xtiles := t.xtiles } ∧
      (∀ k, t.regAt k = if k = rk 0x2A10 0x01 then (s.reg 0x2A10 0x01 + 1) % 2 ^ 32 else s.regAt k) ∧
      ∀ x, t.xtile x = if (s.xtile x).orphan then { s.xtile x with rerouted := true } else s.xtile x := by
  have hrun : routesWritten.run s = reroute.run ((setReg 0x2A10 0x01 ((s.reg 0x2A10 0x01 + 1) % 2 ^ 32)).run s) := by
    rw [routesWritten, run_seq, run_look]
  have hreg := regAt_setReg hs 0x2A10 0x01 ((s.reg 0x2A10 0x01 + 1) % 2 ^ 32)
  have hframe := setReg_frame 0x2A10 0x01 ((s.reg 0x2A10 0x01 + 1) % 2 ^ 32) s
  generalize (setReg 0x2A10 0x01 ((s.reg 0x2A10 0x01 + 1) % 2 ^ 32)).run s = u at hrun hreg hframe
  have hxu : u.xtiles = s.xtiles := by rw [hframe]
  have hut := hrun.symm.trans ht
  have htu := reroute_frame u
  rw [hut] at htu
  refine ⟨?_, fun k => ?_, fun x => ?_⟩
  · rw [htu, hframe]
  · rw [← hreg, htu]; rfl
  · rw [← hut, reroute_xtile (hxu ▸ hx), State.xtile, hxu, State.xtile]

/-- With no ordered packet left, the route tables take the site of the fence in. -/
theorem run_routeUpdateProg {s : State} {f : FenceRun} (hf : s.fence = some f) (hr : f.routed = false) (ho : s.orderedLeft = false)
    (hd : s.controllerDown = false) :
    routeUpdateProg.run s = (Eff.fence (some { f with routed := true })).apply ((Eff.injectStop 0).apply
      (routesWritten.run ((Eff.routeState f.req.site (if f.linkDead then 2 else 1)).apply s))) := by
  have hcond : (!f.routed && !s.orderedLeft && !s.controllerDown) = true := by simp [hr, ho, hd]
  simp only [routeUpdateProg, run_look, hf, run_withP_some, hcond, run_whenP, if_true, run_all_cons, run_all_nil, run_eff]

/-- The route tables name the fenced site, the substitutes of orphaned X-tiles serve and injection resumes (R239, R295). -/
theorem routeTableUpdate_routes {s : State} (hs : s.Canonical) (hd : s.controllerDown = false) {f : FenceRun} (hf : s.fence = some f)
    (hr : f.routed = false) (ho : s.orderedLeft = false) :
    ∃ t, exec .routeTableUpdate s = .next t ∧ t.routeStateOf f.req.site = (if f.linkDead then 2 else 1) ∧
      t.reg 0x2A10 0x01 = (s.reg 0x2A10 0x01 + 1) % 2 ^ 32 ∧ (∀ n, n ≠ f.req.site → t.routeStateOf n = s.routeStateOf n) ∧
      (∀ x, t.xtile x = if (s.xtile x).orphan then { s.xtile x with rerouted := true } else s.xtile x) ∧
      t = { s with
        fence := some { f with routed := true }, injectStop := 0, regs := t.regs, routeState := t.routeState, xtiles := t.xtiles } ∧
      ∀ k, k ≠ rk 0x2A10 0x01 → t.regAt k = s.regAt k := by
  generalize hcode : (if f.linkDead then 2 else 1) = code
  have hstate : ∀ n, Tab.get 0 (Tab.set 0 s.routeState f.req.site code) n = if n = f.req.site then code else s.routeStateOf n :=
    Tab.get_set hs.routeState.1 f.req.site code
  have hrun := run_routeUpdateProg hf hr ho hd
  rw [hcode] at hrun
  generalize hw : routesWritten.run _ = w at hrun
  obtain ⟨hframe, hreg, hx⟩ := routesWritten_writes (s := (Eff.routeState f.req.site code).apply s) hs.regs hs.xtiles hw
  have hwstate : w.routeState = Tab.set 0 s.routeState f.req.site code := by rw [hframe]; rfl
  refine ⟨_, congrArg Host.Outcome.next hrun, ?_, (hreg _).trans (if_pos rfl), fun n hn => ?_, hx, ?_,
    fun k hk => (hreg k).trans (if_neg hk)⟩
  · exact (congrArg (Tab.get 0 · f.req.site) hwstate).trans ((hstate _).trans (if_pos rfl))
  · exact (congrArg (Tab.get 0 · n) hwstate).trans ((hstate n).trans (if_neg hn))
  · rw [hframe]; rfl

/-! ## The end of a fence (R49, R392) -/

/-- A walk whose every program leaves the state leaves it. -/
theorem run_eachP_id {α : Type} {xs : List α} {p : α → Prog} {s : State} (h : ∀ x ∈ xs, (p x).run s = s) :
    (eachP xs p).run s = s := by
  induction xs with
  | nil => rfl
  | cons x xs ih =>
    obtain ⟨hx, hxs⟩ := List.forall_mem_cons.mp h
    rw [run_eachP_cons, hx, ih hxs]

theorem run_reportDark_of_owed {s : State} {i : Nat} (h : (s.island i).owed = 0) : (reportDark i).run s = s :=
  run_eachP_id fun g _ => by simp [h]

theorem run_failInvalidSwitch_of_switch {s : State} {c : Nat} (h : (s.ctx c).switch = none) : (failInvalidSwitch c).run s = s := by
  simp [failInvalidSwitch, h]

/-- With no reset waiting for the end of a fence, that end starts none. -/
theorem run_startWaiting_of_none {s : State} (hwait : s.resetWaiting = none) (hpart : s.partResets = [])
    (hctx : ∀ c < 64, (s.ctx c).resetWaiting = false) : startWaiting.run s = s := by
  have hnone : ((List.range 64).filter fun c => (s.ctx c).resetWaiting && s.ctxState c != 0) = [] :=
    List.filter_eq_nil_iff.mpr fun c hc => by simp [hctx c (List.mem_range.mp hc)]
  simp only [startWaiting, run_look, hwait, hpart, hnone, List.filter_nil, run_all_cons, run_all_nil, run_eachP_nil, run_eff]
  rw [← hpart]; rfl

/-- Setting the cause of one site's entries leaves the entries of the others. -/
theorem mem_map_setCause {hl : List HealthEntry} {n cause : Nat} {h : HealthEntry} (hn : h.site ≠ n) :
    (h ∈ hl.map fun g => if g.site = n then { g with cause := cause } else g) ↔ h ∈ hl := by
  rw [List.mem_map]
  constructor
  · rintro ⟨g, hg, rfl⟩
    split at hn
    · rename_i hs; exact absurd hs hn
    · rename_i hs; rwa [if_neg hs]
  · exact fun hh => ⟨h, hh, if_neg hn⟩

/-- A record that is not full takes the site's entry, and its entries of other sites stay (R49). -/
theorem writeHealth_writes {s : State} (hlen : s.health.length < 256) (n cause : Nat) :
    ∃ hl : List HealthEntry, (writeHealth n cause).run s = { s with health := hl } ∧
      (∃ h ∈ hl, h.site = n ∧ h.cause = cause) ∧
      ∀ h : HealthEntry, h.site ≠ n → (h ∈ hl ↔ h ∈ s.health) := by
  have htake : ∀ hl : List HealthEntry, hl.length ≤ 256 → (Eff.health hl).apply s = { s with health := hl } := fun hl h => by
    simp only [Eff.apply, List.take_of_length_le h]
  by_cases hlisted : s.health.any (fun h => decide (h.site = n)) = true
  · refine ⟨s.health.map fun h => if h.site = n then { h with cause := cause } else h, ?_, ?_, fun h hn => mem_map_setCause hn⟩
    · rw [writeHealth, run_look, if_pos hlisted, run_eff]
      exact htake _ (by simpa using hlen.le)
    · obtain ⟨g, hg, hsite⟩ := List.any_eq_true.mp hlisted
      exact ⟨_, List.mem_map_of_mem hg, by simp_all⟩
  · refine ⟨s.health ++ [⟨n, cause, s.now⟩], ?_, ⟨_, List.mem_append_right _ (List.mem_singleton_self _), rfl, rfl⟩,
      fun h hn => ?_⟩
    · rw [writeHealth, run_look, if_neg hlisted, if_pos hlen, run_eff]
      exact htake _ (by simpa using hlen)
    · rw [List.mem_append, List.mem_singleton]
      exact or_iff_left fun hh => hn (congrArg HealthEntry.site hh)

/-- A routed fence that stopped no context writes the health record and reports its end. -/
theorem run_fenceCompleteProg {s : State} {f : FenceRun} (hf : s.fence = some f) (hr : f.routed = true) (hst : f.stopped = [])
    (hd : s.controllerDown = false) (hup : ∀ g ∈ siteFields f.req.site, s.stewardUp g = true) :
    fenceCompleteProg.run s = startWaiting.run ((eachP (List.range 64) failInvalidSwitch).run
      ((reportDark (siteIsland f.req.site)).run ((report 0x3002 6 0 f.req.site f.req.cause).run
        ((writeHealth f.req.site f.req.cause).run ((Eff.fence none).apply s))))) := by
  have hheld : s.fenceHeld f = false := by
    simp [State.fenceHeld, hst, List.all_eq_true.mpr hup]
  have hcond : (f.routed && !s.controllerDown && !s.fenceHeld f) = true := by simp [hr, hd, hheld]
  simp only [fenceCompleteProg, run_look, hf, run_withP_some, hcond, run_whenP, if_true, run_all_cons, run_all_nil, run_eff, hst,
    run_eachP_nil]

/-- The end of a fence for which nothing waits: its site and cause are in the health record (R49). -/
theorem fenceComplete_completes {s : State} (hd : s.controllerDown = false) {f : FenceRun} (hf : s.fence = some f)
    (hr : f.routed = true) (hst : f.stopped = []) (hlen : s.health.length < 256) (hwait : s.resetWaiting = none)
    (hpart : s.partResets = []) (hctx : ∀ c : Ctx, (s.ctx c).resetWaiting = false ∧ (s.ctx c).switch = none)
    (howed : (s.island (siteIsland f.req.site)).owed = 0) (hup : ∀ g ∈ siteFields f.req.site, s.stewardUp g = true) :
    ∃ t, exec .fenceComplete s = .next t ∧ (∃ h ∈ t.health, h.site = f.req.site ∧ h.cause = f.req.cause) ∧
      (∀ h : HealthEntry, h.site ≠ f.req.site → (h ∈ t.health ↔ h ∈ s.health)) ∧
      t = { s.reported t with fence := none, health := t.health } ∧ s.scalarsBut [] t := by
  have hrun := run_fenceCompleteProg hf hr hst hd hup
  obtain ⟨hl, hwrite, hentry, hothers⟩ := writeHealth_writes (s := (Eff.fence none).apply s) hlen f.req.site f.req.cause
  rw [hwrite] at hrun
  obtain ⟨hframe, hregs⟩ := report_step 0x3002 6 0 f.req.site f.req.cause { (Eff.fence none).apply s with health := hl }
  generalize (report 0x3002 6 0 f.req.site f.req.cause).run _ = t at hrun hframe hregs
  have hctx' : ∀ c < 64, (t.ctx c).resetWaiting = false ∧ (t.ctx c).switch = none := fun c hc => by
    rw [hframe]; exact hctx ⟨c, hc⟩
  have hhealth : t.health = hl := by rw [hframe]; rfl
  rw [run_reportDark_of_owed (by rw [hframe]; exact howed),
    run_eachP_id fun c hc => run_failInvalidSwitch_of_switch (hctx' c (List.mem_range.mp hc)).2,
    run_startWaiting_of_none (by rw [hframe]; exact hwait) (by rw [hframe]; exact hpart) fun c hc => (hctx' c hc).1] at hrun
  refine ⟨t, congrArg Host.Outcome.next hrun, by rwa [hhealth], by rwa [hhealth], ?_, fun k _ hk => hregs k hk⟩
  rw [hhealth]
  exact hframe

/-- Settles O28: each of the five commands has its lemma above. -/
theorem fencesQueueAndRun : Obligations.FencesQueueAndRun := fun _ hs hd =>
  ⟨fun _ n hp => fenceSite_queues hs hd hp n, fun _ n hp => releaseSite_notes hd hp n, fun _ _ => fenceStart_starts hs hd,
    fun _ => routeTableUpdate_routes hs hd, fun _ => fenceComplete_completes hd⟩

end Sys2Proof.Machine

/-! SUPPORT. The clear commands of the counters: what they return to its default and what they leave (O10; R84, R145, R225,
R251, R289, R373). -/

namespace Sys2Proof.Machine

open Sys2Proof

/-! ## Defaults -/

/-- Row `r` of the defaults applies to key `k`. -/
def defaultRowAt (k : Nat) (r : Nat × Nat × Nat × Nat) : Bool :=
  decide (r.1 ≤ k ∧ (k - r.1) / 256 < r.2.1 ∧ (k - r.1) % 256 ≤ r.2.2.1)

/-- The first row that applies gives the default. -/
theorem regDefault_of_row {k : Nat} {pre post : List (Nat × Nat × Nat × Nat)} {r : Nat × Nat × Nat × Nat}
    (hrows : nonzeroDefaults = pre ++ r :: post) (hpre : ∀ e ∈ pre, defaultRowAt k e = false) (hr : defaultRowAt k r = true) :
    regDefault k = r.2.2.2 := by
  have hfind : nonzeroDefaults.find? (defaultRowAt k) = some r :=
    List.find?_eq_some_iff_append.mpr ⟨hr, pre, post, hrows, fun e he => by simp [hpre e he]⟩
  change (match nonzeroDefaults.find? (defaultRowAt k) with | some r => r.2.2.2 | none => 0) = _
  rw [hfind]

/-- A row does not apply to a subindex that it does not reach in its own object. -/
theorem defaultRowAt_eq_false {r : Nat × Nat × Nat × Nat} {j : Nat} (h : r.2.2.1 < (j + 256 - r.1 % 256) % 256) (i : Nat) :
    defaultRowAt (rk i j) r = false := by
  refine decide_eq_false fun hr => ?_
  unfold rk at hr
  omega

/-- A site's least margin starts at 127. -/
theorem regDefault_leastMargin (n : Site) : regDefault (rk (0x3000 + n) 0xA2) = 127 := by
  have hn := n.isLt
  have hpre : ∀ e ∈ nonzeroDefaults.take 84, e.2.2.1 < (0xA2 + 256 - e.1 % 256) % 256 := by decide
  refine regDefault_of_row (pre := nonzeroDefaults.take 84) (post := nonzeroDefaults.drop 85) (r := (0x3000A2, 3264, 0, 127)) rfl
    (fun e he => defaultRowAt_eq_false (hpre e he) _) (decide_eq_true ?_)
  dsimp only [rk]
  omega

theorem regDefault_stackCounts (k : Stack) : regDefault (rk (0x4100 + k) 0x05) = 0 ∧ regDefault (rk (0x4100 + k) 0x06) = 0 := by
  revert k; decide

/-! ## What a clear command writes (R84) -/

theorem eachP_dropRegs_frame (ks : List Nat) (s : State) : (eachP ks fun k => .eff (.dropRegs k (k + 1))).run s =
    { s with regs := ((eachP ks fun k => .eff (.dropRegs k (k + 1))).run s).regs } := by
  induction ks generalizing s with
  | nil => rfl
  | cons k ks ih => rw [run_eachP_cons, ih]; rfl

/-- Returning scalars to their defaults writes scalars alone. -/
theorem resetRegs_frame (which : Nat → Nat → Bool) (s : State) :
    (resetRegs which).run s = { s with regs := ((resetRegs which).run s).regs } := eachP_dropRegs_frame ..

/-- Dropping keys one by one returns each of them to its default. -/
theorem regAt_eachP_dropRegs (ks : List Nat) (s : State) (k : Nat) :
    ((eachP ks fun k => .eff (.dropRegs k (k + 1))).run s).regAt k = if k ∈ ks then regDefault k else s.regAt k := by
  induction ks generalizing s with
  | nil => simp
  | cons j ks ih =>
    have hrange : (j ≤ k ∧ k < j + 1) ↔ k = j := by omega
    rw [run_eachP_cons, ih, run_eff, regAt_dropRegs]
    simp only [hrange, List.mem_cons]
    by_cases hk : k ∈ ks <;> simp [hk]

/-- The scalars that the predicate names read their defaults, the others what they did. -/
theorem regAt_resetRegs (s : State) (which : Nat → Nat → Bool) (k : Nat) :
    ((resetRegs which).run s).regAt k = if which (k / 256) (k % 256) = true then regDefault k else s.regAt k := by
  rw [resetRegs, run_look, regAt_eachP_dropRegs]
  by_cases hlisted : ∃ v, (k, v) ∈ s.regs
  · obtain ⟨v, hv⟩ := hlisted
    have hmem : k ∈ (s.regs.filter fun e => which (e.1 / 256) (e.1 % 256)).map (fun e => e.1) ↔
        which (k / 256) (k % 256) = true := by
      simp only [List.mem_map, List.mem_filter]
      exact ⟨by rintro ⟨e, ⟨-, he⟩, rfl⟩; exact he, fun hw => ⟨(k, v), ⟨hv, hw⟩, rfl⟩⟩
    simp only [hmem]
  · have hdefault : s.regAt k = regDefault k := get_of_notMem fun v hv => hlisted ⟨v, hv⟩
    simp only [hdefault, ite_self]

/-- A ring's record with its counters at 0. -/
def Ring.cleared (x : Ring) : Ring := { x with messages := 0, senderStall := 0, receiverStall := 0, rejected := 0 }

theorem eachP_modRing_frame (ks : List Nat) (f : Ring → Ring) (s : State) :
    (eachP ks fun k => modRing k f).run s = { s with rings := ((eachP ks fun k => modRing k f).run s).rings } := by
  induction ks generalizing s with
  | nil => rfl
  | cons k ks ih => rw [run_eachP_cons, ih]; rfl

theorem clearRings_frame (s : State) : clearRings.run s = { s with rings := (clearRings.run s).rings } := eachP_modRing_frame ..

/-- Changing rings one by one changes each that is listed; a change that happens twice is one. -/
theorem ring_eachP_modRing {f : Ring → Ring} (hf : ∀ x, f (f x) = f x) (ks : List Nat) {s : State}
    (h : Tab.Canon (fun _ => ({} : Ring)) s.rings) (r : Nat) :
    ((eachP ks fun k => modRing k f).run s).ring r = if r ∈ ks then f (s.ring r) else s.ring r := by
  induction ks generalizing s with
  | nil => simp
  | cons k ks ih =>
    have hget : ((modRing k f).run s).ring r = if r = k then f (s.ring k) else s.ring r := Tab.get_set h.1 ..
    have hcanon : Tab.Canon (fun _ => ({} : Ring)) ((modRing k f).run s).rings := Tab.canon_set h _ _
    rw [run_eachP_cons, ih hcanon, hget]
    by_cases hr : r = k
    · subst hr; simp [hf]
    · simp [hr]

/-- Every ring's counters read 0: those of a ring that the table does not list read 0 anyway. -/
theorem ring_clearRings {s : State} (h : Tab.Canon (fun _ => ({} : Ring)) s.rings) (r : Nat) :
    (clearRings.run s).ring r = (s.ring r).cleared := by
  have hrun : (clearRings.run s).ring r = if r ∈ s.rings.map (fun e => e.1) then (s.ring r).cleared else s.ring r :=
    ring_eachP_modRing (f := Ring.cleared) (fun _ => rfl) _ h r
  rw [hrun]
  split
  · rfl
  · rename_i hr
    have hfresh : s.ring r = {} := get_of_notMem fun v hv => hr (List.mem_map.mpr ⟨(r, v), hv, rfl⟩)
    rw [hfresh]; rfl

/-- The counts without an object: each goes with the clear command of its group. -/
theorem run_clearCounts (idx : Nat) (s : State) : (clearCounts idx).run s = { s with
    maskDrops := if idx = 0x2C02 then Tab.drop s.maskDrops 0 everyKey else s.maskDrops
    slotFixes := if idx = 0x2B00 then Tab.drop s.slotFixes 0 everyKey else s.slotFixes
    retiredDrops := if idx = 0x2D00 then 0 else s.retiredDrops } := by
  unfold clearCounts
  split
  · rfl
  · rfl
  · rfl
  · rename_i h1 h2 h3
    rw [if_neg h1, if_neg h2, if_neg h3]; rfl

/-- What a clear command with a non-zero value writes. -/
theorem run_clearCommand {v : Nat} (hv : v ≠ 0) (idx : Nat) (s : State) : (clearCommand idx v).effect.run s = { s with
    regs := ((resetRegs (clearsOf idx)).run s).regs
    rings := if idx = 0x2800 then (clearRings.run ((resetRegs (clearsOf idx)).run s)).rings else s.rings
    maskDrops := if idx = 0x2C02 then Tab.drop s.maskDrops 0 everyKey else s.maskDrops
    slotFixes := if idx = 0x2B00 then Tab.drop s.slotFixes 0 everyKey else s.slotFixes
    retiredDrops := if idx = 0x2D00 then 0 else s.retiredDrops } := by
  have hrun : (clearCommand idx v).effect.run s =
      (clearCounts idx).run ((whenP (idx == 0x2800) clearRings).run ((resetRegs (clearsOf idx)).run s)) := by
    simp [clearCommand, hv]
  rw [hrun, run_clearCounts, run_whenP]
  by_cases h : idx = 0x2800
  · rw [if_pos (by simp [h]), if_pos h, clearRings_frame, resetRegs_frame]
  · rw [if_neg (by simpa using h), if_neg h, resetRegs_frame]

/-- What a clear command with the value 0 writes: nothing. -/
theorem run_clearCommand_zero (idx : Nat) (s : State) : (clearCommand idx 0).effect.run s = s := rfl

/-- What the accepted write of the clear object of index `idx` leaves: the counters of its group, the rings' counters with
0x2800, and the counts without an object with the commands that notes/assumptions/106.md names. -/
structure ClearStep (p : Path) (idx v : Nat) (s t : State) : Prop where
  frame : t = { s.answered t with
    regs := t.regs, rings := t.rings, maskDrops := t.maskDrops, slotFixes := t.slotFixes, retiredDrops := t.retiredDrops }
  out : t.out = s.out ++ [.dictDone p 0 0]
  regAt : ∀ k, t.regAt k = if v ≠ 0 ∧ clearsOf idx (k / 256) (k % 256) = true then regDefault k else s.regAt k
  rings : ¬(v ≠ 0 ∧ idx = 0x2800) → t.rings = s.rings
  ring : v ≠ 0 → idx = 0x2800 → ∀ r, t.ring r = (s.ring r).cleared
  maskDrops : t.maskDrops = if v ≠ 0 ∧ idx = 0x2C02 then Tab.drop s.maskDrops 0 everyKey else s.maskDrops
  slotFixes : t.slotFixes = if v ≠ 0 ∧ idx = 0x2B00 then Tab.drop s.slotFixes 0 everyKey else s.slotFixes
  retiredDrops : t.retiredDrops = if v ≠ 0 ∧ idx = 0x2D00 then 0 else s.retiredDrops

/-- The write of a clear object that the management plane holds is accepted on a served path. -/
theorem clearCommand_clears {s : State} (hc : s.Canonical) {p : Path} (hp : s.serves p = true) (hd : s.controllerDown = false)
    {idx sub : Nat} (hsource : sourceStep idx sub = 0) (v : Nat) :
    ∃ t, finish (commandWrite p idx sub (clearCommand idx v)) s = .next t ∧ ClearStep p idx v s t := by
  have hcode : (clearCommand idx v).code s idx sub = 0 := Command.code_zero hd rfl (available_of_sourceStep hsource ..) rfl
  obtain ⟨ht, hout⟩ := command_accepted hp hcode rfl
  refine ⟨_, finish_eq .., ?_⟩
  generalize (commandWrite p idx sub (clearCommand idx v)).run s = t at ht hout
  by_cases hv : v = 0
  · subst hv
    rw [run_clearCommand_zero] at ht hout
    rw [ht] at hout ⊢
    exact ⟨rfl, hout, fun _ => rfl, fun _ => rfl, fun h => absurd rfl h, rfl, rfl, rfl⟩
  · rw [run_clearCommand hv] at ht hout
    have hrings : ((resetRegs (clearsOf idx)).run s).rings = s.rings := by rw [resetRegs_frame]
    rw [ht] at hout ⊢
    exact {
      frame := rfl
      out := hout
      regAt := fun k => (regAt_resetRegs s (clearsOf idx) k).trans (if_congr (and_iff_right hv).symm rfl rfl)
      rings := fun h => if_neg fun hidx => h ⟨hv, hidx⟩
      ring := fun _ hidx r => by
        have hring := ring_clearRings (s := (resetRegs (clearsOf idx)).run s) (by rw [hrings]; exact hc.rings) r
        rw [State.ring, State.ring, hrings] at hring
        change Tab.get {} (if idx = 0x2800 then (clearRings.run ((resetRegs (clearsOf idx)).run s)).rings else s.rings) r = _
        rw [if_pos hidx]
        exact hring
      maskDrops := if_congr (and_iff_right hv).symm rfl rfl
      slotFixes := if_congr (and_iff_right hv).symm rfl rfl
      retiredDrops := if_congr (and_iff_right hv).symm rfl rfl }

section others

variable {p : Path} {idx v : Nat} {s t : State} (h : ClearStep p idx v s t)
include h

/-- The command of another group leaves the rings. -/
theorem ClearStep.rings_of_ne (hidx : idx ≠ 0x2800) : t.rings = s.rings := h.rings fun hi => hidx hi.2

/-- The command of another group leaves the dropped mask inputs. -/
theorem ClearStep.maskDrops_of_ne (hidx : idx ≠ 0x2C02) : t.maskDrops = s.maskDrops :=
  h.maskDrops.trans (if_neg fun hi => hidx hi.2)

/-- The command of another group leaves the corrected errors of plan slots. -/
theorem ClearStep.slotFixes_of_ne (hidx : idx ≠ 0x2B00) : t.slotFixes = s.slotFixes :=
  h.slotFixes.trans (if_neg fun hi => hidx hi.2)

/-- The command of another group leaves the writes to retired lines. -/
theorem ClearStep.retiredDrops_of_ne (hidx : idx ≠ 0x2D00) : t.retiredDrops = s.retiredDrops :=
  h.retiredDrops.trans (if_neg fun hi => hidx hi.2)

end others

/-- A counter of the group reads its default. -/
theorem ClearStep.reg {p : Path} {idx v : Nat} {s t : State} (h : ClearStep p idx v s t) (hv : v ≠ 0) {i j d : Nat} (hj : j < 256)
    (hclears : clearsOf idx i j = true) (hdefault : regDefault (rk i j) = d) : t.reg i j = d := by
  have hi : rk i j / 256 = i := by unfold rk; omega
  have hsub : rk i j % 256 = j := by unfold rk; omega
  rw [State.reg, h.regAt, hi, hsub, if_pos ⟨hv, hclears⟩, hdefault]

/-- A clear command whose group has no count but those of the dictionary changes scalars alone. -/
theorem clearCommand_scalars {s : State} (hc : s.Canonical) {p : Path} (hp : s.serves p = true) (hd : s.controllerDown = false)
    {idx sub : Nat} (hsource : sourceStep idx sub = 0) (hscalars : idx ∉ [0x2800, 0x2C02, 0x2B00, 0x2D00]) (v : Nat)
    {P : State → Prop} (hP : ∀ t, ClearStep p idx v s t → P t) :
    ∃ t, finish (commandWrite p idx sub (clearCommand idx v)) s = .next t ∧ t = { s.answered t with regs := t.regs } ∧
      t.out = s.out ++ [.dictDone p 0 0] ∧
      (∀ k, t.regAt k = if v ≠ 0 ∧ clearsOf idx (k / 256) (k % 256) = true then regDefault k else s.regAt k) ∧ P t := by
  obtain ⟨t, hrun, h⟩ := clearCommand_clears hc hp hd hsource v
  simp only [List.mem_cons, List.not_mem_nil, or_false, not_or] at hscalars
  obtain ⟨hsync, harith, hbond, hhbm⟩ := hscalars
  have hframe := h.frame
  rw [h.rings_of_ne hsync, h.maskDrops_of_ne harith, h.slotFixes_of_ne hbond, h.retiredDrops_of_ne hhbm] at hframe
  exact ⟨t, hrun, hframe, h.out, h.regAt, hP t h⟩

/-! ## The groups with counts that have no object (notes/assumptions/106.md), and the rings -/

section groups

variable {s : State} (hc : s.Canonical) {p : Path} (hp : s.serves p = true) (hd : s.controllerDown = false) (v : Nat)
include hc hp hd

/-- The arithmetic counters go with the dropped mask inputs. -/
theorem clearArithmeticCounters_clears :
    ∃ t, exec (.clearArithmeticCounters p v) s = .next t ∧ t = { s.answered t with regs := t.regs, maskDrops := t.maskDrops } ∧
      t.out = s.out ++ [.dictDone p 0 0] ∧
      (∀ k, t.regAt k = if v ≠ 0 ∧ clearsOf 0x2C02 (k / 256) (k % 256) = true then regDefault k else s.regAt k) ∧
      (∀ j, 0x01 ≤ j → j ≤ 0x0A → v ≠ 0 → t.reg 0x2C01 j = 0) ∧
      ∀ k, k < 2 ^ 64 → t.maskDropsAt k = if v = 0 then s.maskDropsAt k else 0 := by
  obtain ⟨t, hrun, h⟩ := clearCommand_clears hc hp hd (idx := 0x2C02) (sub := 0x01) rfl v
  have hframe := h.frame
  rw [h.rings_of_ne (by decide), h.slotFixes_of_ne (by decide), h.retiredDrops_of_ne (by decide)] at hframe
  have hdefault : ∀ j < 0x0B, regDefault (rk 0x2C01 j) = 0 := by decide
  refine ⟨t, hrun, hframe, h.out, h.regAt, fun j _ hj hv => ?_, fun k hk => ?_⟩
  · exact h.reg hv (by omega) (by simp [clearsOf]) (hdefault j (by omega))
  · rw [State.maskDropsAt, h.maskDrops]
    by_cases hv : v = 0
    · rw [if_neg fun hi => hi.1 hv, if_pos hv]; rfl
    · rw [if_pos ⟨hv, rfl⟩, if_neg hv, Tab.get_drop, if_pos ⟨Nat.zero_le k, hk⟩]

/-- The Bond counters go with the corrected errors of plan slots. -/
theorem clearBondCounters_clears :
    ∃ t, exec (.clearBondCounters p v) s = .next t ∧ t = { s.answered t with regs := t.regs, slotFixes := t.slotFixes } ∧
      t.out = s.out ++ [.dictDone p 0 0] ∧
      (∀ k, t.regAt k = if v ≠ 0 ∧ clearsOf 0x2B00 (k / 256) (k % 256) = true then regDefault k else s.regAt k) ∧
      (v ≠ 0 → t.reg 0x2B00 0x02 = 0 ∧ t.reg 0x2B00 0x03 = 0) ∧
      ∀ n : Site, t.slotFixesAt n = if v = 0 then s.slotFixesAt n else 0 := by
  obtain ⟨t, hrun, h⟩ := clearCommand_clears hc hp hd (idx := 0x2B00) (sub := 0x04) rfl v
  have hframe := h.frame
  rw [h.rings_of_ne (by decide), h.maskDrops_of_ne (by decide), h.retiredDrops_of_ne (by decide)] at hframe
  refine ⟨t, hrun, hframe, h.out, h.regAt,
    fun hv => ⟨h.reg hv (by decide) rfl (by decide), h.reg hv (by decide) rfl (by decide)⟩, fun n => ?_⟩
  have hn : n.val < everyKey := n.isLt.trans (by decide)
  rw [State.slotFixesAt, h.slotFixes]
  by_cases hv : v = 0
  · rw [if_neg fun hi => hi.1 hv, if_pos hv]; rfl
  · rw [if_pos ⟨hv, rfl⟩, if_neg hv, Tab.get_drop, if_pos ⟨Nat.zero_le n.val, hn⟩]

/-- The counters of the stacks go with the writes to retired lines. -/
theorem clearHbmCounters_clears :
    ∃ t, exec (.clearHbmCounters p v) s = .next t ∧ t = { s.answered t with regs := t.regs, retiredDrops := t.retiredDrops } ∧
      t.retiredDrops = (if v = 0 then s.retiredDrops else 0) ∧ t.out = s.out ++ [.dictDone p 0 0] ∧
      (∀ k, t.regAt k = if v ≠ 0 ∧ clearsOf 0x2D00 (k / 256) (k % 256) = true then regDefault k else s.regAt k) ∧
      (∀ k : Stack, v ≠ 0 → t.reg (0x4100 + k) 0x05 = 0 ∧ t.reg (0x4100 + k) 0x06 = 0) := by
  obtain ⟨t, hrun, h⟩ := clearCommand_clears hc hp hd (idx := 0x2D00) (sub := 0x08) rfl v
  have hframe := h.frame
  rw [h.rings_of_ne (by decide), h.maskDrops_of_ne (by decide), h.slotFixes_of_ne (by decide)] at hframe
  refine ⟨t, hrun, hframe, ?_, h.out, h.regAt, fun k hv => ?_⟩
  · rw [h.retiredDrops]
    by_cases hv : v = 0
    · rw [if_neg fun hi => hi.1 hv, if_pos hv]
    · rw [if_pos ⟨hv, rfl⟩, if_neg hv]
  · obtain ⟨h5, h6⟩ := regDefault_stackCounts k
    have hk : 0x4100 + k.val < 0x4120 := Nat.add_lt_add_left k.isLt _
    exact ⟨h.reg hv (by decide) (by simp [clearsOf, hk]) h5, h.reg hv (by decide) (by simp [clearsOf, hk]) h6⟩

/-- The counters of the sync plane go with those of the rings. -/
theorem clearSyncCounters_clears :
    ∃ t, exec (.clearSyncCounters p v) s = .next t ∧ t = { s.answered t with regs := t.regs, rings := t.rings } ∧
      t.out = s.out ++ [.dictDone p 0 0] ∧
      (∀ k, t.regAt k = if v ≠ 0 ∧ clearsOf 0x2800 (k / 256) (k % 256) = true then regDefault k else s.regAt k) ∧
      (v ≠ 0 → t.reg 0x2800 0x04 = 0) ∧
      ∀ r, t.ring r = if v = 0 then s.ring r
        else { s.ring r with messages := 0, senderStall := 0, receiverStall := 0, rejected := 0 } := by
  obtain ⟨t, hrun, h⟩ := clearCommand_clears hc hp hd (idx := 0x2800) (sub := 0x05) rfl v
  have hframe := h.frame
  rw [h.maskDrops_of_ne (by decide), h.slotFixes_of_ne (by decide), h.retiredDrops_of_ne (by decide)] at hframe
  refine ⟨t, hrun, hframe, h.out, h.regAt, fun hv => h.reg hv (by decide) rfl (by decide), fun r => ?_⟩
  by_cases hv : v = 0
  · rw [if_pos hv, State.ring, h.rings fun hi => hi.1 hv]; rfl
  · rw [if_neg hv]; exact h.ring hv rfl r

end groups

/-- Settles O10: the ten clear objects are one command over the predicate of their group. -/
theorem countersClear : Obligations.CountersClear := by
  intro s p v hc hp hd
  have hvote : ∀ j < 6, regDefault (rk 0x2540 j) = 0 := by decide
  exact ⟨clearArithmeticCounters_clears hc hp hd v,
    clearCommand_scalars hc hp hd (idx := 0x29E1) (sub := 0x01) rfl (by decide) v fun t h hv =>
      ⟨h.reg hv (by decide) rfl (by decide), h.reg hv (by decide) rfl (by decide)⟩,
    clearBondCounters_clears hc hp hd v,
    clearCommand_scalars hc hp hd (idx := 0x2A00) (sub := 0x06) rfl (by decide) v fun t h hv =>
      ⟨h.reg hv (by decide) rfl (by decide), h.reg hv (by decide) rfl (by decide)⟩,
    clearHbmCounters_clears hc hp hd v,
    clearSyncCounters_clears hc hp hd v,
    clearCommand_scalars hc hp hd (idx := 0x2E00) (sub := 0x02) rfl (by decide) v fun t h hv =>
      ⟨h.reg hv (by decide) rfl (by decide), h.reg hv (by decide) rfl (by decide)⟩,
    clearCommand_scalars hc hp hd (idx := 0x2200) (sub := 0x0A) rfl (by decide) v fun t h n hv =>
      have hn : 0x3000 + n.val < 0x3CC0 := Nat.add_lt_add_left n.isLt _
      h.reg hv (by decide) (by simp [clearsOf, hn]) (regDefault_leastMargin n),
    clearCommand_scalars hc hp hd (idx := 0x2540) (sub := 0x06) rfl (by decide) v fun t h j hlo hhi hv =>
      h.reg hv (by omega) (by simp [clearsOf, hlo, hhi]) (hvote j (by omega)),
    clearCommand_scalars hc hp hd (idx := 0x2600) (sub := 0x05) rfl (by decide) v fun t h hv =>
      h.reg hv (by decide) rfl (by decide)⟩

end Sys2Proof.Machine

/-! SUPPORT. The statement on operation records and block steps fails where an accumulator's word carries a block word (O40):
it keeps every part of the word but the value, and a step keeps the value's mark alone. No command puts a block word into an
accumulator, and the statement has no premise that says so. -/

namespace Sys2Proof.Machine

open Sys2Proof

/-- A dense output-stationary operation of one row, one column and two blocks: both operands are BF16 tensors in the operand
store, and the output goes there as raw FP32. -/
def plainOp : MOp :=
  { words := [2 ^ 59 + 4 * 2 ^ 56 + 4 * 2 ^ 53 + 4 * 2 ^ 47 + 2 ^ 38 + 2 ^ 31 + 2 * 2 ^ 19, 0, 5 * 2 ^ 60 + 5 * 2 ^ 28] }

/-- On a ready device site 0 runs `plainOp` in context 0, and the word of its one accumulator carries a block word, which the
model's word type has room for. -/
def blockWordInAcc : State := { State.reset with
  regs := [(rk 0x20F0 0x01, 0x0C), (rk 0x2700 0x01, 1)], booted := true, mainOn := true, reset_ := none
  running := [(0, some ⟨0, 0, false⟩)]
  mtiles := [(0, { cur := some plainOp })]
  acc := [(0, { blockWord := 1 })] }

/-- Refutes O40: a step commits an accumulator's value and mark alone (`commitCells`), so in `blockWordInAcc` the accumulator's
new word is not its old word with a new value: its block word is gone. -/
theorem not_arraysStartAndStep : ¬ Obligations.ArraysStartAndStep := by
  intro h
  have hcanon : blockWordInAcc.Canonical := by constructor <;> decide +kernel
  obtain ⟨-, hop⟩ := h blockWordInAcc 0 hcanon
  obtain ⟨hstep, -⟩ := hop 0 0 plainOp { blocks := [{}] } { blocks := [{}] } (by decide +kernel) (by decide) (by decide)
    (by decide) (by decide) (by decide) (by decide) _ fun _ _ _ _ => rfl
  obtain ⟨t, hexec, hacc, -⟩ := hstep (by decide) (by decide) (by decide) (by decide +kernel) (by decide +kernel) (by decide)
    (by decide)
  have hkept : (blockWordInAcc.accAt (accKey (0 : Site) plainOp 0 0)).blockWord = 1 := by decide +kernel
  have hblock := (congrArg FWord.blockWord (hacc 0 0 (by decide) (by decide))).trans hkept
  obtain rfl : _ = t := Host.Outcome.next.inj hexec
  revert hblock
  decide +kernel

end Sys2Proof.Machine

/-! SUPPORT. The M-tile's drain, verdicts and halts, and writes of its operand store (O42; R90, R93, R94, R96, R97, R102, R105). -/

namespace Sys2Proof.Machine

open Sys2Proof

/-! ## Numbers and bytes (R8) -/

@[simp] theorem toBytes_length (n v : Nat) : (toBytes n v).length = n := by
  induction n generalizing v with
  | zero => rfl
  | succ n ih => rw [toBytes, List.length_cons, ih]

/-- The bytes of a number spell it, as far as they reach. -/
theorem ofBytes_toBytes (n v : Nat) : ofBytes (toBytes n v) = v % 256 ^ n := by
  induction n generalizing v with
  | zero => exact (Nat.mod_one v).symm
  | succ n ih =>
    exact (congrArg (v % 256 + 256 * ·) (ih _)).trans (by rw [Nat.pow_succ', Nat.mod_mul])

/-- In a list of items of `w` elements each, item `j` stands at place `w * j`. -/
theorem take_drop_flatMap {α β : Type} {f : α → List β} {w : Nat} (hf : ∀ x, (f x).length = w) {xs : List α} {j : Nat}
    (hj : j < xs.length) : ((xs.flatMap f).drop (w * j)).take w = f xs[j] := by
  induction xs generalizing j with
  | nil => exact absurd hj (Nat.not_lt_zero j)
  | cons x xs ih =>
    rw [List.flatMap_cons]
    cases j with
    | zero => rw [Nat.mul_zero, List.drop_zero, List.take_left' (hf x)]; rfl
    | succ j =>
      rw [Nat.mul_succ, Nat.add_comm, ← List.drop_drop, List.drop_left' (hf x), ih (Nat.lt_of_succ_lt_succ hj)]
      rfl

theorem length_flatMap_const {α β : Type} {f : α → List β} {w : Nat} (hf : ∀ x, (f x).length = w) (xs : List α) :
    (xs.flatMap f).length = w * xs.length := by
  simp [List.length_flatMap, hf, Nat.mul_comm]

/-! ## Runs of stored bytes -/

theorem storeBytes_append (a : Nat) (bs cs : List Byte) (s : State) :
    (storeBytes a (bs ++ cs)).run s = (storeBytes (a + bs.length) cs).run ((storeBytes a bs).run s) := by
  induction bs generalizing a s with
  | nil => rfl
  | cons b bs ih =>
    rw [List.cons_append, storeBytes, run_seq, ih, storeBytes, run_seq, List.length_cons, Nat.add_assoc, Nat.add_comm 1]

/-- What a store leaves in memory depends on memory alone. -/
theorem storeBytes_mem_congr {s t : State} (h : s.mem = t.mem) (a : Nat) (bs : List Byte) :
    ((storeBytes a bs).run s).mem = ((storeBytes a bs).run t).mem := by
  induction bs generalizing a s t with
  | nil => exact h
  | cons b bs ih => exact ih (congrArg (fun m => writeByte m a b) h) (a + 1)

/-- A part of the stored bytes reads back. -/
theorem bytesAt_storeBytes_part {s : State} (h : Memory.wf s.mem) (a : Nat) {bs : List Byte} {i n : Nat} (hi : i + n ≤ bs.length) :
    ((storeBytes a bs).run s).bytesAt (a + i) n = (bs.drop i).take n := by
  refine List.ext_getElem (by simp [State.bytesAt]; omega) fun k hk _ => ?_
  have hk : k < n := by simpa [State.bytesAt] using hk
  have hin : i + k < bs.length := by omega
  simp [State.bytesAt, readByte_storeBytes h, Nat.add_assoc, hin]

/-! ## Writes of an operand store (R93, R95) -/

/-- An effect that stores a byte or marks a word. -/
def Eff.isStore (e : Eff) : Bool :=
  match e with
  | .store _ _ => true
  | .poisonWords _ _ => true
  | _ => false

/-- Such effects leave every field but memory and the marks. -/
theorem run_isStore {p : Prog} (h : p.Every fun e => e.isStore = true) (s : State) :
    ∃ m w, p.run s = { s with mem := m, poisonWords := w } :=
  run_rel (R := fun s t => ∃ m w, t = { s with mem := m, poisonWords := w }) (fun s => ⟨s.mem, s.poisonWords, rfl⟩)
    (by rintro s _ _ ⟨m, w, rfl⟩ ⟨m', w', rfl⟩; exact ⟨m', w', rfl⟩) h
    (fun e s he => by
      cases e with
      | store a b => exact ⟨_, s.poisonWords, rfl⟩
      | poisonWords k v => exact ⟨s.mem, _, rfl⟩
      | _ => exact Bool.noConfusion he) s

theorem every_storeBytes_isStore (a : Nat) (bs : List Byte) : (storeBytes a bs).Every fun e => e.isStore = true := by
  induction bs generalizing a with
  | nil => trivial
  | cons b bs ih => exact ⟨rfl, ih (a + 1)⟩

theorem every_storeMarks (m off len : Nat) (poison keepLast : Bool) {P : Eff → Prop} (h : ∀ k v, P (.poisonWords k v)) :
    (storeMarks m off len poison keepLast).Every P := by
  simp [storeMarks, h]

theorem every_storeWrite (m off : Nat) (bs : List Byte) (poison : Bool) :
    (storeWrite m off bs poison).Every fun e => e.isStore = true :=
  ⟨every_storeBytes_isStore _ _, every_storeMarks _ _ _ _ _ fun _ _ => rfl⟩

theorem every_drainWrite (m off : Nat) (bs : List Byte) (poison : Bool) :
    (drainWrite m off bs poison).Every fun e => e.isStore = true :=
  ⟨every_storeBytes_isStore _ _, every_storeMarks _ _ _ _ _ fun _ _ => rfl⟩

theorem storeMarks_mem (m off len : Nat) (poison keepLast : Bool) (s : State) :
    ((storeMarks m off len poison keepLast).run s).mem = s.mem :=
  run_keeps (g := State.mem) (every_storeMarks m off len poison keepLast (P := fun e => e.field ≠ .mem) (by simp))
    (fun _ s he => Eff.keeps_mem he s) s

/-- A write of an operand store leaves its bytes there, and changes memory nowhere else. -/
theorem storeWrite_stores {s : State} (h : Memory.wf s.mem) (m off : Nat) (bs : List Byte) (poison : Bool) :
    ∃ M W, (storeWrite m off bs poison).run s = { s with mem := M, poisonWords := W } ∧
      ({ s with mem := M } : State).bytesAt (storeAddr m off) bs.length = bs ∧
      ∀ a, a < storeAddr m off ∨ storeAddr m off + bs.length ≤ a → readByte M a = readByte s.mem a := by
  obtain ⟨M, W, hrun⟩ := run_isStore (every_storeWrite m off bs poison) s
  have hM : M = ((storeBytes (storeAddr m off) bs).run s).mem :=
    (congrArg State.mem hrun).symm.trans (storeMarks_mem ..)
  refine ⟨M, W, hrun, ?_, fun a ha => ?_⟩
  · exact (bytesAt_of_mem hM _ _).trans (bytesAt_storeBytes h _ _)
  · rw [hM, readByte_storeBytes h, if_neg (by omega)]

/-! ## Counters of a site (R83) -/

theorem regAt_bump {s : State} (h : s.Sorted) (w i j d k : Nat) :
    ((bump w i j d).run s).regAt k = if k = rk i j then satAdd w (s.reg i j) d else s.regAt k := regAt_regs h ..

theorem regAt_siteCount64 {s : State} (h : s.Sorted) (n j d k : Nat) :
    ((siteCount64 n j d).run s).regAt k =
      if k = rk (0x3000 + n) j ∧ 0 < d then satAdd 64 (s.reg (0x3000 + n) j) d else s.regAt k := by
  rw [siteCount64, run_whenP]
  by_cases hd : 0 < d
  · simp only [hd, decide_true, if_true, and_true]; exact regAt_bump h ..
  · simp [hd]

theorem siteCount64_frame (n j d : Nat) (s : State) : ∃ R, (siteCount64 n j d).run s = { s with regs := R } := by
  rw [siteCount64, run_whenP]
  split
  · exact ⟨_, rfl⟩
  · exact ⟨s.regs, rfl⟩

/-! ## OPERAND_STORE_WRITE (R93, R94) -/

/-- Bytes for open lines are stored, and a conflict with the array's access of their bank counts. -/
theorem storeBytesProg_stores {s : State} (hs : s.Sorted) (h : Memory.wf s.mem) {n m : Nat} {w : StoreWrite} {bs : List Byte}
    (hopen : s.writeLocked n w.offset bs.length = none) (poison : Bool) (back : Prog) :
    ∃ R M W, (storeBytesProg n m w bs poison back).run s = { s with regs := R, mem := M, poisonWords := W } ∧
      ({ s with mem := M } : State).bytesAt (storeAddr m w.offset) bs.length = bs ∧
      (∀ a, a < storeAddr m w.offset ∨ storeAddr m w.offset + bs.length ≤ a → readByte M a = readByte s.mem a) ∧
      ∀ k, ({ s with regs := R } : State).regAt k =
        if k = rk (0x3000 + n) 0x3A ∧ w.conflict = true then satAdd 32 (s.reg (0x3000 + n) 0x3A) 1 else s.regAt k := by
  obtain ⟨R, hcount, hreg⟩ : ∃ R, (whenP w.conflict (count32 (0x3000 + n) 0x3A 1)).run s = { s with regs := R } ∧
      ∀ k, ({ s with regs := R } : State).regAt k =
        if k = rk (0x3000 + n) 0x3A ∧ w.conflict = true then satAdd 32 (s.reg (0x3000 + n) 0x3A) 1 else s.regAt k := by
    rw [run_whenP]
    cases w.conflict with
    | false => exact ⟨s.regs, rfl, fun k => by simp [State.regAt]⟩
    | true => exact ⟨_, rfl, fun k => by simp only [and_true]; exact regAt_bump hs 32 _ _ 1 k⟩
  obtain ⟨M, W, hstore, hbytes, hframe⟩ := storeWrite_stores (s := { s with regs := R }) h m w.offset bs poison
  refine ⟨R, M, W, ?_, hbytes, hframe, hreg⟩
  simp only [storeBytesProg, run_look, hopen, run_all_cons, run_all_nil, hcount, hstore]

theorem bondOf_takeIn {s : State} (h : Tab.Canon (fun _ => ({} : BondTile)) s.bond) (n k m j : Nat) :
    ((takeIn n k m).run s).bondOf j = if j = n then
      { s.bondOf n with engineIn := (s.bondOf n).engineIn.set k ((s.engineIn n k).drop m) } else s.bondOf j :=
  Tab.get_set h.1 ..

/-- A write that a route brings takes the oldest transfer of its engine input (DESIGN CHOICE, notes/assumptions/108.md). -/
theorem operandStoreWrite_bond {s : State} (hs : s.Canonical) {n : Site} {l : Nat} {w : StoreWrite} {k : Fin 4} {x : Transfer}
    (hl : s.tileOf n = some l) (hm : tileType l = 0) (hh : (s.mtile n).halted = false) (hw : w.bond = some k)
    (hx : (s.engineIn n k).head? = some x) (hopen : s.writeLocked n w.offset 64 = none) :
    ∃ t, exec (.operandStoreWrite n w) s = .next t ∧ t.bytesAt (storeAddr (mIndex l) w.offset) 64 = x.bytes ∧
      (∀ a, a < storeAddr (mIndex l) w.offset ∨ storeAddr (mIndex l) w.offset + 64 ≤ a → readByte t.mem a = readByte s.mem a) ∧
      t.bondOf n = { s.bondOf n with engineIn := (s.bondOf n).engineIn.set k ((s.engineIn n k).drop 1) } ∧
      (∀ m, m ≠ n.val → t.bondOf m = s.bondOf m) ∧
      t.reg (0x3000 + n) 0x3A = (if w.conflict then satAdd 32 (s.reg (0x3000 + n) 0x3A) 1 else s.reg (0x3000 + n) 0x3A) ∧
      t = { s with regs := t.regs, mem := t.mem, poisonWords := t.poisonWords, bond := t.bond } ∧
      ∀ j, j ≠ rk (0x3000 + n) 0x3A → t.regAt j = s.regAt j := by
  have hlen : x.bytes.length = 64 := toBytes_length ..
  have hopen' : ((takeIn n k 1).run s).writeLocked n w.offset x.bytes.length = none := by rw [hlen]; exact hopen
  obtain ⟨R, M, W, hrun, hbytes, hframe, hreg⟩ :=
    storeBytesProg_stores (s := (takeIn n k 1).run s) (m := mIndex l) hs.regs hs.mem hopen' x.poison .skip
  have hbond := bondOf_takeIn hs.bond n k 1
  have hexec : (storeWriteProg n w).run s =
      { (takeIn n k 1).run s with regs := R, mem := M, poisonWords := W } := by
    rw [← hrun]
    simp [storeWriteProg, hl, hm, hh, hw, hx]
  rw [hlen] at hbytes hframe
  refine ⟨_, congrArg Host.Outcome.next hexec, hbytes, hframe, (hbond n).trans (if_pos rfl),
    fun j hj => (hbond j).trans (if_neg hj), ?_, rfl, fun j hj => ?_⟩
  · exact (hreg _).trans (by simp only [true_and]; rfl)
  · exact (hreg j).trans (if_neg fun hk => hj hk.1)

/-- A write that Mortar brings stores its bytes (R93). -/
theorem operandStoreWrite_mortar {s : State} (hs : s.Canonical) {n : Site} {l : Nat} {w : StoreWrite}
    (hl : s.tileOf n = some l) (hm : tileType l = 0) (hh : (s.mtile n).halted = false) (hw : w.bond = none)
    (hopen : s.writeLocked n w.offset w.bytes.length = none) :
    ∃ t, exec (.operandStoreWrite n w) s = .next t ∧ t.bytesAt (storeAddr (mIndex l) w.offset) w.bytes.length = w.bytes ∧
      (∀ a, a < storeAddr (mIndex l) w.offset ∨ storeAddr (mIndex l) w.offset + w.bytes.length ≤ a →
        readByte t.mem a = readByte s.mem a) ∧
      t.reg (0x3000 + n) 0x3A = (if w.conflict then satAdd 32 (s.reg (0x3000 + n) 0x3A) 1 else s.reg (0x3000 + n) 0x3A) ∧
      t = { s with regs := t.regs, mem := t.mem, poisonWords := t.poisonWords } ∧
      ∀ k, k ≠ rk (0x3000 + n) 0x3A → t.regAt k = s.regAt k := by
  obtain ⟨R, M, W, hrun, hbytes, hframe, hreg⟩ := storeBytesProg_stores (m := mIndex l) hs.regs hs.mem hopen w.poison
    (returnPacketTo (storePacket n (mIndex l) w) 2 n)
  have hexec : (storeWriteProg n w).run s = { s with regs := R, mem := M, poisonWords := W } := by
    rw [← hrun]
    simp [storeWriteProg, hl, hm, hh, hw]
  refine ⟨_, congrArg Host.Outcome.next hexec, hbytes, hframe, ?_, rfl, fun j hj => ?_⟩
  · exact (hreg _).trans (by simp only [true_and]; rfl)
  · exact (hreg j).trans (if_neg fun hk => hj hk.1)

/-! ## DRAIN_ROW (R90, R96, R97) -/

theorem storeAddr_add (m o d : Nat) : storeAddr m o + d = storeAddr m (o + d) := Nat.add_assoc ..

/-- Elements drained one after the other leave in memory what one store of all their bytes does. -/
theorem eachP_drainWrite_mem (m off w r k : Nat) (xs : List (Nat × Bool)) (s : State) :
    ((eachP (xs.zip (List.range' k xs.length)) fun p =>
        drainWrite m (off + w * (r + p.2)) (toBytes w p.1.1) p.1.2).run s).mem =
      ((storeBytes (storeAddr m (off + w * (r + k))) (xs.flatMap fun x => toBytes w x.1)).run s).mem := by
  induction xs generalizing k s with
  | nil => rfl
  | cons x xs ih =>
    have hnext : storeAddr m (off + w * (r + k)) + w = storeAddr m (off + w * (r + (k + 1))) := by
      rw [storeAddr_add, ← Nat.add_assoc r, Nat.mul_succ, Nat.add_assoc]
    rw [List.length_cons, List.range'_succ, List.zip_cons_cons, run_eachP_cons, ih, List.flatMap_cons, storeBytes_append,
      toBytes_length, hnext]
    exact storeBytes_mem_congr (storeMarks_mem ..) _ _

/-- A row of elements that goes to the operand store stands there in column order; memory changes nowhere else. -/
theorem drainElements_stores {s : State} (h : Memory.wf s.mem) (n m w : Nat) {ws : List Nat} (hdst : mrDst ws = 4) (i : Nat)
    (xs : List (Nat × Bool)) :
    ∃ M W, (drainElements n m w ws i xs).run s = { s with mem := M, poisonWords := W } ∧
      (∀ j (hj : j < xs.length), ({ s with mem := M } : State).bytesAt
        (storeAddr m (64 * mrOutLine ws + w * (i * mrN ws + j))) w = toBytes w xs[j].1) ∧
      ∀ a, a < storeAddr m (64 * mrOutLine ws + w * (i * mrN ws)) ∨
        storeAddr m (64 * mrOutLine ws + w * (i * mrN ws)) + w * xs.length ≤ a → readByte M a = readByte s.mem a := by
  have hlen := length_flatMap_const (f := fun x : Nat × Bool => toBytes w x.1) (fun x => toBytes_length w x.1) xs
  rw [drainElements, if_pos hdst, List.range_eq_range']
  obtain ⟨M, W, hrun⟩ := run_isStore (every_eachP.mpr fun (p : (Nat × Bool) × Nat) _ => every_drainWrite m
    (64 * mrOutLine ws + w * (i * mrN ws + p.2)) (toBytes w p.1.1) p.1.2) s
  have hmem : M = ((storeBytes (storeAddr m (64 * mrOutLine ws + w * (i * mrN ws))) (xs.flatMap fun x => toBytes w x.1)).run s).mem :=
    (congrArg State.mem hrun).symm.trans (eachP_drainWrite_mem m (64 * mrOutLine ws) w (i * mrN ws) 0 xs s)
  refine ⟨M, W, hrun, fun j hj => (bytesAt_of_mem hmem ..).trans ?_, fun a ha => (congrArg (readByte · a) hmem).trans ?_⟩
  · have haddr : storeAddr m (64 * mrOutLine ws + w * (i * mrN ws + j)) =
        storeAddr m (64 * mrOutLine ws + w * (i * mrN ws)) + w * j := by rw [storeAddr_add, Nat.mul_add, Nat.add_assoc]
    have hfit : w * j + w ≤ w * xs.length := Nat.mul_le_mul_left w hj
    rw [haddr, bytesAt_storeBytes_part h _ (hlen ▸ hfit), take_drop_flatMap (fun x => toBytes_length w x.1) hj]
  · rw [readByte_storeBytes h, hlen, if_neg (by omega)]

theorem mtile_modM {s : State} (h : Tab.Canon (fun _ => ({} : MTile)) s.mtiles) (n : Nat) (f : MTile → MTile) (j : Nat) :
    ((modM n f).run s).mtile j = if j = n then f (s.mtile n) else s.mtile j := Tab.get_set h.1 ..

/-- The tile once the oldest draining operation, of `rows` rows, has drained a row. -/
def MTile.rowDrained (rows : Nat) (x : MTile) : MTile := { x with drains := match x.drains with
  | [] => []
  | d :: ds => if d.row + 1 < rows then { d with row := d.row + 1 } :: ds else ds }

theorem drainValues_of_ungated {o : MOp} (hg : mrGate o.words = false) (s : State) (n i : Nat) :
    s.drainValues n o i = (List.range (mrN o.words)).map fun j => s.accAt (accKey n o i j) := by
  simp [State.drainValues, rowGated, hg]

/-- The only draining operation's next row leaves raw for the store. -/
theorem run_drainRowProg_raw {s : State} {n : Nat} {r : RunTile} {l : Nat} {o : MOp} (hr : s.active n = some r)
    (hl : s.tileOf n = some l) (hm : tileType l = 0) (hd : (s.mtile n).drains = [o]) (hh : (s.mtile n).halted = false)
    (hdis : (s.mtile n).dispute = none) (hout : mrOut o.words = 1) (hdst : mrDst o.words = 4) (stall : Nat) :
    (drainRowProg n stall).run s = (modM n (MTile.rowDrained (mrM o.words))).run ((siteCount64 n 0x33 stall).run
      ((drainRaw n (mIndex l) o.words o.row (s.drainValues n o o.row)).run s)) := by
  simp only [drainRowProg, run_look, hr, hl, hm, hd, hh, hdis, hout, hdst, Option.isSome_none, Bool.false_and, Bool.not_false,
    beq_self_eq_true, Bool.true_or, Bool.and_self, run_whenP, if_true]
  rfl

theorem drainRow_drains {s : State} (hs : s.Canonical) {n : Site} {r : RunTile} {l : Nat} {o : MOp} (hr : s.active n = some r)
    (hl : s.tileOf n = some l) (hm : tileType l = 0) (hd : (s.mtile n).drains = [o]) (hh : (s.mtile n).halted = false)
    (hdis : (s.mtile n).dispute = none) (hout : mrOut o.words = 1) (hdst : mrDst o.words = 4) (hg : mrGate o.words = false)
    (hrow : o.row + 1 < mrM o.words) (stall : Nat) : ∃ t, exec (.drainRow n stall) s = .next t ∧
      (∀ j, j < mrN o.words → t.load (storeAddr (mIndex l) (64 * mrOutLine o.words + 4 * (o.row * mrN o.words + j))) 4 =
        (s.accAt (accKey n o o.row j)).val.toNat) ∧
      (∀ a, a < storeAddr (mIndex l) (64 * mrOutLine o.words + 4 * (o.row * mrN o.words)) ∨
        storeAddr (mIndex l) (64 * mrOutLine o.words + 4 * (o.row * mrN o.words)) + 4 * mrN o.words ≤ a →
        readByte t.mem a = readByte s.mem a) ∧
      t.mtile n = { s.mtile n with drains := [{ o with row := o.row + 1 }] } ∧ (∀ m, m ≠ n.val → t.mtile m = s.mtile m) ∧
      t = { s with regs := t.regs, mem := t.mem, poisonWords := t.poisonWords, mtiles := t.mtiles } ∧
      ∀ k, k ≠ rk (0x3000 + n) 0x33 → t.regAt k = s.regAt k := by
  obtain ⟨M, W, hstore, hbytes, hframe⟩ := drainElements_stores hs.mem n (mIndex l) 4 hdst o.row
    ((s.drainValues n o o.row).map fun v => (v.val.toNat, v.poison))
  have hreg := regAt_siteCount64 (s := { s with mem := M, poisonWords := W }) hs.regs n 0x33 stall
  obtain ⟨R, hcount⟩ := siteCount64_frame n 0x33 stall { s with mem := M, poisonWords := W }
  have hexec := run_drainRowProg_raw hr hl hm hd hh hdis hout hdst stall
  rw [drainRaw, hstore, hcount] at hexec
  rw [hcount] at hreg
  have htile := mtile_modM (s := { s with regs := R, mem := M, poisonWords := W }) hs.mtiles n (MTile.rowDrained (mrM o.words))
  have hnext : MTile.rowDrained (mrM o.words) (s.mtile n) = { s.mtile n with drains := [{ o with row := o.row + 1 }] } := by
    simp [MTile.rowDrained, hd, hrow]
  rw [drainValues_of_ungated hg] at hbytes hframe
  simp only [List.length_map, List.length_range] at hbytes hframe
  refine ⟨_, congrArg Host.Outcome.next hexec, fun j hj => ?_, hframe, (htile n).trans ((if_pos rfl).trans hnext),
    fun m hm => (htile m).trans (if_neg hm), rfl, fun k hk => (hreg k).trans (if_neg fun h => hk h.1)⟩
  refine (congrArg ofBytes (hbytes j hj)).trans ?_
  rw [ofBytes_toBytes, List.getElem_map, List.getElem_map, List.getElem_range]
  exact Nat.mod_eq_of_lt (BitVec.isLt _)

/-! ## What leaves tiles alone -/

theorem Eff.keeps_acc {e : Eff} (h : e.field ≠ .acc) (s : State) : (e.apply s).acc = s.acc := by
  cases e <;> first | rfl | exact absurd rfl h

/-- Effects that leave memory, accumulators, M-tiles, contexts and the scalars of sites, objects 0x3000 up, but for those of the
keys `ks`. -/
def Eff.sparesTiles (ks : List Nat) (e : Eff) : Bool :=
  decide (e.field ∉ [Field.mem, .acc, .mtiles, .ctxs]) && match e with
    | .regs k _ => decide (k < 0x300000 ∨ k ∈ ks)
    | .dropRegs _ _ => false
    | _ => true

/-- What such effects relate. -/
structure TilesSpared (ks : List Nat) (s t : State) : Prop where
  mem : t.mem = s.mem
  acc : t.acc = s.acc
  mtiles : t.mtiles = s.mtiles
  ctxs : t.ctxs = s.ctxs
  reg : ∀ k, 0x300000 ≤ k → k ∉ ks → t.regAt k = s.regAt k

theorem TilesSpared.refl (ks : List Nat) (s : State) : TilesSpared ks s s := ⟨rfl, rfl, rfl, rfl, fun _ _ _ => rfl⟩

theorem TilesSpared.trans {ks : List Nat} (s m t : State) (h1 : TilesSpared ks s m) (h2 : TilesSpared ks m t) :
    TilesSpared ks s t :=
  ⟨h2.mem.trans h1.mem, h2.acc.trans h1.acc, h2.mtiles.trans h1.mtiles, h2.ctxs.trans h1.ctxs,
    fun k hk hks => (h2.reg k hk hks).trans (h1.reg k hk hks)⟩

@[simp] theorem sparesTiles_regs (ks : List Nat) (k v : Nat) :
    (Eff.regs k v).sparesTiles ks = decide (k < 0x300000 ∨ k ∈ ks) := rfl

@[simp] theorem Eff.sparesTiles_of_field {ks : List Nat} {e : Eff} (h : e.field ∉ [Field.regs, .mem, .acc, .mtiles, .ctxs]) :
    e.sparesTiles ks = true := by
  obtain ⟨hr, hf⟩ := not_or.mp (mt List.mem_cons.mpr h)
  cases e <;> first
    | exact absurd rfl hr
    | exact Bool.and_eq_true_iff.mpr ⟨decide_eq_true hf, rfl⟩

theorem apply_tilesSpared {ks : List Nat} (e : Eff) (s : State) (h : e.sparesTiles ks = true) : TilesSpared ks s (e.apply s) := by
  obtain ⟨hf, hk⟩ := Bool.and_eq_true_iff.mp h
  have hf := of_decide_eq_true hf
  simp only [List.mem_cons, List.not_mem_nil, or_false, not_or] at hf
  obtain ⟨hmem, hacc, hmtiles, hctxs⟩ := hf
  refine ⟨Eff.keeps_mem hmem s, Eff.keeps_acc hacc s, Eff.keeps_mtiles hmtiles s, Eff.keeps_ctxs hctxs s, fun k hle hks => ?_⟩
  cases e with
  | regs j v =>
    refine get_set_ne _ _ _ _ _ _ ?_
    rintro rfl
    exact (of_decide_eq_true hk).elim (Nat.not_lt.mpr hle) hks
  | dropRegs lo hi => exact Bool.noConfusion hk
  | _ => rfl

theorem run_tilesSpared {ks : List Nat} {p : Prog} (h : p.Every fun e => e.sparesTiles ks = true) (s : State) :
    TilesSpared ks s (p.run s) :=
  run_rel (TilesSpared.refl ks) TilesSpared.trans h apply_tilesSpared s

theorem sparesTiles_of_isReport {ks : List Nat} (e : Eff) (h : e.isReport = true) : e.sparesTiles ks = true := by
  have hkeys : ∀ k ∈ reportKeys, k < 0x300000 := by decide
  cases e with
  | regs k v => exact decide_eq_true (.inl (hkeys k (List.contains_iff_mem.mp h)))
  | _ => first
    | rfl
    | exact Bool.noConfusion h

@[simp] theorem every_report_sparesTiles (ks : List Nat) (code kind num a1 a2 : Nat) :
    (report code kind num a1 a2).Every fun e => e.sparesTiles ks = true :=
  every_mono sparesTiles_of_isReport (every_report code kind num a1 a2)

@[simp] theorem every_setReg_sparesTiles (ks : List Nat) {idx sub v : Nat} (h : rk idx sub < 0x300000 ∨ rk idx sub ∈ ks) :
    (setReg idx sub v).Every fun e => e.sparesTiles ks = true := decide_eq_true h

theorem every_siteCount64_sparesTiles {ks : List Nat} {n j : Nat} (h : rk (0x3000 + n) j ∈ ks) (d : Nat) :
    (siteCount64 n j d).Every fun e => e.sparesTiles ks = true := by
  simp [siteCount64, count64, bump, h]

theorem every_count32_sparesTiles {ks : List Nat} {i j : Nat} (h : rk i j ∈ ks) (d : Nat) :
    (count32 i j d).Every fun e => e.sparesTiles ks = true := by
  simp [count32, bump, h]

theorem every_addEvidence_sparesTiles (ks : List Nat) : addEvidence.Every fun e => e.sparesTiles ks = true := by
  simp [addEvidence, show rk 0x2530 0x04 < 0x300000 by decide]

theorem every_wantFence_sparesTiles (ks : List Nat) (f : FenceReq) : (wantFence f).Every fun e => e.sparesTiles ks = true := by
  simp only [wantFence, every_look, every_whenP]
  intro s _
  split
  · simp [holdFence, reportRegions, show rk 0x2420 0x03 < 0x300000 by decide]
  · simp

theorem every_policyFence_sparesTiles (ks : List Nat) (n k : Nat) : (policyFence n k).Every fun e => e.sparesTiles ks = true := by
  simp [policyFence, decisionNeeded, every_wantFence_sparesTiles, show rk 0x2500 0x07 < 0x300000 by decide,
    show rk 0x2500 0x08 < 0x300000 by decide]

/-! ## VERDICT_APPLY (R102) -/

/-- Accumulators written one by one, at keys that differ, each hold their own word; the others stay. -/
theorem eachP_acc_writes {α : Type} {xs : List α} {key : α → Nat} (hkey : (xs.map key).Nodup) (val : α → FWord) {s : State}
    (h : Tab.Canon (fun _ => ({} : FWord)) s.acc) :
    ∃ A, (eachP xs fun x => .eff (.acc (key x) (val x))).run s = { s with acc := A } ∧
      (∀ x ∈ xs, ({ s with acc := A } : State).accAt (key x) = val x) ∧
      ∀ k, (∀ x ∈ xs, k ≠ key x) → ({ s with acc := A } : State).accAt k = s.accAt k := by
  induction xs generalizing s with
  | nil => exact ⟨s.acc, rfl, by simp, fun _ _ => rfl⟩
  | cons x xs ih =>
    obtain ⟨hx, hkey⟩ := List.nodup_cons.mp hkey
    have hfirst : ∀ k, ((Eff.acc (key x) (val x)).apply s).accAt k = if k = key x then val x else s.accAt k :=
      fun k => Tab.get_set h.1 ..
    obtain ⟨A, hrun, hhas, hkeeps⟩ := ih hkey (s := (Eff.acc (key x) (val x)).apply s) (Tab.canon_set h _ _)
    refine ⟨A, hrun, fun y hy => ?_, fun k hk => ?_⟩
    · rcases List.mem_cons.mp hy with rfl | hy
      · have hnew : ∀ z ∈ xs, key y ≠ key z := fun z hz he => hx (he ▸ List.mem_map_of_mem hz)
        exact (hkeeps _ hnew).trans ((hfirst _).trans (if_pos rfl))
      · exact hhas y hy
    · exact (hkeeps k fun z hz => hk z (List.mem_cons_of_mem _ hz)).trans
        ((hfirst k).trans (if_neg (hk x List.mem_cons_self)))

/-- Nothing leaves an array that holds no operation. -/
theorem run_finishArray_of_idle {s : State} {n : Nat} (h : (s.mtile n).cur = none) (m c : Nat) : (finishArray n m c).run s = s := by
  simp [finishArray, h]

/-- The word that a verdict commits for a disputed row. -/
def DisputeRow.committed (v : Verdict) (r : DisputeRow) : FWord :=
  { val := if v = .main then r.mainAcc else r.checkAcc, poison := r.poison }

/-- The place of a disputed row's accumulator. -/
def Dispute.key (n : Nat) (d : Dispute) (r : DisputeRow) : Nat := accKey n { words := d.words, bank := d.bank } r.row d.col

theorem nodup_disputeKeys {d : Dispute} (h : (d.rows.map fun r => r.row).Nodup) (n : Nat) :
    ((d.rows.filter fun r => decide (r.row < mrM d.words)).map (d.key n)).Nodup := by
  have hrows := h.sublist ((List.filter_sublist (p := fun r => decide (r.row < mrM d.words))).map _)
  rw [List.Nodup, List.pairwise_map] at hrows ⊢
  refine hrows.imp fun hne he => hne ?_
  simp only [Dispute.key, accKey] at he
  omega

/-- The effects of a verdict on the accumulators of the disputed rows. -/
def commitRows (n : Nat) (d : Dispute) (v : Verdict) : Prog :=
  eachP (d.rows.filter fun r => decide (r.row < mrM d.words)) fun r => .eff (.acc (d.key n r) (r.committed v))

/-- The program of a verdict for the main array or the checker. -/
theorem applyVerdict_of_resolved {v : Verdict} (hv : v ≠ .unresolved) (n hold : Nat) :
    applyVerdict n v hold = .look fun s => withP (s.mtile n).dispute fun d => whenP (d.verdict == some v) (all [
      commitRows n d v,
      .skip,
      modM n fun t => { t with dispute := none },
      siteCount64 n 0x36 hold,
      report 0x7402 0 n n (verdictCode v),
      withP (s.tileOf n) fun l => finishArray n (mIndex l) d.ctx,
      .skip]) := by
  cases v with
  | main => rfl
  | checker => rfl
  | unresolved => exact absurd rfl hv

/-- A verdict for one of the arrays where no operation waits in the array for the dispute's end. -/
theorem run_applyVerdict {s : State} (hs : Tab.Canon (fun _ => ({} : MTile)) s.mtiles) {n : Nat} {d : Dispute} {v : Verdict}
    (hdis : (s.mtile n).dispute = some d) (hd : d.verdict = some v) (hv : v ≠ .unresolved) (hcur : (s.mtile n).cur = none)
    (hold : Nat) :
    (applyVerdict n v hold).run s = (report 0x7402 0 n n (verdictCode v)).run ((siteCount64 n 0x36 hold).run
      ((modM n fun t => { t with dispute := none }).run ((commitRows n d v).run s))) := by
  have hacc : ((commitRows n d v).run s).mtiles = s.mtiles :=
    run_keeps (g := State.mtiles) (P := fun e => e.field ≠ .mtiles) (by simp [commitRows]) (fun _ s he => Eff.keeps_mtiles he s) s
  simp only [applyVerdict_of_resolved hv, run_look, hdis, run_withP_some, hd, beq_self_eq_true, run_whenP, if_true, run_all_cons,
    run_all_nil, run_skip]
  generalize (commitRows n d v).run s = u at hacc ⊢
  have hidle : (((modM n fun t => { t with dispute := none }).run u).mtile n).cur = none := by
    rw [mtile_modM (hacc ▸ hs), if_pos rfl]
    exact (congrArg (fun m => (Tab.get ({} : MTile) m n).cur) hacc).trans hcur
  have hcounted : (all [siteCount64 n 0x36 hold, report 0x7402 0 n n (verdictCode v)]).Every fun e =>
      e.sparesTiles [rk (0x3000 + n) 0x36] = true := by simp [every_siteCount64_sparesTiles]
  have hends := (run_tilesSpared hcounted ((modM n fun t => { t with dispute := none }).run u)).mtiles
  cases s.tileOf n with
  | none => rfl
  | some l => exact run_finishArray_of_idle ((congrArg (fun m => (Tab.get ({} : MTile) m n).cur) hends).trans hidle) ..

/-- A delivered verdict commits the values of its array and ends the dispute. -/
theorem verdictApply_commits {s : State} (hs : s.Canonical) {n : Site} {d : Dispute} {v : Verdict}
    (hdis : (s.mtile n).dispute = some d) (hd : d.verdict = some v) (hv : v ≠ .unresolved) (hcur : (s.mtile n).cur = none) (hrows : (d.rows.map fun r => r.row).Nodup)
    (hold : Nat) : ∃ t, exec (.verdictApply n v hold) s = .next t ∧ t.mtile n = { s.mtile n with dispute := none } ∧
      (∀ r ∈ d.rows, r.row < mrM d.words → t.accAt (d.key n r) = r.committed v) ∧
      (∀ k, (∀ r ∈ d.rows, k ≠ d.key n r) → t.accAt k = s.accAt k) ∧
      (∀ m, m ≠ n.val → t.mtile m = s.mtile m) ∧ t = { s.reported t with acc := t.acc, mtiles := t.mtiles } ∧
      s.scalarsBut [rk (0x3000 + n) 0x36] t := by
  obtain ⟨A, hacc, hhas, hkeeps⟩ := eachP_acc_writes (nodup_disputeKeys hrows n) (DisputeRow.committed v) hs.acc
  have htile := mtile_modM (s := { s with acc := A }) hs.mtiles n fun t => { t with dispute := none }
  have hreg := regAt_siteCount64 (s := (modM n fun t => { t with dispute := none }).run { s with acc := A }) hs.regs n 0x36 hold
  obtain ⟨R, hcount⟩ := siteCount64_frame n 0x36 hold ((modM n fun t => { t with dispute := none }).run { s with acc := A })
  obtain ⟨u, hreport, hkept⟩ := report_reported 0x7402 0 n n (verdictCode v)
    { (modM n fun t => { t with dispute := none }).run { s with acc := A } with regs := R }
  have hexec := run_applyVerdict hs.mtiles hdis hd hv hcur hold
  rw [commitRows, hacc, hcount, hreport] at hexec
  rw [hcount] at hreg
  refine ⟨_, congrArg Host.Outcome.next hexec, (htile n).trans (if_pos rfl),
    fun r hr hlt => hhas r (List.mem_filter.mpr ⟨hr, decide_eq_true hlt⟩),
    fun k hk => hkeeps k fun r hr => hk r (List.mem_filter.mp hr).1, fun m hm => (htile m).trans (if_neg hm), rfl,
    fun k hk hrep => ?_⟩
  have hk : k ≠ rk (0x3000 + n) 0x36 := by simpa using hk
  exact (hkept k hrep).trans ((hreg k).trans (if_neg fun h => hk h.1))

/-! ## SEQUENCER_MISMATCH (R105, R106, R374) -/

theorem every_siteFault_sparesTiles {ks : List Nat} {n : Nat} (hcause : rk (0x3000 + n) 0xB4 ∈ ks)
    (hscore : rk (0x3000 + n) 0xB0 ∈ ks) (k w : Nat) : (siteFault n k w).Every fun e => e.sparesTiles ks = true := by
  simp [siteFault, setScore, hcause, hscore, every_addEvidence_sparesTiles, every_wantFence_sparesTiles,
    every_policyFence_sparesTiles]

/-- The key of a scalar of a site is not below those of the sites. -/
theorem le_rk_site (n j : Nat) : 0x300000 ≤ rk (0x3000 + n) j := by unfold rk; omega

/-- A fault of weight `w` raises the score of its site to at most 1000 (R375). -/
theorem reg_siteFault {s : State} (h : s.Sorted) (n k w : Nat) :
    ((siteFault n k w).run s).reg (0x3000 + n) 0xB0 = min 1000 (s.reg (0x3000 + n) 0xB0 + w) := by
  have hrest : ∀ q : Prog, q.Every (fun e => e.sparesTiles [] = true) → ∀ u : State,
      (q.run u).reg (0x3000 + n) 0xB0 = u.reg (0x3000 + n) 0xB0 :=
    fun q hq u => (run_tilesSpared hq u).reg _ (le_rk_site n _) List.not_mem_nil
  simp only [siteFault, run_look, run_all_cons, run_all_nil]
  rw [hrest _ (by simp [every_wantFence_sparesTiles, every_policyFence_sparesTiles])]
  exact (regAt_setScore (run_sorted _ (run_sorted _ h)) n _ _).trans (if_pos rfl)

/-- What a mismatch does to a dispute that it ends: its hold beats count, and no vote on it stays. -/
def abandonDispute (n hold : Nat) : Prog := all [
  siteCount64 n 0x36 hold,
  report 0x7402 0 n n 3,
  withState fun t => .votesWaiting (t.votesWaiting.filter fun m => decide (m ≠ n)),
  withState fun t => .votes (t.votes.filter fun w => decide (w.site ≠ n))]

/-- What a mismatch does once the tile of site `n`, of context `c`, has halted: `held` says that it held a dispute. -/
def afterHalt (n c : Nat) (held : Bool) (hold : Nat) : Prog := all [
  count32 (0x3000 + n) 0x37 1, report 0x7403 0 n c n, whenP held (abandonDispute n hold), siteFault n 1 600]

theorem run_sequencerMismatch {s : State} {n : Nat} (hup : s.sequencersUp n = true) (hh : (s.mtile n).halted = false) (hold : Nat) :
    (sequencerMismatch n hold).run s = (afterHalt n (s.standingCtx n) (s.mtile n).dispute.isSome hold).run
      ((modM n fun t => { t with halted := true, dispute := none }).run s) := by
  simp only [sequencerMismatch, run_look, hup, hh, Bool.not_false, Bool.and_self, run_whenP, if_true]
  rfl

theorem every_abandonDispute_sparesTiles {ks : List Nat} {n : Nat} (h : rk (0x3000 + n) 0x36 ∈ ks) (hold : Nat) :
    (abandonDispute n hold).Every fun e => e.sparesTiles ks = true := by
  simp [abandonDispute, every_siteCount64_sparesTiles h]

/-- The hold beats of a dispute that a mismatch ends count. -/
theorem reg_abandonDispute {s : State} (h : s.Sorted) (n hold : Nat) : ((abandonDispute n hold).run s).reg (0x3000 + n) 0x36 =
    if 0 < hold then satAdd 64 (s.reg (0x3000 + n) 0x36) hold else s.reg (0x3000 + n) 0x36 := by
  have hrest : (all [report 0x7402 0 n n 3, withState fun t => .votesWaiting (t.votesWaiting.filter fun m => decide (m ≠ n)),
      withState fun t => .votes (t.votes.filter fun w => decide (w.site ≠ n))]).Every fun e => e.sparesTiles [] = true := by simp
  refine ((run_tilesSpared hrest _).reg _ (le_rk_site n _) List.not_mem_nil).trans ?_
  rw [regAt_siteCount64 h]
  simp only [true_and]
  rfl

theorem afterHalt_spares (n c : Nat) (held : Bool) (hold : Nat) (s : State) :
    TilesSpared [rk (0x3000 + n) 0x37, rk (0x3000 + n) 0x36, rk (0x3000 + n) 0xB4, rk (0x3000 + n) 0xB0] s
      ((afterHalt n c held hold).run s) :=
  run_tilesSpared (by simp [afterHalt, every_count32_sparesTiles, every_abandonDispute_sparesTiles, every_siteFault_sparesTiles]) s

/-- The mismatch counts. -/
theorem reg_afterHalt_mismatches {s : State} (h : s.Sorted) (n c : Nat) (held : Bool) (hold : Nat) :
    ((afterHalt n c held hold).run s).reg (0x3000 + n) 0x37 = satAdd 32 (s.reg (0x3000 + n) 0x37) 1 := by
  have hrest : (all [report 0x7403 0 n c n, whenP held (abandonDispute n hold), siteFault n 1 600]).Every fun e =>
      e.sparesTiles [rk (0x3000 + n) 0x36, rk (0x3000 + n) 0xB4, rk (0x3000 + n) 0xB0] = true := by
    simp [every_abandonDispute_sparesTiles, every_siteFault_sparesTiles]
  exact ((run_tilesSpared hrest _).reg _ (le_rk_site n _) (by simp [rk])).trans ((regAt_bump h ..).trans (if_pos rfl))

/-- The hold beats count where there was a dispute. -/
theorem reg_afterHalt_holdBeats {s : State} (h : s.Sorted) (n c : Nat) (held : Bool) (hold : Nat) :
    ((afterHalt n c held hold).run s).reg (0x3000 + n) 0x36 =
      if held = true ∧ 0 < hold then satAdd 64 (s.reg (0x3000 + n) 0x36) hold else s.reg (0x3000 + n) 0x36 := by
  have hfirst : (all [count32 (0x3000 + n) 0x37 1, report 0x7403 0 n c n]).Every fun e =>
      e.sparesTiles [rk (0x3000 + n) 0x37] = true := by simp [every_count32_sparesTiles]
  have hlast : (siteFault n 1 600).Every fun e => e.sparesTiles [rk (0x3000 + n) 0xB4, rk (0x3000 + n) 0xB0] = true := by
    simp [every_siteFault_sparesTiles]
  have hbefore : _ = s.reg (0x3000 + n) 0x36 := (run_tilesSpared hfirst s).reg _ (le_rk_site n _) (by simp [rk])
  refine ((run_tilesSpared hlast _).reg _ (le_rk_site n _) (by simp [rk])).trans ?_
  cases held with
  | false => simpa using hbefore
  | true =>
    have habandon := reg_abandonDispute (run_sorted (all [count32 (0x3000 + n) 0x37 1, report 0x7403 0 n c n]) h) n hold
    simp only [State.reg] at habandon hbefore ⊢
    rw [hbefore] at habandon
    simpa using habandon

/-- The suspicion of the site rises by 600. -/
theorem reg_afterHalt_score {s : State} (h : s.Sorted) (n c : Nat) (held : Bool) (hold : Nat) :
    ((afterHalt n c held hold).run s).reg (0x3000 + n) 0xB0 = min 1000 (s.reg (0x3000 + n) 0xB0 + 600) := by
  have hfirst : (all [count32 (0x3000 + n) 0x37 1, report 0x7403 0 n c n, whenP held (abandonDispute n hold)]).Every fun e =>
      e.sparesTiles [rk (0x3000 + n) 0x37, rk (0x3000 + n) 0x36] = true := by
    simp [every_count32_sparesTiles, every_abandonDispute_sparesTiles]
  have hbefore := (run_tilesSpared hfirst s).reg (rk (0x3000 + n) 0xB0) (le_rk_site n _) (by simp [rk])
  have hfault := reg_siteFault (run_sorted _ h) (s := (all [count32 (0x3000 + n) 0x37 1, report 0x7403 0 n c n,
    whenP held (abandonDispute n hold)]).run s) n 1 600
  unfold State.reg at hfault ⊢
  rw [hbefore] at hfault
  exact hfault

/-- A mismatch halts the tile, counts, ends a dispute and raises the site's suspicion. -/
theorem sequencerMismatch_halts {s : State} (hs : s.Canonical) {n : Site} (hup : s.sequencersUp n = true)
    (hh : (s.mtile n).halted = false) (hold : Nat) : ∃ t, exec (.sequencerMismatch n hold) s = .next t ∧
      t.mtile n = { s.mtile n with halted := true, dispute := none } ∧
      t.reg (0x3000 + n) 0x37 = satAdd 32 (s.reg (0x3000 + n) 0x37) 1 ∧
      t.reg (0x3000 + n) 0x36 = (if (s.mtile n).dispute.isSome ∧ 0 < hold then satAdd 64 (s.reg (0x3000 + n) 0x36) hold
        else s.reg (0x3000 + n) 0x36) ∧
      t.reg (0x3000 + n) 0xB0 = min 1000 (s.reg (0x3000 + n) 0xB0 + 600) ∧ (∀ m, m ≠ n.val → t.mtile m = s.mtile m) ∧
      t.mem = s.mem ∧ t.acc = s.acc ∧ t.ctxs = s.ctxs := by
  have hsorted : ((modM n fun t => { t with halted := true, dispute := none }).run s).Sorted := hs.regs
  have hspared := afterHalt_spares n (s.standingCtx n) (s.mtile n).dispute.isSome hold
    ((modM n fun t => { t with halted := true, dispute := none }).run s)
  have htile := fun m => (congrArg (fun x => Tab.get ({} : MTile) x m) hspared.mtiles).trans
    (mtile_modM hs.mtiles n (fun t => { t with halted := true, dispute := none }) m)
  exact ⟨_, congrArg Host.Outcome.next (run_sequencerMismatch hup hh hold), (htile n).trans (if_pos rfl),
    reg_afterHalt_mismatches hsorted .., reg_afterHalt_holdBeats hsorted .., reg_afterHalt_score hsorted ..,
    fun m hm => (htile m).trans (if_neg hm), hspared.mem, hspared.acc, hspared.ctxs⟩

/-- Settles O42: a drained row is one store of all its bytes (`eachP_drainWrite_mem`), the rows of a dispute have keys of their own,
and what follows a halt leaves every tile's state alone; each command has its lemma above. -/
theorem arraysDrainAndDecide : Obligations.ArraysDrainAndDecide := fun _ _ hs =>
  ⟨fun _ _ _ stall hr hl hm hd hh hdis hout hdst hg hrow => drainRow_drains hs hr hl hm hd hh hdis hout hdst hg hrow stall,
    fun _ _ hold hdis hd hv hcur hrows => verdictApply_commits hs hdis hd hv hcur hrows hold,
    fun hold hup hh => sequencerMismatch_halts hs hup hh hold,
    fun _ _ _ _ hl hm hh hw hx hopen => operandStoreWrite_bond hs hl hm hh hw hx hopen,
    fun _ _ hl hm hh hw hopen => operandStoreWrite_mortar hs hl hm hh hw hopen⟩

end Sys2Proof.Machine

/-! SUPPORT. Lane beats and the parts of CAM windows (O41; R124, R127, R128). -/

namespace Sys2Proof.Machine

open Sys2Proof

/-! ## Counts and reports beside the lane beats -/

/-- The scalars that count lane beats and the slots that they consume (R124). -/
def laneKeys : List Nat := [rk 0x2C20 0x03, rk 0x2C20 0x04]

/-- An effect of a report, or on a scalar other than those that count lane beats and slots. -/
def Eff.isCount (e : Eff) : Bool :=
  e.isReport || match e with
    | .regs k _ => decide (k ∉ laneKeys)
    | _ => false

theorem Eff.isCount_regs {k : Nat} (h : k ∉ laneKeys) (v : Nat) : (Eff.regs k v).isCount = true :=
  Bool.or_eq_true_iff.mpr (.inr (decide_eq_true h))

theorem Eff.isCount_of_isReport (e : Eff) (h : e.isReport = true) : e.isCount = true :=
  Bool.or_eq_true_iff.mpr (.inl h)

/-- What such effects relate: a report could write all that they do, and the counts of lane beats and slots stay. -/
def CountStep (s t : State) : Prop := t = s.reported t ∧ ∀ k ∈ laneKeys, t.regAt k = s.regAt k

theorem CountStep.trans (s m t : State) (h1 : CountStep s m) (h2 : CountStep m t) : CountStep s t := by
  refine ⟨?_, fun k hk => (h2.2 k hk).trans (h1.2 k hk)⟩
  have h := h2.1
  rw [h1.1] at h
  exact h

theorem apply_countStep (e : Eff) (s : State) (h : e.isCount = true) : CountStep s (e.apply s) := by
  rcases Bool.or_eq_true_iff.mp h with h | h
  · obtain ⟨hframe, hreg⟩ := apply_reportStep e s h
    have hkeys : ∀ k ∈ laneKeys, k ∉ reportKeys := by decide
    exact ⟨hframe, fun k hk => hreg k (hkeys k hk)⟩
  · cases e with
    | regs k v =>
      refine ⟨rfl, fun j hj => get_set_ne _ _ _ _ _ _ ?_⟩
      rintro rfl
      exact of_decide_eq_true h hj
    | _ => exact Bool.noConfusion h

theorem run_isCount {p : Prog} (h : p.Every fun e => e.isCount = true) (s : State) :
    ∃ u, p.run s = s.reported u ∧ ∀ k ∈ laneKeys, u.regAt k = s.regAt k :=
  ⟨_, run_rel (R := CountStep) (fun _ => ⟨rfl, fun _ _ => rfl⟩) CountStep.trans h apply_countStep s⟩

@[simp] theorem every_reportOnce_isCount (code c site kind num a1 a2 : Nat) :
    (reportOnce code c site kind num a1 a2).Every fun e => e.isCount = true :=
  every_mono Eff.isCount_of_isReport (every_reportOnce code c site kind num a1 a2)

/-- A scalar of a site counts no lane slot of the device. -/
@[simp] theorem rk_site_notMem_laneKeys (n j : Nat) : rk (0x3000 + n) j ∉ laneKeys := by
  simp [laneKeys, rk]
  omega

@[simp] theorem every_bump_isCount {w i j d : Nat} (h : rk i j ∉ laneKeys) : (bump w i j d).Every fun e => e.isCount = true :=
  fun _ => Eff.isCount_regs h _

@[simp] theorem every_siteCount64_isCount (n j d : Nat) : (siteCount64 n j d).Every fun e => e.isCount = true := by
  simp [siteCount64, count64]

@[simp] theorem every_arithEvent_isCount {code idx sub site siteSub c d : Nat} (h : rk idx sub ∉ laneKeys) :
    (arithEvent code idx sub site siteSub c d).Every fun e => e.isCount = true := by
  simp [arithEvent, count64, siteCount32, count32, h]

@[simp] theorem every_recordMalformed_isCount (site c : Nat) (d : Nat × Nat) :
    (recordMalformed site c d).Every fun e => e.isCount = true := by
  simp [recordMalformed, show rk 0x2C01 0x08 ∉ laneKeys by decide, show rk 0x2C20 0x07 ∉ laneKeys by decide]

/-- A store without wrong words has none to count. -/
@[simp] theorem every_storeErrors_isCount (site : Nat) : (storeErrors site {}).Every fun e => e.isCount = true := by
  simp [storeErrors, siteCount32, count32]

/-! ## The outputs of unpoisoned blocks (R79, R99, R100) -/

/-- An output of row `i` on whose computation main array and checker agree, of operands without a mark. -/
structure CellOut.Agrees (i : Nat) (x : CellOut) : Prop where
  row : x.row = i
  sums : x.mainSums = x.checkSums
  acc : x.mainAcc = x.checkAcc
  consumed : x.consumed = false

theorem CellOut.Agrees.not_differs {i : Nat} {x : CellOut} (h : x.Agrees i) : cellDiffers x = false := by
  simp [cellDiffers, h.sums, h.acc]

theorem cellStep_agrees {ws : List Nat} {i j : Nat} {prior : FWord} {pairs : List (RawBlock × RawBlock)} {oob : Nat → Bool}
    (h : ∀ p ∈ pairs, p.1.poison = false ∧ p.2.poison = false) : (cellStep ws [] i j prior pairs oob).Agrees i := by
  refine List.foldlRecOn (motive := fun x : CellOut => x.Agrees i) _ _ ⟨rfl, rfl, rfl, rfl⟩ fun x hx p hp => ?_
  obtain ⟨ha, hb⟩ := h p.1 (List.of_mem_zip hp).1
  constructor <;> simp [upsetAt, hx.row, hx.sums, hx.acc, hx.consumed, ha, hb]

theorem getD_poison {bs : List RawBlock} (h : ∀ b ∈ bs, b.poison = false) (k : Nat) : (bs.getD k {}).poison = false := by
  rw [List.getD_eq_getElem?_getD]
  cases hk : bs[k]? with
  | none => rfl
  | some b => exact h b (List.mem_of_getElem? hk)

theorem partCells_agrees {s : State} {site : Nat} {o : MOp} {p : WPart} {as : List RawBlock} {rows : List Nat}
    {ks : Nat → List Nat} (h : ∀ b ∈ as ++ p.blocks, b.poison = false) :
    ∀ x ∈ partCells s site o {} p as rows ks, ∃ i ∈ rows, x.Agrees i := by
  intro x hx
  simp only [partCells, List.mem_flatMap, List.mem_map] at hx
  obtain ⟨i, hi, j, -, rfl⟩ := hx
  refine ⟨i, hi, cellStep_agrees fun q hq => ?_⟩
  obtain ⟨t, -, rfl⟩ := List.mem_map.mp hq
  exact ⟨getD_poison (fun b hb => h b (List.mem_append_left _ hb)) _,
    getD_poison (fun b hb => h b (List.mem_append_right _ hb)) _⟩

/-! ## The commit of a lane beat -/

theorem eachP_acc_frame {α : Type} (xs : List α) (key : α → Nat) (val : α → FWord) (s : State) :
    ∃ A, (eachP xs fun x => .eff (.acc (key x) (val x))).run s = { s with acc := A } := by
  induction xs generalizing s with
  | nil => exact ⟨s.acc, rfl⟩
  | cons x xs ih => exact ih _

/-- Outputs of rows that drain go to accumulators alone. -/
theorem commitCells_frame {site : Nat} {o : MOp} {cs : List CellOut} (h : ∀ x ∈ cs, x.row < mrM o.words) (s : State) :
    ∃ A, (commitCells site o cs).run s = { s with acc := A } := by
  have hoff : cs.filter (fun x => decide (mrM o.words ≤ x.row)) = [] := by simpa using h
  rw [commitCells, hoff]
  exact eachP_acc_frame ..

/-- Where main array and checker agree, a commit writes accumulators, counts and reports. -/
theorem commitStep_of_agrees {site c : Nat} {o : MOp} {cells : List CellOut}
    (h : ∀ x ∈ cells, ∃ i, i < mrM o.words ∧ x.Agrees i) (mal : Nat × Nat) (oor beats step : Nat)
    (aOf bOf : Nat → Nat → List RawBlock) (s : State) :
    ∃ A u, (commitStep site c o cells mal oor beats {} step false aOf bOf).run s = ({ s with acc := A } : State).reported u ∧
      ∀ k ∈ laneKeys, u.regAt k = s.regAt k := by
  have hrow : ∀ x ∈ cells, x.row < mrM o.words := fun x hx => by obtain ⟨i, hi, hx⟩ := h x hx; exact hx.row ▸ hi
  have hagree : ∀ x ∈ cells, cellDiffers x = false := fun x hx => by obtain ⟨i, -, hx⟩ := h x hx; exact hx.not_differs
  have hclean : ∀ x ∈ cells, x.consumed = false := fun x hx => by obtain ⟨i, -, hx⟩ := h x hx; exact hx.consumed
  rw [commitStep, run_look, run_all_cons]
  obtain ⟨A, hA⟩ := commitCells_frame (site := site) (fun x hx => hrow x (List.mem_filter.mp hx).1) s
  rw [hA]
  refine ⟨A, run_isCount ?_ _⟩
  simp +contextual [count64, hagree, hclean, show rk 0x2C01 0x09 ∉ laneKeys by decide, show rk 0x2C20 0x08 ∉ laneKeys by decide]

/-! ## The slots of a lane beat (R124) -/

theorem laneLength_bounds (rows : List Nat) (last : Option Nat) (segs n fuel : Nat) :
    n ≤ laneLength rows last segs n fuel ∧ laneLength rows last segs n fuel ≤ n + fuel := by
  induction fuel generalizing rows last segs n with
  | zero => simp [laneLength]
  | succ f ih =>
    cases rows with
    | nil => exact ⟨Nat.le_refl n, Nat.le_add_right ..⟩
    | cons r rs =>
      rw [laneLength]
      split
      · have := ih rs last segs (n + 1); omega
      · split
        · omega
        · have := ih rs (some r) (segs + 1) (n + 1); omega

/-- A beat takes the first slot that is left, and at most 64. -/
theorem laneLength_beat {rows : List Nat} (h : rows ≠ []) : 1 ≤ laneLength rows none 0 0 64 ∧ laneLength rows none 0 0 64 ≤ 64 := by
  obtain ⟨r, rs, rfl⟩ := List.exists_cons_of_ne_nil h
  refine ⟨?_, by simpa using (laneLength_bounds (r :: rs) none 0 0 64).2⟩
  exact (laneLength_bounds rs (some r) 1 1 63).1

theorem mem_slotEnds {at_ : Nat} {xs : List (Nat × Nat × Nat)} {e : Nat × Nat × Nat} (h : e ∈ slotEnds at_ xs) :
    ∃ x ∈ xs, x.1 = e.1 := by
  induction xs generalizing at_ with
  | nil => exact absurd h List.not_mem_nil
  | cons x xs ih =>
    rcases List.mem_cons.mp h with rfl | h
    · exact ⟨x, List.mem_cons_self, rfl⟩
    · obtain ⟨y, hy, he⟩ := ih h
      exact ⟨y, List.mem_cons_of_mem _ hy, he⟩

theorem row_lt_of_mem_partSlots {o : MOp} {p : WPart} {as : List RawBlock} {x : Nat × Nat × Nat} (h : x ∈ partSlots o p as) :
    x.1 < mrM o.words := by
  simp only [partSlots, List.mem_flatMap, List.mem_map] at h
  obtain ⟨i, hi, t, -, rfl⟩ := h
  exact List.mem_range.mp (List.mem_filter.mp hi).1

/-- What a beat of `k` slots counts: itself and its slots, at the device and at its site. -/
def countLanes (site k : Nat) : Prog := all [
  count64 0x2C20 0x03 1, count64 (0x3000 + site) 0x42 1, count64 0x2C20 0x04 k, count64 (0x3000 + site) 0x43 k]

theorem reg_count64 {s : State} (h : s.Sorted) {i j a b : Nat} (ha : a < 256) (hb : b < 256) (d : Nat) :
    ((count64 i a d).run s).reg j b = if j = i ∧ b = a then satAdd 64 (s.reg i a) d else s.reg j b :=
  reg_setReg h ha hb _

theorem count64_reported (i j d : Nat) (s u : State) : ∃ v, (count64 i j d).run (s.reported u) = s.reported v :=
  ⟨(count64 i j d).run (s.reported u), rfl⟩

theorem countLanes_reported (site k : Nat) (s u : State) : ∃ v, (countLanes site k).run (s.reported u) = s.reported v := by
  obtain ⟨u1, h1⟩ := count64_reported 0x2C20 0x03 1 s u
  obtain ⟨u2, h2⟩ := count64_reported (0x3000 + site) 0x42 1 s u1
  obtain ⟨u3, h3⟩ := count64_reported 0x2C20 0x04 k s u2
  obtain ⟨u4, h4⟩ := count64_reported (0x3000 + site) 0x43 k s u3
  exact ⟨u4, by simp only [countLanes, run_all_cons, run_all_nil, h1, h2, h3, h4]⟩

theorem reg_countLanes {s : State} (h : s.Sorted) (site k : Nat) :
    ((countLanes site k).run s).reg 0x2C20 0x03 = satAdd 64 (s.reg 0x2C20 0x03) 1 ∧
      ((countLanes site k).run s).reg 0x2C20 0x04 = satAdd 64 (s.reg 0x2C20 0x04) k := by
  have hsite : 0x2C20 ≠ 0x3000 + site := by omega
  have h1 := run_sorted (count64 0x2C20 0x03 1) h
  have h2 := run_sorted (count64 (0x3000 + site) 0x42 1) h1
  have h3 := run_sorted (count64 0x2C20 0x04 k) h2
  simp [countLanes, reg_count64 h, reg_count64 h1, reg_count64 h2, reg_count64 h3, hsite]

/-! ## LANE_BEAT (R124) -/

/-- The operation in the array is the tile's. -/
theorem cur_of_arrayOp {s : State} {n m c : Nat} {o : MOp} (h : s.arrayOp n = some (m, c, o)) : (s.mtile n).cur = some o := by
  simp only [State.arrayOp] at h
  split at h
  · split at h
    all_goals simp_all
  · simp at h

/-- The rows that complete a block in a beat are rows that drain. -/
theorem row_lt_of_mem_ends {o : MOp} {p : WPart} {as : List RawBlock} {i : Nat} {keep : Nat × Nat × Nat → Bool}
    (h : i ∈ (((slotEnds 0 (partSlots o p as)).filter keep).map fun e => e.1).eraseDups) : i < mrM o.words := by
  obtain ⟨e, he, rfl⟩ := List.mem_map.mp (List.mem_eraseDups.mp h)
  obtain ⟨x, hx, hrow⟩ := mem_slotEnds (List.mem_filter.mp he).1
  exact hrow ▸ row_lt_of_mem_partSlots hx

/-- A beat of a running part without marks commits, counts itself and its `k` slots, and moves on by them; the part does not
end. -/
theorem run_runLaneBeat {s : State} {n m c k : Nat} {o : MOp} {p : WPart} {as : List RawBlock}
    (hclean : ∀ b ∈ as ++ p.blocks, b.poison = false)
    (hk : k = laneLength ((slotRows (partSlots o p as)).drop o.lane) none 0 0 64) (hpos : 0 < k)
    (hleft : o.lane + k < (slotRows (partSlots o p as)).length) :
    ∃ cells beats aOf bOf, (∀ x ∈ cells, ∃ i, i < mrM o.words ∧ x.Agrees i) ∧
      (runLaneBeat n m c o p as {}).run s = (modOp n fun x => { x with lane := o.lane + k }).run
        ((countLanes n k).run ((commitStep n c o cells (0, 0) 0 beats {} o.step false aOf bOf).run s)) := by
  subst hk
  refine ⟨?cells, ?beats, ?aOf, ?bOf, ?agrees, ?run⟩
  case run =>
    simp only [runLaneBeat, run_look, run_all_cons, run_all_nil, run_whenP, decide_eq_true hpos,
      decide_eq_false (Nat.not_le.mpr hleft), if_true, Bool.false_eq_true, if_false]
    rfl
  case agrees =>
    intro x hx
    obtain ⟨i, hi, hx⟩ := partCells_agrees hclean x hx
    exact ⟨i, row_lt_of_mem_ends hi, hx⟩

/-- A beat of a running part with more than 64 slots left, none with a mark. -/
theorem runLaneBeat_advances {s : State} (hs : s.Sorted) {n m c : Nat} {o : MOp} {p : WPart} {as : List RawBlock}
    (hclean : ∀ b ∈ as ++ p.blocks, b.poison = false) (hleft : o.lane + 64 < (slotRows (partSlots o p as)).length) :
    ∃ A u k, 1 ≤ k ∧ k ≤ 64 ∧ (runLaneBeat n m c o p as {}).run s =
        (modOp n fun x => { x with lane := o.lane + k }).run (({ s with acc := A } : State).reported u) ∧
      u.reg 0x2C20 0x03 = satAdd 64 (s.reg 0x2C20 0x03) 1 ∧ u.reg 0x2C20 0x04 = satAdd 64 (s.reg 0x2C20 0x04) k := by
  have hslots : (slotRows (partSlots o p as)).drop o.lane ≠ [] := by
    rw [ne_eq, List.drop_eq_nil_iff]
    omega
  obtain ⟨hpos, hmax⟩ := laneLength_beat hslots
  obtain ⟨cells, beats, aOf, bOf, hcells, hrun⟩ := run_runLaneBeat (s := s) (n := n) (m := m) (c := c) hclean rfl hpos (by omega)
  obtain ⟨A, v, hcommit, hv⟩ := commitStep_of_agrees (site := n) (c := c) hcells (0, 0) 0 beats o.step aOf bOf s
  have hsorted := run_sorted (commitStep n c o cells (0, 0) 0 beats {} o.step false aOf bOf) hs
  rw [hcommit] at hrun hsorted
  obtain ⟨hbeats, hcount⟩ := reg_countLanes hsorted n (laneLength ((slotRows (partSlots o p as)).drop o.lane) none 0 0 64)
  have hkept3 : v.reg 0x2C20 0x03 = s.reg 0x2C20 0x03 := hv _ (by simp [laneKeys])
  have hkept4 : v.reg 0x2C20 0x04 = s.reg 0x2C20 0x04 := hv _ (by simp [laneKeys])
  rw [reg_reported, hkept3] at hbeats
  rw [reg_reported, hkept4] at hcount
  obtain ⟨u, hu⟩ := countLanes_reported n (laneLength ((slotRows (partSlots o p as)).drop o.lane) none 0 0 64) { s with acc := A } v
  rw [hu] at hrun hbeats hcount
  exact ⟨A, u, _, hpos, hmax, hrun, hbeats, hcount⟩

theorem mtile_modOp {s : State} (h : Tab.Canon (fun _ => ({} : MTile)) s.mtiles) {n : Nat} {o : MOp}
    (ho : (s.mtile n).cur = some o) (f : MOp → MOp) :
    (((modOp n f).run s).mtile n).cur = some (f o) ∧ ∀ j, j ≠ n → ((modOp n f).run s).mtile j = s.mtile j := by
  have htile := mtile_modM h n fun x => { x with cur := x.cur.map f }
  refine ⟨?_, fun j hj => (htile j).trans (if_neg hj)⟩
  rw [modOp, htile, if_pos rfl, ho]
  rfl

/-- A lane beat of a part with more than 64 slots left, none with a mark, whose A blocks have arrived. -/
theorem laneBeat_advances {s : State} (hs : s.Canonical) {n : Site} {m c : Nat} {o : MOp} (ho : s.arrayOp n = some (m, c, o))
    {p : WPart} {rest : List WPart} (hlanes : mrLanes o = true) (hparts : o.parts = p :: rest) (ha : o.aPart ≠ [])
    (hclean : ∀ b ∈ o.aPart ++ p.blocks, b.poison = false)
    (hleft : o.lane + 64 < (slotRows (partSlots o p o.aPart)).length) :
    ∃ t k, exec (.laneBeat n {}) s = .next t ∧ 1 ≤ k ∧ k ≤ 64 ∧ (t.mtile n).cur = some { o with lane := o.lane + k } ∧
      t.reg 0x2C20 0x03 = satAdd 64 (s.reg 0x2C20 0x03) 1 ∧ t.reg 0x2C20 0x04 = satAdd 64 (s.reg 0x2C20 0x04) k ∧
      (∀ j, j ≠ n.val → t.mtile j = s.mtile j) ∧ t = { s.reported t with acc := t.acc, mtiles := t.mtiles } := by
  obtain ⟨A, u, k, hpos, hmax, hrun, hbeats, hcount⟩ := runLaneBeat_advances (n := n) (m := m) (c := c) hs.regs hclean hleft
  have hprog : (laneBeatProg n {}).run s = (runLaneBeat n m c o p o.aPart {}).run s := by
    simp [laneBeatProg, ho, hparts, hlanes, whenP, ha]
  have hnow := cur_of_arrayOp ho
  obtain ⟨hcur, hothers⟩ := mtile_modOp (s := ({ s with acc := A } : State).reported u) hs.mtiles hnow
    fun x => { x with lane := o.lane + k }
  exact ⟨_, k, congrArg Host.Outcome.next (hprog.trans hrun), hpos, hmax, hcur, hbeats, hcount, hothers, rfl⟩

/-! ## CAM_WINDOW_LOAD (R127, R128) -/

/-- After the first block, those are added whose union still fits. -/
theorem fitBlocks_after (kw : Nat) (xs : List Nat) (used n : Nat) :
    ∃ k ≤ xs.length, fitBlocks kw xs used (n + 1) = n + 1 + k ∧ (k = 0 ∨ used + (xs.take k).sum ≤ kw) := by
  induction xs generalizing used n with
  | nil => exact ⟨0, Nat.le_refl 0, rfl, .inl rfl⟩
  | cons x xs ih =>
    rw [fitBlocks]
    by_cases hx : used + x ≤ kw
    · obtain ⟨k, hk, hfit, hsum⟩ := ih (used + x) (n + 1)
      refine ⟨k + 1, Nat.succ_le_succ hk, ?_, .inr ?_⟩
      · rw [if_pos (by simp [hx]), hfit]
        omega
      · rcases hsum with rfl | hsum
        · simpa using hx
        · simpa [Nat.add_assoc] using hsum
    · exact ⟨0, Nat.zero_le _, by simp [hx], .inl rfl⟩

/-- A part takes a block at least, and no more when their union does not fit (R128). -/
theorem fitBlocks_bounds {xs : List Nat} (h : xs ≠ []) (kw : Nat) :
    1 ≤ fitBlocks kw xs 0 0 ∧ fitBlocks kw xs 0 0 ≤ xs.length ∧
      (kw < (xs.take (fitBlocks kw xs 0 0)).sum → fitBlocks kw xs 0 0 = 1) := by
  obtain ⟨x, xs, rfl⟩ := List.exists_cons_of_ne_nil h
  obtain ⟨k, hk, hfit, hsum⟩ := fitBlocks_after kw xs x 0
  have hfirst : fitBlocks kw (x :: xs) 0 0 = k + 1 := by
    rw [fitBlocks, if_pos (by simp), Nat.zero_add, hfit]
    omega
  rw [hfirst, List.take_succ_cons, List.sum_cons, List.length_cons]
  omega

/-- Block `lo` of a reduction of `k` blocks lies before the end of its window of `w` (R127). -/
theorem lt_windowEnd {k lo w : Nat} (hlo : lo < k) (hw : 0 < w) : lo < min k ((lo / w + 1) * w) := by
  refine Nat.lt_min.mpr ⟨hlo, ?_⟩
  rw [Nat.mul_comm]
  exact Nat.lt_mul_div_succ lo hw

/-- The operation with one more part loaded; `buf` and `taken` are what the fetch leaves of the B stream. -/
def MOp.loadPart (p : WPart) (buf : List RawBlock) (taken : Nat) (x : MOp) : MOp :=
  { x with loaded := p.hi, bTaken := taken, bBuf := buf, parts := x.parts ++ [p] }

/-- The next part of a window, of the blocks that fit, leaves the Bond input and joins the operation; what it brings counts. -/
theorem run_camLoadProg {s : State} {n m c : Nat} {o : MOp} {fb : Fetched} {hi : Nat} (ho : s.arrayOp n = some (m, c, o))
    (hcam : mrCam o = true) (hlo : o.loaded < mrK o.words) (hroom : o.parts.length < 2)
    (hhi : hi = min (mrK o.words) ((o.loaded / mrWindow o.words + 1) * mrWindow o.words))
    (hfb : s.fetchB n m o {} o.loaded hi = some fb) :
    ∃ (unions : List (List Nat)) (fit : Nat) (kept buf : List RawBlock) (counts : Prog), unions.length = hi - o.loaded ∧
      fit = fitBlocks (modeKw (wsMode o.words)) (unions.map List.length) 0 0 ∧ (counts.Every fun e => e.isCount = true) ∧
      (camLoadProg n {}).run s = counts.run
        ((modOp n (MOp.loadPart ⟨o.loaded, o.loaded + fit, kept, (unions.take fit).flatten⟩ buf fb.taken)).run
          ((takeIn n (mrBSrc o.words) fb.used).run s)) := by
  subst hhi
  refine ⟨?unions, ?fit, ?kept, ?buf, all ?counts, ?length, ?fits, ?every, ?run⟩
  case run =>
    simp only [camLoadProg, run_look, ho, run_withP_some, run_whenP, hcam, hlo, hroom, hfb, Bool.true_and, and_self, decide_true,
      if_true, run_all_cons (takeIn ..), run_all_cons (modOp ..)]
    rfl
  case length => simp
  case fits => rfl
  case every => simp [show rk 0x2C20 0x08 ∉ laneKeys by decide, show rk 0x2C20 0x09 ∉ laneKeys by decide]

/-- The part that a load adds begins where the last one ended, stays in its window and holds a block at least. -/
theorem camWindowLoad_loads {s : State} (hs : s.Canonical) {n : Site} {m c : Nat} {o : MOp} (ho : s.arrayOp n = some (m, c, o))
    {fb : Fetched} {hi : Nat} (hcam : mrCam o = true) (hlo : o.loaded < mrK o.words) (hwindow : 0 < mrWindow o.words)
    (hroom : o.parts.length < 2) (hhi : hi = min (mrK o.words) ((o.loaded / mrWindow o.words + 1) * mrWindow o.words))
    (hfb : s.fetchB n m o {} o.loaded hi = some fb) :
    ∃ t p, exec (.camWindowLoad n {}) s = .next t ∧ p.lo = o.loaded ∧ o.loaded < p.hi ∧ p.hi ≤ hi ∧
      (modeKw (wsMode o.words) < p.union.length → p.hi = p.lo + 1) ∧
      ((t.mtile n).cur.map fun x => (x.loaded, x.parts)) = some (p.hi, o.parts ++ [p]) ∧
      (∀ j, j ≠ n.val → t.mtile j = s.mtile j) ∧ t = { s.reported t with mtiles := t.mtiles, bond := t.bond } := by
  obtain ⟨unions, fit, kept, buf, counts, hlen, hfit, hevery, hrun⟩ := run_camLoadProg ho hcam hlo hroom hhi hfb
  have hend : o.loaded < hi := hhi ▸ lt_windowEnd hlo hwindow
  have hunions : unions.map List.length ≠ [] := by
    rw [ne_eq, List.map_eq_nil_iff, ← List.length_eq_zero_iff]
    omega
  obtain ⟨hone, hall, hsplit⟩ := fitBlocks_bounds hunions (modeKw (wsMode o.words))
  rw [← hfit] at hone hall hsplit
  rw [List.length_map, hlen] at hall
  have hnow := cur_of_arrayOp ho
  obtain ⟨hcur, hothers⟩ := mtile_modOp (s := (takeIn n (mrBSrc o.words) fb.used).run s) hs.mtiles hnow
    (MOp.loadPart ⟨o.loaded, o.loaded + fit, kept, (unions.take fit).flatten⟩ buf fb.taken)
  obtain ⟨u, hcounts, -⟩ := run_isCount hevery
    ((modOp n (MOp.loadPart ⟨o.loaded, o.loaded + fit, kept, (unions.take fit).flatten⟩ buf fb.taken)).run
      ((takeIn n (mrBSrc o.words) fb.used).run s))
  refine ⟨_, ⟨o.loaded, o.loaded + fit, kept, (unions.take fit).flatten⟩, congrArg Host.Outcome.next (hrun.trans hcounts), rfl,
    Nat.lt_add_of_pos_right hone, Nat.add_le_of_le_sub' hend.le hall, fun hwide => ?_,
    congrArg (Option.map fun x : MOp => (x.loaded, x.parts)) hcur, hothers, rfl⟩
  rw [List.length_flatten, List.map_take] at hwide
  exact congrArg (o.loaded + ·) (hsplit hwide)

/-- Settles O41: a beat takes between one slot and 64 of those left (`laneLength_beat`), and a part between one block and those of
its window (`fitBlocks_bounds`). -/
theorem lanesAndWindowsAdvance : Obligations.LanesAndWindowsAdvance := fun _ _ _ _ _ hs ho =>
  ⟨fun _ _ hlanes hparts ha hclean hleft => laneBeat_advances hs ho hlanes hparts ha hclean hleft,
    fun _ hcam hlo hwindow hroom hfb => camWindowLoad_loads hs ho hcam hlo hwindow hroom rfl hfb⟩

end Sys2Proof.Machine

/-! SUPPORT. Every effect keeps memory and the tables canonical, so every program and every step does (O3; R147, R308). -/

namespace Sys2Proof.Machine

open Sys2Proof

/-- An effect replaces one entry of one table, or returns a range of its keys to the default, or leaves every table; a tag and a
mark can also fill a range. -/
theorem apply_canonical (e : Eff) {s : State} (h : s.Canonical) : (e.apply s).Canonical := by
  unfold Eff.apply
  cases e with
  | regs k v => exact { h with regs := Tab.canon_set h.regs k v }
  | dropRegs lo hi => exact { h with regs := Tab.canon_drop h.regs lo hi }
  | selectors k v => exact { h with selectors := Tab.canon_set h.selectors k v }
  | dropSelectors lo hi => exact { h with selectors := Tab.canon_drop h.selectors lo hi }
  | tags k v => exact { h with tags := Tab.canon_set h.tags k v }
  | dropTags lo hi => exact { h with tags := Tab.canon_drop h.tags lo hi }
  | poisonLines k v => exact { h with poisonLines := Tab.canon_set h.poisonLines k v }
  | dropPoisonLines lo hi => exact { h with poisonLines := Tab.canon_drop h.poisonLines lo hi }
  | poisonWords k v => exact { h with poisonWords := Tab.canon_set h.poisonWords k v }
  | dropPoisonWords lo hi => exact { h with poisonWords := Tab.canon_drop h.poisonWords lo hi }
  | acc k v => exact { h with acc := Tab.canon_set h.acc k v }
  | dropAcc lo hi => exact { h with acc := Tab.canon_drop h.acc lo hi }
  | vreg k v => exact { h with vreg := Tab.canon_set h.vreg k v }
  | dropVreg lo hi => exact { h with vreg := Tab.canon_drop h.vreg lo hi }
  | dieModules k v => exact { h with dieModules := Tab.canon_set h.dieModules k v }
  | dropDieModules lo hi => exact { h with dieModules := Tab.canon_drop h.dieModules lo hi }
  | microcode k v => exact { h with microcode := Tab.canon_set h.microcode k v }
  | dropMicrocode lo hi => exact { h with microcode := Tab.canon_drop h.microcode lo hi }
  | arbs k v => exact { h with arbs := Tab.canon_set h.arbs k v }
  | dropArbs lo hi => exact { h with arbs := Tab.canon_drop h.arbs lo hi }
  | slotFixes k v => exact { h with slotFixes := Tab.canon_set h.slotFixes k v }
  | dropSlotFixes lo hi => exact { h with slotFixes := Tab.canon_drop h.slotFixes lo hi }
  | maskDrops k v => exact { h with maskDrops := Tab.canon_set h.maskDrops k v }
  | dropMaskDrops lo hi => exact { h with maskDrops := Tab.canon_drop h.maskDrops lo hi }
  | mtiles k v => exact { h with mtiles := Tab.canon_set h.mtiles k v }
  | dropMtiles lo hi => exact { h with mtiles := Tab.canon_drop h.mtiles lo hi }
  | stiles k v => exact { h with stiles := Tab.canon_set h.stiles k v }
  | dropStiles lo hi => exact { h with stiles := Tab.canon_drop h.stiles lo hi }
  | ftiles k v => exact { h with ftiles := Tab.canon_set h.ftiles k v }
  | dropFtiles lo hi => exact { h with ftiles := Tab.canon_drop h.ftiles lo hi }
  | bond k v => exact { h with bond := Tab.canon_set h.bond k v }
  | dropBond lo hi => exact { h with bond := Tab.canon_drop h.bond lo hi }
  | running k v => exact { h with running := Tab.canon_set h.running k v }
  | dropRunning lo hi => exact { h with running := Tab.canon_drop h.running lo hi }
  | plans k v => exact { h with plans := Tab.canon_set h.plans k v }
  | dropPlans lo hi => exact { h with plans := Tab.canon_drop h.plans lo hi }
  | ctxs k v => exact { h with ctxs := Tab.canon_set h.ctxs k v }
  | dropCtxs lo hi => exact { h with ctxs := Tab.canon_drop h.ctxs lo hi }
  | snaps k v => exact { h with snaps := Tab.canon_set h.snaps k v }
  | dropSnaps lo hi => exact { h with snaps := Tab.canon_drop h.snaps lo hi }
  | cells k v => exact { h with cells := Tab.canon_set h.cells k v }
  | dropCells lo hi => exact { h with cells := Tab.canon_drop h.cells lo hi }
  | waiters k v => exact { h with waiters := Tab.canon_set h.waiters k v }
  | dropWaiters lo hi => exact { h with waiters := Tab.canon_drop h.waiters lo hi }
  | fmap k v => exact { h with fmap := Tab.canon_set h.fmap k v }
  | dropFmap lo hi => exact { h with fmap := Tab.canon_drop h.fmap lo hi }
  | rings k v => exact { h with rings := Tab.canon_set h.rings k v }
  | dropRings lo hi => exact { h with rings := Tab.canon_drop h.rings lo hi }
  | idle k v => exact { h with idle := Tab.canon_set h.idle k v }
  | dropIdle lo hi => exact { h with idle := Tab.canon_drop h.idle lo hi }
  | offerHold k v => exact { h with offerHold := Tab.canon_set h.offerHold k v }
  | dropOfferHold lo hi => exact { h with offerHold := Tab.canon_drop h.offerHold lo hi }
  | net k v => exact { h with net := Tab.canon_set h.net k v }
  | dropNet lo hi => exact { h with net := Tab.canon_drop h.net lo hi }
  | claims k v => exact { h with claims := Tab.canon_set h.claims k v }
  | dropClaims lo hi => exact { h with claims := Tab.canon_drop h.claims lo hi }
  | links k v => exact { h with links := Tab.canon_set h.links k v }
  | dropLinks lo hi => exact { h with links := Tab.canon_drop h.links lo hi }
  | routeState k v => exact { h with routeState := Tab.canon_set h.routeState k v }
  | dropRouteState lo hi => exact { h with routeState := Tab.canon_drop h.routeState lo hi }
  | fencedAs k v => exact { h with fencedAs := Tab.canon_set h.fencedAs k v }
  | dropFencedAs lo hi => exact { h with fencedAs := Tab.canon_drop h.fencedAs lo hi }
  | hbm k v => exact { h with hbm := Tab.canon_set h.hbm k v }
  | dropHbm lo hi => exact { h with hbm := Tab.canon_drop h.hbm lo hi }
  | xtiles k v => exact { h with xtiles := Tab.canon_set h.xtiles k v }
  | dropXtiles lo hi => exact { h with xtiles := Tab.canon_drop h.xtiles lo hi }
  | pairs k v => exact { h with pairs := Tab.canon_set h.pairs k v }
  | dropPairs lo hi => exact { h with pairs := Tab.canon_drop h.pairs lo hi }
  | lintels k v => exact { h with lintels := Tab.canon_set h.lintels k v }
  | dropLintels lo hi => exact { h with lintels := Tab.canon_drop h.lintels lo hi }
  | islands k v => exact { h with islands := Tab.canon_set h.islands k v }
  | dropIslands lo hi => exact { h with islands := Tab.canon_drop h.islands lo hi }
  | limits k v => exact { h with limits := Tab.canon_set h.limits k v }
  | dropLimits lo hi => exact { h with limits := Tab.canon_drop h.limits lo hi }
  | candidates k v => exact { h with candidates := Tab.canon_set h.candidates k v }
  | dropCandidates lo hi => exact { h with candidates := Tab.canon_drop h.candidates lo hi }
  | sliceTimes k v => exact { h with sliceTimes := Tab.canon_set h.sliceTimes k v }
  | dropSliceTimes lo hi => exact { h with sliceTimes := Tab.canon_drop h.sliceTimes lo hi }
  | marigold k v => exact { h with marigold := Tab.canon_set h.marigold k v }
  | dropMarigold lo hi => exact { h with marigold := Tab.canon_drop h.marigold lo hi }
  | can k v => exact { h with can := Tab.canon_set h.can k v }
  | dropCan lo hi => exact { h with can := Tab.canon_drop h.can lo hi }
  | windows k v => exact { h with windows := Tab.canon_set h.windows k v }
  | dropWindows lo hi => exact { h with windows := Tab.canon_drop h.windows lo hi }
  | dictSnaps k v => exact { h with dictSnaps := Tab.canon_set h.dictSnaps k v }
  | dropDictSnaps lo hi => exact { h with dictSnaps := Tab.canon_drop h.dictSnaps lo hi }
  | fillTags lo hi v => exact { h with tags := Tab.canon_fill h.tags lo hi v }
  | fillPoisonWords lo hi => exact { h with poisonWords := Tab.canon_fill h.poisonWords lo hi true }
  | store a b => exact { h with mem := writeByte_wf h.mem a b }
  | dropMem lo hi => exact { h with mem := dropMem_wf h.mem lo hi }
  | _ => exact { h with }

theorem run_canonical (p : Prog) {s : State} (h : s.Canonical) : (p.run s).Canonical :=
  run_invariant (I := State.Canonical) (every_true p) (fun e _ _ hs => apply_canonical e hs) h

/-- Settles O3: a step runs a program from the state without its first command, and every program keeps the canonical form. -/
theorem stepKeepsCanonical : Obligations.StepKeepsCanonical := by
  intro s t hs ht
  obtain ⟨p, hp⟩ := step_runs s
  obtain rfl : p.run _ = t := Host.Outcome.next.inj (hp.symm.trans ht)
  exact run_canonical p { hs with }

end Sys2Proof.Machine

/-! SUPPORT. The state operations of an S-tile: what a write of words, a tag change, a count of beats and a change of the tile's
own record leave behind, each said once (R146, R152, R160, R161; Table 06-4). -/

namespace Sys2Proof.Machine

open Sys2Proof

/-! ## Scalars that count -/

/-- An effect that writes a scalar of the keys `ks`. -/
def Eff.isScalar (ks : List Nat) (e : Eff) : Bool :=
  match e with
  | .regs k _ => decide (k ∈ ks)
  | _ => false

/-- A program of such effects leaves every field but the scalars, and every scalar but theirs. -/
theorem run_isScalar {ks : List Nat} {p : Prog} (h : p.Every fun e => e.isScalar ks = true) (s : State) :
    ∃ R, p.run s = { s with regs := R } ∧ ∀ k, k ∉ ks → ({ s with regs := R } : State).regAt k = s.regAt k :=
  run_rel (R := fun s t => ∃ R, t = { s with regs := R } ∧ ∀ k, k ∉ ks → ({ s with regs := R } : State).regAt k = s.regAt k)
    (fun s => ⟨s.regs, rfl, fun _ _ => rfl⟩)
    (by rintro s _ _ ⟨R, rfl, h⟩ ⟨R', rfl, h'⟩; exact ⟨R', rfl, fun k hk => (h' k hk).trans (h k hk)⟩) h
    (fun e s he => by
      cases e with
      | regs j v =>
        refine ⟨_, rfl, fun k hk => get_set_ne _ _ _ _ _ _ ?_⟩
        rintro rfl
        exact hk (of_decide_eq_true he)
      | _ => exact Bool.noConfusion he) s

theorem every_siteCount64_isScalar {ks : List Nat} {n j : Nat} (h : rk (0x3000 + n) j ∈ ks) (d : Nat) :
    (siteCount64 n j d).Every fun e => e.isScalar ks = true := by
  simp [siteCount64, count64, bump, setReg, Eff.isScalar, h]

theorem every_siteCount32_isScalar {ks : List Nat} {n j : Nat} (h : rk (0x3000 + n) j ∈ ks) (d : Nat) :
    (siteCount32 n j d).Every fun e => e.isScalar ks = true := by
  simp [siteCount32, count32, bump, setReg, Eff.isScalar, h]

theorem every_countBeats_isScalar (n : Nat) (ws : List Nat) : (countBeats n ws).Every fun e => e.isScalar (beatKeys [n]) = true := by
  simp [countBeats, every_siteCount64_isScalar, every_siteCount32_isScalar, beatKeys]

theorem every_countCopy_isScalar (n : Nat) (sws dws : List Nat) :
    (countCopy n sws dws).Every fun e => e.isScalar (beatKeys [n]) = true := by
  simp [countCopy, every_siteCount64_isScalar, every_siteCount32_isScalar, beatKeys]

/-- The scalars that an access of a port of site `n` counts in: its beats, its splits and the beats that it waited (Table 06-8). -/
def portKeys (n : Nat) : List Nat := rk (0x3000 + n) 0x58 :: beatKeys [n]

theorem waits_notMem_beatKeys (n : Nat) : rk (0x3000 + n) 0x58 ∉ beatKeys [n] := by
  simp [beatKeys, rk]

/-- Which groups are the wide port's is read from the port map alone (R151). -/
theorem isWide_of_portMap {s u : State} {n : Nat} (h : u.regAt (rk (0x3000 + n) 0x50) = s.regAt (rk (0x3000 + n) 0x50)) (w : Nat) :
    u.isWide n w = s.isWide n w := by
  unfold State.isWide State.groupOwner State.reg
  rw [h]

theorem countBeats_counts (n : Nat) (ws : List Nat) (s : State) :
    ∃ R, (countBeats n ws).run s = { s with regs := R } ∧
      ∀ k, k ∉ beatKeys [n] → ({ s with regs := R } : State).regAt k = s.regAt k :=
  run_isScalar (every_countBeats_isScalar n ws) s

/-- What a counter of a site counts adds to it, and no other scalar changes. -/
theorem siteCount64_counts {s : State} (h : s.Sorted) (n j d : Nat) :
    ∃ R, (siteCount64 n j d).run s = { s with regs := R } ∧
      (0 < d → ({ s with regs := R } : State).reg (0x3000 + n) j = satAdd 64 (s.reg (0x3000 + n) j) d) ∧
      ∀ k, k ≠ rk (0x3000 + n) j → ({ s with regs := R } : State).regAt k = s.regAt k := by
  obtain ⟨R, hrun⟩ := siteCount64_frame n j d s
  have hreg := regAt_siteCount64 h n j d
  rw [hrun] at hreg
  exact ⟨R, hrun, fun hd => (hreg _).trans (if_pos ⟨rfl, hd⟩), fun k hk => (hreg k).trans (if_neg fun h => hk h.1)⟩

/-- An access without tag errors counts its beats and those that it waited. -/
theorem portAccess_counts {s : State} (h : s.Sorted) (t n : Nat) (ws : List Nat) (g : Nat) :
    ∃ R, (portAccess t n ws { waitBeats := g }).run s = { s with regs := R } ∧
      (0 < g → ({ s with regs := R } : State).reg (0x3000 + n) 0x58 = satAdd 64 (s.reg (0x3000 + n) 0x58) g) ∧
      ∀ k, k ∉ portKeys n → ({ s with regs := R } : State).regAt k = s.regAt k := by
  obtain ⟨R₁, hbeats, hkeep₁⟩ := countBeats_counts n ws s
  have hsorted : ({ s with regs := R₁ } : State).Sorted := hbeats ▸ run_sorted (countBeats n ws) h
  obtain ⟨R, hwaits, hcount, hkeep⟩ := siteCount64_counts hsorted n 0x58 g
  refine ⟨R, (congrArg (siteCount64 n 0x58 g).run hbeats).trans hwaits, fun hg => (hcount hg).trans ?_, fun k hk => ?_⟩
  · exact congrArg (satAdd 64 · g) (hkeep₁ _ (waits_notMem_beatKeys n))
  · obtain ⟨hne, hbeat⟩ := not_or.mp (mt List.mem_cons.mpr hk)
    exact (hkeep k hne).trans (hkeep₁ k hbeat)

/-! ## Reads without errors -/

theorem lateBeats_nil (last m : Nat) (slots : List Nat) : lateBeats [] last m false slots = 0 := by
  induction slots generalizing last m with
  | nil => rfl
  | cons k ks ih => simp [lateBeats, ih]

/-- Tags that the codes find sound cost nothing. -/
@[simp] theorem run_tagErrors_waits (t n : Nat) (slots : List Nat) (g : Nat) (s : State) :
    (tagErrors t n slots { waitBeats := g }).run s = s := rfl

/-- Words that the code finds sound cost no beat and change nothing. -/
@[simp] theorem run_readErrors_clean (t n : Nat) (ws : List Nat) (g : Nat) (s : State) :
    (readErrors t n ws { waitBeats := g }).run s = s := by
  simp [readErrors, wordErrors, siteCount64, lateBeats_nil, whenP]

/-! ## The tile's own record -/

theorem stile_modS {s : State} (h : Tab.Canon (fun _ => ({} : SCore)) s.stiles) (t : Nat) (f : SCore → SCore) (j : Nat) :
    ((modS t f).run s).stile j = if j = t then f (s.stile t) else s.stile j := Tab.get_set h.1 ..

theorem stile_modS_self {s : State} (h : Tab.Canon (fun _ => ({} : SCore)) s.stiles) (t : Nat) (f : SCore → SCore) :
    ((modS t f).run s).stile t = f (s.stile t) := (stile_modS h t f t).trans (if_pos rfl)

/-- A slot is as ready as before when its tag and the passages of its tile are as before. -/
theorem syncReady_congr {s u : State} {t k : Nat} (htag : u.slotTag t k = s.slotTag t k)
    (hpass : (u.stile t).passages = (s.stile t).passages) (kind : SyncKind) : u.syncReady t k kind = s.syncReady t k kind := by
  unfold State.syncReady State.inPassage
  rw [htag, hpass]

/-! ## Words of a scratchpad -/

theorem padTo_of_le {n : Nat} {bs : List Byte} (h : n ≤ bs.length) : padTo n bs = bs.take n := by
  rw [padTo, List.take_append_of_le_length h]

theorem padTo_of_length {n : Nat} {bs : List Byte} (h : bs.length = n) : padTo n bs = bs := by
  rw [padTo_of_le h.ge, List.take_of_length_le h.le]

/-- What a write of words `ws` leaves of a tile's record: the write-backs and rewrites that it cancels are gone (R163, R164). -/
def SCore.rewritten (ws : List Nat) (x : SCore) : SCore := { x with
  writeBacks := x.writeBacks.filter fun v => decide (v ∉ ws), rewrites := x.rewrites.filter fun v => decide (v ∉ ws) }

theorem SCore.rewritten_nil (x : SCore) : x.rewritten [] = x := by simp [SCore.rewritten]

theorem storeBytes_frame (a : Nat) (bs : List Byte) (s : State) : ∃ M, (storeBytes a bs).run s = { s with mem := M } := by
  induction bs generalizing a s with
  | nil => exact ⟨s.mem, rfl⟩
  | cons b bs ih => exact ih (a + 1) _

theorem putWords_frame (t : Nat) (ws : List Nat) (bs : List Byte) (s : State) :
    ∃ M S, (putWords t ws bs).run s = { s with mem := M, stiles := S } := by
  induction ws generalizing s bs with
  | nil => exact ⟨s.mem, s.stiles, rfl⟩
  | cons w ws ih =>
    obtain ⟨M, hstore⟩ := storeBytes_frame (wordAddr t w) (padTo 8 bs) s
    simp only [putWords, run_all_cons, run_all_nil, hstore]
    exact ih _ _

theorem stile_putWords {s : State} (h : s.Canonical) (t : Nat) (ws : List Nat) (bs : List Byte) :
    ((putWords t ws bs).run s).stile t = (s.stile t).rewritten ws := by
  induction ws generalizing s bs with
  | nil => exact (SCore.rewritten_nil _).symm
  | cons w ws ih =>
    have hcanon := run_canonical (storeBytes (wordAddr t w) (padTo 8 bs)) h
    have hstored : ((storeBytes (wordAddr t w) (padTo 8 bs)).run s).stile t = s.stile t := by
      obtain ⟨M, hstore⟩ := storeBytes_frame (wordAddr t w) (padTo 8 bs) s
      rw [hstore]; rfl
    simp only [putWords, run_all_cons, run_all_nil]
    rw [ih (run_canonical _ hcanon), stile_modS_self hcanon.stiles, hstored]
    simp [SCore.rewritten, List.filter_filter, Bool.and_comm]

/-- A write of words leaves every byte outside them. -/
theorem readByte_putWords {s : State} (h : Memory.wf s.mem) {t b : Nat} {ws : List Nat}
    (hb : ∀ w ∈ ws, b < wordAddr t w ∨ wordAddr t w + 8 ≤ b) (bs : List Byte) :
    readByte ((putWords t ws bs).run s).mem b = readByte s.mem b := by
  induction ws generalizing s bs with
  | nil => rfl
  | cons w ws ih =>
    obtain ⟨hw, hb⟩ := List.forall_mem_cons.mp hb
    simp only [putWords, run_all_cons, run_all_nil]
    rw [ih (run_mem_wf _ (run_mem_wf _ h)) hb, modS_mem, readByte_storeBytes h, if_neg (by rw [padTo_length]; omega)]

theorem wordBytes_cons (s : State) (t w : Nat) (ws : List Nat) :
    s.wordBytes t (w :: ws) = s.bytesAt (wordAddr t w) 8 ++ s.wordBytes t ws := List.flatMap_cons

/-- Bytes written to words, none twice, read back. -/
theorem wordBytes_putWords {s : State} (h : Memory.wf s.mem) (t : Nat) {ws : List Nat} (hws : ws.Nodup) {bs : List Byte}
    (hbs : bs.length = 8 * ws.length) : ((putWords t ws bs).run s).wordBytes t ws = bs := by
  induction ws generalizing s bs with
  | nil => exact (List.eq_nil_of_length_eq_zero hbs).symm
  | cons w ws ih =>
    obtain ⟨hw, hws⟩ := List.nodup_cons.mp hws
    rw [List.length_cons] at hbs
    have hhead := bytesAt_putWords_head h (t := t) hw bs
    have htail := ih (run_mem_wf _ (run_mem_wf _ h)) hws (bs := bs.drop 8)
      (s := (modS t fun x => { x with writeBacks := x.writeBacks.filter fun v => decide (v ≠ w),
                                      rewrites := x.rewrites.filter fun v => decide (v ≠ w) }).run
              ((storeBytes (wordAddr t w) (padTo 8 bs)).run s)) (by rw [List.length_drop]; omega)
    rw [wordBytes_cons, hhead, padTo_of_le (by omega)]
    exact (congrArg (bs.take 8 ++ ·) htail).trans (List.take_append_drop 8 bs)

/-- The bytes of the `i`-th of a list of words. -/
theorem bytesAt_getElem (s : State) (t : Nat) {ws : List Nat} {i : Nat} (hi : i < ws.length) :
    s.bytesAt (wordAddr t ws[i]) 8 = ((s.wordBytes t ws).drop (8 * i)).take 8 :=
  (take_drop_flatMap (f := fun w => s.bytesAt (wordAddr t w) 8) (fun _ => by simp [State.bytesAt]) hi).symm

/-! ## Tags -/

theorem tagAt_setTag {s : State} (h : Tab.Canon (fun _ => 0) s.tags) (t k v j : Nat) :
    ((setTag t k v).run s).tagAt j = if j = t * 65536 + k then v else s.tagAt j := Tab.get_set h.1 ..

/-- The tag that a plain write leaves of a slot whose tag was `v` (Table 06-4). -/
def plainTagOf (whole poison : Bool) (v : Nat) : Nat := if poison then 2 else if whole = true ∧ v = 2 then 1 else v

theorem plainTagOf_idem (whole poison : Bool) (v : Nat) : plainTagOf whole poison (plainTagOf whole poison v) = plainTagOf whole poison v := by
  unfold plainTagOf
  split_ifs <;> simp_all

theorem tagAt_run_plainTag {s : State} (h : Tab.Canon (fun _ => 0) s.tags) (t k : Nat) (whole poison : Bool) (j : Nat) :
    ((plainTag t k whole poison).run s).tagAt j = if j = t * 65536 + k then plainTagOf whole poison (s.tagAt j) else s.tagAt j := by
  have hfull : (whole && s.slotTag t k == 2) = true ↔ whole = true ∧ s.tagAt (t * 65536 + k) = 2 := by simp [State.slotTag]
  rw [plainTag, run_look, run_ite, run_whenP]
  simp only [hfull]
  by_cases hj : j = t * 65536 + k
  · subst hj
    rw [if_pos rfl, plainTagOf]
    split_ifs
    · exact (tagAt_setTag h ..).trans (if_pos rfl)
    · exact (tagAt_setTag h ..).trans (if_pos rfl)
    · rfl
  · rw [if_neg hj]
    split_ifs
    · exact (tagAt_setTag h ..).trans (if_neg hj)
    · exact (tagAt_setTag h ..).trans (if_neg hj)
    · rfl

/-- The tags of slots after plain writes of each; a slot that is written twice takes the same tag twice. -/
theorem slotTag_eachP_plainTag {s : State} (h : s.Canonical) (t : Nat) (slots : List Nat) (whole : Nat → Bool) (poison : Bool) (k : Nat) :
    ((eachP slots fun j => plainTag t j (whole j) poison).run s).slotTag t k =
      if k ∈ slots then plainTagOf (whole k) poison (s.slotTag t k) else s.slotTag t k := by
  induction slots generalizing s with
  | nil => rfl
  | cons j slots ih =>
    have hstep : ((plainTag t j (whole j) poison).run s).slotTag t k =
        if k = j then plainTagOf (whole k) poison (s.slotTag t k) else s.slotTag t k := by
      unfold State.slotTag
      rw [tagAt_run_plainTag h.tags]
      by_cases hk : k = j
      · rw [if_pos (by rw [hk]), if_pos hk, hk]
      · rw [if_neg (by omega), if_neg hk]
    rw [run_eachP_cons, ih (run_canonical _ h), hstep]
    by_cases hk : k = j
    · rw [if_pos hk, plainTagOf_idem, ite_self, if_pos (List.mem_cons.mpr (.inl hk))]
    · simp [hk]

theorem tagAt_eachP_plainTag_of_ne {s : State} (h : s.Canonical) {t j : Nat} {slots : List Nat} (hj : ∀ k ∈ slots, j ≠ t * 65536 + k)
    (whole : Nat → Bool) (poison : Bool) :
    ((eachP slots fun k => plainTag t k (whole k) poison).run s).tagAt j = s.tagAt j := by
  induction slots generalizing s with
  | nil => rfl
  | cons k slots ih =>
    obtain ⟨hk, hj⟩ := List.forall_mem_cons.mp hj
    rw [run_eachP_cons, ih (run_canonical _ h) hj, tagAt_run_plainTag h.tags, if_neg hk]

theorem plainTag_frame (t k : Nat) (whole poison : Bool) (s : State) : ∃ T, (plainTag t k whole poison).run s = { s with tags := T } := by
  rw [plainTag, run_look, run_ite, run_whenP]
  split_ifs
  · exact ⟨_, rfl⟩
  · exact ⟨_, rfl⟩
  · exact ⟨s.tags, rfl⟩

theorem eachP_plainTag_frame (t : Nat) (slots : List Nat) (whole : Nat → Bool) (poison : Bool) (s : State) :
    ∃ T, (eachP slots fun k => plainTag t k (whole k) poison).run s = { s with tags := T } := by
  induction slots generalizing s with
  | nil => exact ⟨s.tags, rfl⟩
  | cons k slots ih =>
    obtain ⟨T, hT⟩ := plainTag_frame t k (whole k) poison s
    rw [run_eachP_cons, hT]
    exact ih _

/-! ## Plain writes of words (Table 06-4) -/

/-- Bytes `bs` have been written to words `ws` of S-tile `t` as a plain write: what stands in memory, in the tags and in the tile's
record then. -/
structure PlainWritten (s u : State) (t : Nat) (ws : List Nat) (bs : List Byte) (poison : Bool) : Prop where
  words : s.wroteWords u t ws bs
  tags : ∀ k ∈ slotsOf ws, u.slotTag t k = plainTagOf (coversSlot ws k) poison (s.slotTag t k)
  others : ∀ j, (∀ k ∈ slotsOf ws, j ≠ t * 65536 + k) → u.tagAt j = s.tagAt j
  tile : u.stile t = (s.stile t).rewritten ws

theorem plainWriteWords_writes {s : State} (h : s.Canonical) (t : Nat) {ws : List Nat} (hws : ws.Nodup) {bs : List Byte}
    (hbs : bs.length = 8 * ws.length) (poison : Bool) :
    ∃ M T S, (plainWriteWords t ws bs poison).run s = { s with mem := M, tags := T, stiles := S } ∧
      PlainWritten s { s with mem := M, tags := T, stiles := S } t ws bs poison := by
  obtain ⟨M, S, hput⟩ := putWords_frame t ws bs s
  have hcanon := run_canonical (putWords t ws bs) h
  have hwords := wordBytes_putWords h.mem t hws hbs
  have htile := stile_putWords h t ws bs
  have hout : ∀ b, (∀ w ∈ ws, b < wordAddr t w ∨ wordAddr t w + 8 ≤ b) → _ := fun b hb => readByte_putWords h.mem hb bs
  rw [hput] at hcanon hwords htile hout
  obtain ⟨T, htags⟩ := eachP_plainTag_frame t (slotsOf ws) (coversSlot ws) poison { s with mem := M, stiles := S }
  have hin := slotTag_eachP_plainTag hcanon t (slotsOf ws) (coversSlot ws) poison
  have hne : ∀ j, (∀ k ∈ slotsOf ws, j ≠ t * 65536 + k) → _ := fun j hj =>
    tagAt_eachP_plainTag_of_ne hcanon hj (coversSlot ws) poison
  rw [htags] at hin hne
  refine ⟨M, T, S, ?_, ⟨hwords, hout⟩, fun k hk => (hin k).trans (if_pos hk), hne, htile⟩
  simp only [plainWriteWords, run_all_cons, run_all_nil, hput, htags]

/-! ## Synchronised writes of one slot (Table 06-4, R161, R162) -/

theorem nodup_slotWords (k : Nat) : (slotWords k).Nodup :=
  List.nodup_range.map fun _ _ h => Nat.add_left_cancel h

theorem length_slotWords (k : Nat) : (slotWords k).length = 8 := by simp [slotWords]

theorem slotsOf_slotWords (k : Nat) : slotsOf (slotWords k) = [k] := by
  have hdiv : ∀ i < 8, (8 * k + i) / 8 = k := by omega
  simp [slotsOf, slotWords, List.range_succ, hdiv, List.eraseDups_cons]

theorem slotsPoisoned_slotWords (s : State) (t k : Nat) : s.slotsPoisoned t (slotWords k) = (s.slotTag t k == 2) := by
  simp [State.slotsPoisoned, slotsOf_slotWords]

/-- Bytes `bs` have been written to slot `k` of S-tile `t` as a synchronised write. -/
structure SlotWritten (s u : State) (t k : Nat) (bs : List Byte) (poison : Bool) : Prop where
  words : s.wroteWords u t (slotWords k) bs
  tag : u.slotTag t k = if poison then 2 else 1
  others : ∀ j, j ≠ t * 65536 + k → u.tagAt j = s.tagAt j
  tile : u.stile t = (s.stile t).rewritten (slotWords k)

/-- A slot that no message's header holds becomes full or poisoned. -/
theorem writtenTag_plain (s : State) (t k : Nat) (poison : Bool) : s.writtenTag t k false poison = if poison then 2 else 1 := by
  unfold State.writtenTag
  split <;> rfl

theorem syncWriteNow_writes {s : State} (h : s.Canonical) (t k : Nat) {bs : List Byte} (hbs : bs.length = 64) (poison : Bool) :
    ∃ M T S, (syncWriteNow t k false bs poison).run s = { s with mem := M, tags := T, stiles := S } ∧
      SlotWritten s { s with mem := M, tags := T, stiles := S } t k bs poison := by
  have hlen : bs.length = 8 * (slotWords k).length := by rw [hbs, length_slotWords]
  obtain ⟨M, S, hput⟩ := putWords_frame t (slotWords k) bs s
  have hcanon := run_canonical (putWords t (slotWords k) bs) h
  have hwords := wordBytes_putWords h.mem t (nodup_slotWords k) hlen
  have htile := stile_putWords h t (slotWords k) bs
  have hout : ∀ b, (∀ w ∈ slotWords k, b < wordAddr t w ∨ wordAddr t w + 8 ≤ b) → _ := fun b hb => readByte_putWords h.mem hb bs
  rw [hput] at hcanon hwords htile hout
  have htag := tagAt_setTag hcanon.tags t k (if poison then 2 else 1)
  refine ⟨M, Tab.set 0 s.tags (t * 65536 + k) (if poison then 2 else 1), S, ?_, ⟨hwords, hout⟩, (htag _).trans (if_pos rfl),
    fun j hj => (htag j).trans (if_neg hj), htile⟩
  simp only [syncWriteNow, run_look, run_all_cons, run_all_nil, writtenTag_plain, padTo_of_length hbs, hput]
  rfl

/-- A slot that is ready is written at once through the wide port. -/
theorem writeSlots_fills {s : State} (h : s.Canonical) {t n k : Nat} (hready : s.syncReady t k .write = true)
    (hwide : s.isWide n (8 * k) = true) {bs : List Byte} (hbs : bs.length = 64) (who : Requester) (poison : Bool) (e : Ecc) :
    ∃ R M T S, (writeSlots t n who false poison bs [k] e).run s = { s with regs := R, mem := M, tags := T, stiles := S } ∧
      SlotWritten s { s with regs := R, mem := M, tags := T, stiles := S } t k bs poison := by
  obtain ⟨R, hbeats, -⟩ := countBeats_counts n (slotWords k) s
  have hcanon := run_canonical (countBeats n (slotWords k)) h
  rw [hbeats] at hcanon
  obtain ⟨M, T, S, hrun, hwritten⟩ := syncWriteNow_writes hcanon t k hbs poison
  refine ⟨R, M, T, S, ?_, hwritten.words, hwritten.tag, hwritten.others, hwritten.tile⟩
  rw [← hrun, ← hbeats]
  simp [writeSlots, hready, hwide, List.take_of_length_le hbs.le, whenP]

/-- The tile's record once passage `p` has begun. -/
def SCore.passing (x : SCore) (p : Passage) : SCore := { x with passages := x.passages ++ [p] }

/-- A slot that is ready is reserved for its passage through a narrow port. -/
theorem writeSlots_reserves {s : State} (h : s.Canonical) {t n k : Nat} (hready : s.syncReady t k .write = true)
    (hnarrow : s.isWide n (8 * k) = false) (bs : List Byte) (who : Requester) (poison : Bool) (e : Ecc) :
    ∃ R T S, (writeSlots t n who false poison bs [k] e).run s = { s with regs := R, tags := T, stiles := S } ∧
      (∀ j, ({ s with regs := R, tags := T, stiles := S } : State).tagAt j = if j = t * 65536 + k then 3 else s.tagAt j) ∧
      ({ s with regs := R, tags := T, stiles := S } : State).stile t = (s.stile t).passing ⟨who, .write, k, bs, poison, [], false⟩ := by
  obtain ⟨R, hbeats, -⟩ := countBeats_counts n (slotWords k) s
  refine ⟨R, _, _, ?_, fun j => tagAt_setTag h.tags t k 3 j,
    stile_modS_self h.stiles t fun x => x.passing ⟨who, .write, k, bs, poison, [], false⟩⟩
  simp only [writeSlots, run_look, hready, hnarrow, Bool.not_false, Bool.true_or, Bool.and_true, Bool.not_true,
    Bool.false_eq_true, if_false, run_all_cons, run_all_nil, hbeats]
  rfl

/-- The tile's record once access `b` is blocked. -/
def SCore.blocking (x : SCore) (b : Blocked) : SCore := { x with blocked := x.blocked ++ [b] }

/-- A slot that is not ready blocks the write (R162). -/
theorem run_writeSlots_blocked {s : State} {t k : Nat} (hready : s.syncReady t k .write = false) (n : Nat) (bs : List Byte)
    (who : Requester) (poison : Bool) (e : Ecc) : (writeSlots t n who false poison bs [k] e).run s =
      (modS t fun x => x.blocking ⟨who, .write, k, bs, poison, [], false, s.slotTag t k⟩).run s := by
  simp only [writeSlots, run_look, hready, Bool.false_and, Bool.not_false, if_true]
  rfl

end Sys2Proof.Machine

/-! SUPPORT. Accesses of a scratchpad by ring engines, packets and memory operations, and the plain reads of address generators
(O43; R146, R149, R160 to R162). -/

namespace Sys2Proof.Machine

open Sys2Proof

/-! ## Accesses that their requester takes -/

/-- Access `a` of requester `q` is taken now by S-tile `t`, which site `n` serves, and reaches words `ws` outside every save area. -/
structure State.Grants (s : State) (t n : Nat) (q : Requester) (a : Access) (ws : List Nat) : Prop where
  site : s.sSite t = some n
  asks : accessOf q = some a
  taken : s.takes t q (slotsOf ws) = true
  decodes : s.decode t a.aliased a.off a.len = some ws
  unsaved : ∀ w ∈ ws, s.savedWord t w = none

theorem findSome?_savedWord {s : State} {t : Nat} {ws : List Nat} (h : ∀ w ∈ ws, s.savedWord t w = none) :
    (ws.findSome? fun w => s.savedWord t w) = none := List.findSome?_eq_none_iff.mpr h

/-- An access that decodes is 8 bytes to the word (R148). -/
theorem length_decode {s : State} {t off len : Nat} {al : Bool} {ws : List Nat} (h : s.decode t al off len = some ws) :
    len = 8 * ws.length := by
  have hrange : ∀ f : Nat → Nat, ((List.range (len / 8)).map f).length = len / 8 := by simp
  unfold State.decode at h
  split at h
  · cases h
  · rename_i hwhole
    have hlen : ws.length = len / 8 := by
      split at h
      · split at h
        · cases h
        · dsimp only at h
          split at h
          · cases h
          · rw [← Option.some.inj h, hrange]
      · split at h
        · cases h
        · rw [← Option.some.inj h, hrange]
    omega

theorem requester_of_accessOf {q : Requester} {a : Access} (h : accessOf q = some a) :
    q = .ringEngine a ∨ q = .ingress a ∨ q = .memop a := by
  cases q with
  | ag k => cases h
  | ringEngine b => exact .inl (congrArg _ (Option.some.inj h))
  | ingress b => exact .inr (.inl (congrArg _ (Option.some.inj h)))
  | memop b => exact .inr (.inr (congrArg _ (Option.some.inj h)))

section grants

variable {s : State} {t n : Nat} {q : Requester} {a : Access} {ws : List Nat}

theorem State.Grants.run_withTaken (h : s.Grants t n q a ws) (p : Nat → List Nat → Prog) : (withTaken t q a p).run s = (p n ws).run s := by
  simp [withTaken, withAccess, h.decodes, h.taken, h.site, findSome?_savedWord h.unsaved]

/-! ## Plain accesses (R160) -/

theorem State.Grants.run_plainRead (h : s.Grants t n q a ws) (e : Ecc) : (plainReadProg t q e).run s =
    (Prog.look fun u => .eff (.emit (.readData n (u.wordBytes t ws) (u.slotsPoisoned t ws)))).run
      ((readErrors t n ws e).run ((portAccess t n ws e).run s)) := by
  rcases requester_of_accessOf h.asks with rfl | rfl | rfl <;> exact h.run_withTaken _

theorem State.Grants.run_plainWrite (h : s.Grants t n q a ws) (e : Ecc) : (plainWriteProg t q e).run s =
    (plainWriteWords t ws (padTo a.len a.bytes) a.poison).run ((portAccess t n ws e).run s) := by
  rcases requester_of_accessOf h.asks with rfl | rfl | rfl <;> exact h.run_withTaken _

/-- A plain read delivers the words and whether a slot of them is poisoned. -/
theorem State.Grants.plainRead_delivers (h : s.Grants t n q a ws) (hs : s.Canonical) (g : Nat) :
    ∃ R, (plainReadProg t q { waitBeats := g }).run s =
        { s with regs := R, out := s.out ++ [.readData n (s.wordBytes t ws) (s.slotsPoisoned t ws)] } ∧
      (0 < g → ({ s with regs := R } : State).reg (0x3000 + n) 0x58 = satAdd 64 (s.reg (0x3000 + n) 0x58) g) := by
  obtain ⟨R, hport, hwaits, -⟩ := portAccess_counts hs.regs t n ws g
  refine ⟨R, ?_, hwaits⟩
  rw [h.run_plainRead, hport, run_readErrors_clean]
  rfl

/-- A plain write stores its words and changes the tags of their slots. -/
theorem State.Grants.plainWrite_stores (h : s.Grants t n q a ws) (hs : s.Canonical) (hws : ws.Nodup) (hlen : a.bytes.length = a.len)
    (g : Nat) : ∃ R M T S, (plainWriteProg t q { waitBeats := g }).run s = { s with regs := R, mem := M, tags := T, stiles := S } ∧
      PlainWritten s { s with regs := R, mem := M, tags := T, stiles := S } t ws a.bytes a.poison := by
  obtain ⟨R, hport, -, -⟩ := portAccess_counts hs.regs t n ws g
  have hcanon := run_canonical (portAccess t n ws { waitBeats := g }) hs
  rw [hport] at hcanon
  obtain ⟨M, T, S, hwrite, hwritten⟩ :=
    plainWriteWords_writes hcanon t hws (hlen.trans (length_decode h.decodes)) a.poison
  refine ⟨R, M, T, S, ?_, hwritten.words, hwritten.tags, hwritten.others, hwritten.tile⟩
  rw [h.run_plainWrite, hport, padTo_of_length hlen]
  exact hwrite

/-! ## Synchronised accesses (R160, R161, R162) -/

theorem slotWords_headD (k : Nat) : (slotWords k).headD 0 / 8 = k := by
  rw [slotWords_cons, List.headD_cons]
  omega

/-- A synchronised access of a ring engine or a packet to the whole slot `k` of S-tile `t`, taken now. -/
structure State.GrantsSlot (s : State) (t n : Nat) (q : Requester) (a : Access) (k : Nat) : Prop where
  grants : s.Grants t n q a (slotWords k)
  engine : ∀ x, q ≠ .memop x
  whole : a.off % 64 = 0 ∧ a.len = 64

section slots

variable {k : Nat} (h : s.GrantsSlot t n q a k)

include h

theorem State.GrantsSlot.run_write (e : Ecc) : (presentSync t q .write e).run s =
    (writeSlots t n q false a.poison (padTo 64 a.bytes) [k] e).run
      ((tagErrors t n [k] e).run ((siteCount64 n 0x58 e.waitBeats).run s)) := by
  rcases requester_of_accessOf h.grants.asks with rfl | rfl | rfl
  case inr.inr => exact absurd rfl (h.engine a)
  all_goals
    refine (h.grants.run_withTaken _).trans ?_
    rw [slotWords_headD, if_pos h.whole]
    rfl

/-- What a consume or a peek does once its waits have counted: it takes the slot, or is blocked. -/
theorem State.GrantsSlot.run_read {kind : SyncKind} (hk : kind ≠ .write) (e : Ecc) : (presentSync t q kind e).run s =
    (Prog.look fun u => if u.syncReady t k kind then readSlot t n k kind q e
      else modS t fun x => x.blocking { who := q, kind := kind, slot := k, tag := u.slotTag t k }).run
        ((tagErrors t n [k] e).run ((siteCount64 n 0x58 e.waitBeats).run s)) := by
  rcases requester_of_accessOf h.grants.asks with rfl | rfl | rfl
  case inr.inr => exact absurd rfl (h.engine a)
  all_goals
    refine (h.grants.run_withTaken _).trans ?_
    rw [slotWords_headD, if_pos h.whole]
    cases kind with
    | write => exact absurd rfl hk
    | _ => rfl

end slots

/-- A full slot that is not in passage is ready for a consume and for a peek. -/
theorem syncReady_full {k : Nat} (htag : s.slotTag t k = 1) (hpass : s.inPassage t k = false) {kind : SyncKind} (hk : kind ≠ .write) :
    s.syncReady t k kind = true := by
  cases kind with
  | write => exact absurd rfl hk
  | _ => simp [State.syncReady, htag, hpass]

theorem syncReady_empty {k : Nat} (htag : s.slotTag t k = 0) (hpass : s.inPassage t k = false) : s.syncReady t k .write = true := by
  simp [State.syncReady, htag, hpass]

theorem not_syncReady_empty {k : Nat} (htag : s.slotTag t k = 0) : s.syncReady t k .consume = false := by
  simp [State.syncReady, htag]

/-- A full slot leaves through the wide port at once. -/
theorem readSlot_wide {k : Nat} (htag : s.slotTag t k = 1) (hwide : s.isWide n (8 * k) = true) (kind : SyncKind) (g : Nat) :
    ∃ R, (readSlot t n k kind q { waitBeats := g }).run s =
      (whenP (kind == .consume) (consumeNow t k { waitBeats := g })).run
        { s with regs := R, out := s.out ++ [.readData n (s.wordBytes t (slotWords k)) false] } := by
  obtain ⟨R, hbeats, hkeep⟩ := countBeats_counts n (slotWords k) s
  have hmap := (isWide_of_portMap (hkeep _ (by simp [beatKeys, rk])) (8 * k)).trans hwide
  have hpoison : ({ s with regs := R } : State).slotsPoisoned t (slotWords k) = false := by
    rw [slotsPoisoned_slotWords]
    exact beq_false_of_ne (by rw [show ({ s with regs := R } : State).slotTag t k = 1 from htag]; decide)
  refine ⟨R, ?_⟩
  simp only [readSlot, run_all_cons, run_all_nil, hbeats, run_readErrors_clean, run_look, hpoison, hmap, if_true]
  rfl

/-- A full slot begins its passage through a narrow port. -/
theorem readSlot_narrow {k : Nat} (htag : s.slotTag t k = 1) (hnarrow : s.isWide n (8 * k) = false) (kind : SyncKind) (g : Nat) :
    ∃ R, (readSlot t n k kind q { waitBeats := g }).run s =
      (modS t fun x => x.passing { who := q, kind := kind, slot := k, bytes := s.wordBytes t (slotWords k) }).run
        ((whenP (kind == .consume) (setTag t k 3)).run { s with regs := R }) := by
  obtain ⟨R, hbeats, hkeep⟩ := countBeats_counts n (slotWords k) s
  have hmap := (isWide_of_portMap (hkeep _ (by simp [beatKeys, rk])) (8 * k)).trans hnarrow
  have hpoison : ({ s with regs := R } : State).slotsPoisoned t (slotWords k) = false := by
    rw [slotsPoisoned_slotWords]
    exact beq_false_of_ne (by rw [show ({ s with regs := R } : State).slotTag t k = 1 from htag]; decide)
  refine ⟨R, ?_⟩
  simp only [readSlot, run_all_cons, run_all_nil, hbeats, run_readErrors_clean, run_look, hpoison, hmap, Bool.false_eq_true, if_false]
  rfl

end grants

/-! ## What an emptied slot sets off (R269, R273) -/

/-- An effect that the move of a ring's head can have. -/
def Eff.isHead (e : Eff) : Bool :=
  match e with
  | .regs _ _ => true
  | .store _ _ => true
  | .stiles _ _ => true
  | .tags _ _ => true
  | .rings _ _ => true
  | .issue _ => true
  | _ => false

theorem run_isHead {p : Prog} (h : p.Every fun e => e.isHead = true) (s : State) : ∃ R M T S G I,
    p.run s = { s with regs := R, mem := M, tags := T, stiles := S, rings := G, issue := I } :=
  run_rel (R := fun s t => ∃ R M T S G I, t = { s with regs := R, mem := M, tags := T, stiles := S, rings := G, issue := I })
    (fun s => ⟨s.regs, s.mem, s.tags, s.stiles, s.rings, s.issue, rfl⟩)
    (by rintro s _ _ ⟨R, M, T, S, G, I, rfl⟩ ⟨R', M', T', S', G', I', rfl⟩; exact ⟨R', M', T', S', G', I', rfl⟩) h
    (fun e s he => by
      cases e with
      | regs k v => exact ⟨_, s.mem, s.tags, s.stiles, s.rings, s.issue, rfl⟩
      | store a b => exact ⟨s.regs, _, s.tags, s.stiles, s.rings, s.issue, rfl⟩
      | tags k v => exact ⟨s.regs, s.mem, _, s.stiles, s.rings, s.issue, rfl⟩
      | stiles k v => exact ⟨s.regs, s.mem, s.tags, _, s.rings, s.issue, rfl⟩
      | rings k v => exact ⟨s.regs, s.mem, s.tags, s.stiles, _, s.issue, rfl⟩
      | issue v => exact ⟨s.regs, s.mem, s.tags, s.stiles, s.rings, _, rfl⟩
      | _ => exact Bool.noConfusion he) s

theorem isHead_of_isWordWrite {ns : List Nat} (e : Eff) (h : e.isWordWrite ns = true) : e.isHead = true := by
  cases e with
  | regs k v => rfl
  | store a b => rfl
  | stiles k v => rfl
  | tags k v => rfl
  | _ => exact Bool.noConfusion h

theorem every_writeStatus_isHead (r : Nat) : (writeStatus r {}).Every fun e => e.isHead = true := fun s =>
  ⟨every_mono isHead_of_isWordWrite (every_countBeats (List.mem_singleton_self (s.sSiteNo (ringTile r))) _), trivial,
    every_mono isHead_of_isWordWrite (every_plainWriteWords (ns := []) _ _ _ _), trivial⟩

theorem every_ringHead_isHead (r : Nat) : (ringHead r {}).Every fun e => e.isHead = true := by
  simp only [ringHead, every_look, every_whenP, every_all, List.forall_mem_cons, every_eff, every_writeStatus_isHead]
  refine fun s _ _ => ⟨rfl, trivial, fun _ => ?_, by simp⟩
  split
  · exact fun _ => rfl
  · exact fun _ => rfl
  · trivial

theorem every_consumeNow_isHead (t k : Nat) : (consumeNow t k {}).Every fun e => e.isHead = true := by
  simp only [consumeNow, slotEmptied, setTag, every_all, every_look, every_eachP, every_ringHead_isHead, List.forall_mem_cons, every_eff]
  exact ⟨rfl, fun _ _ _ => trivial, by simp⟩

/-- The move of a ring's head writes a status word alone, and so leaves the tag of a slot that is not poisoned. -/
theorem tagAt_ringHead {s : State} {j : Nat} (hj : s.tagAt j ≠ 2) (r : Nat) : ((ringHead r {}).run s).tagAt j = s.tagAt j := by
  have hissue : ∀ (p : Prog) (u : State), (p.Every fun e => e.field = .issue) → (p.run u).tagAt j = u.tagAt j := fun p u hp =>
    run_keeps (g := fun u => u.tagAt j) hp (fun e u he => by unfold State.tagAt; rw [Eff.keeps_tags (by rw [he]; decide)]) u
  simp only [ringHead, run_look, run_whenP]
  split
  · split
    · rw [run_all_cons, run_all_cons, run_all_cons, run_all_nil, hissue, tagAt_writeStatus]
      · rfl
      · exact hj
      · simp only [every_whenP]
        intro _
        split
        · exact fun _ => rfl
        · exact fun _ => rfl
        · trivial
    · rfl
  · rfl

theorem tagAt_eachP_ringHead {s : State} {j : Nat} (hj : s.tagAt j ≠ 2) (xs : List (Nat × Ring)) :
    ((eachP xs fun x => ringHead x.1 {}).run s).tagAt j = s.tagAt j := by
  induction xs generalizing s with
  | nil => rfl
  | cons x xs ih =>
    have hhead := tagAt_ringHead hj x.1
    rw [run_eachP_cons, ih (by rwa [hhead]), hhead]

/-- A consumed slot is empty, whatever heads move past it. -/
theorem consumeNow_empties {s : State} (h : Tab.Canon (fun _ => 0) s.tags) (t k : Nat) : ∃ R M T S G I,
    (consumeNow t k {}).run s = { s with regs := R, mem := M, tags := T, stiles := S, rings := G, issue := I } ∧
      ({ s with tags := T } : State).slotTag t k = 0 := by
  obtain ⟨R, M, T, S, G, I, hrun⟩ := run_isHead (every_consumeNow_isHead t k) s
  have hset : ((setTag t k 0).run s).tagAt (t * 65536 + k) = 0 := (tagAt_setTag h ..).trans (if_pos rfl)
  have htag : ((consumeNow t k {}).run s).tagAt (t * 65536 + k) = 0 := by
    simp only [consumeNow, slotEmptied, run_all_cons, run_all_nil, run_look]
    rw [tagAt_eachP_ringHead (by rw [hset]; decide), hset]
  rw [hrun] at htag
  exact ⟨R, M, T, S, G, I, hrun, htag⟩

/-! ## The outcomes of synchronised accesses -/

section outcomes

variable {s : State} {t : STile} {n k : Nat} {q : Requester} {a : Access} (h : s.GrantsSlot t n q a k) (hs : s.Canonical)

include h hs

/-- A consume or a peek of a ready slot takes it once its waits have counted. -/
theorem State.GrantsSlot.run_ready {kind : SyncKind} (hk : kind ≠ .write) (hready : s.syncReady t k kind = true) (g : Nat) :
    ∃ R, (presentSync t q kind { waitBeats := g }).run s = (readSlot t n k kind q { waitBeats := g }).run { s with regs := R } ∧
      ({ s with regs := R } : State).isWide n (8 * k) = s.isWide n (8 * k) := by
  obtain ⟨R, hwaits, -, hkeep⟩ := siteCount64_counts hs.regs n 0x58 g
  refine ⟨R, (h.run_read hk _).trans ?_, isWide_of_portMap (hkeep _ (by simp [rk])) _⟩
  rw [hwaits, run_tagErrors_waits, run_look]
  exact congrArg (Prog.run · _) (if_pos hready)

/-- A wide consume of a full slot delivers and empties it. -/
theorem State.GrantsSlot.consume_wide (htag : s.slotTag t k = 1) (hpass : s.inPassage t k = false) (hwide : s.isWide n (8 * k) = true)
    (g : Nat) : ∃ u, exec (.consume t q { waitBeats := g }) s = .next u ∧
      u.out = s.out ++ [.readData n (s.wordBytes t (slotWords k)) false] ∧ u.slotTag t k = 0 ∧
      u = { s with regs := u.regs, out := u.out, tags := u.tags, mem := u.mem, rings := u.rings, issue := u.issue, stiles := u.stiles } := by
  obtain ⟨R, hrun, hmap⟩ := h.run_ready hs (kind := .consume) (by decide) (syncReady_full htag hpass (by decide)) g
  obtain ⟨R', hread⟩ := readSlot_wide (q := q) (s := { s with regs := R }) htag (hmap.trans hwide) .consume g
  obtain ⟨R'', M, T, S, G, I, hconsume, hempty⟩ := consumeNow_empties
    (s := { s with regs := R', out := s.out ++ [.readData n (s.wordBytes t (slotWords k)) false] }) hs.tags t k
  exact ⟨_, congrArg Host.Outcome.next (hrun.trans (hread.trans hconsume)), rfl, hempty, rfl⟩

/-- A wide peek delivers a full slot and leaves it. -/
theorem State.GrantsSlot.peek_wide (htag : s.slotTag t k = 1) (hpass : s.inPassage t k = false) (hwide : s.isWide n (8 * k) = true)
    (g : Nat) : ∃ u, exec (.peek t q { waitBeats := g }) s = .next u ∧
      u.out = s.out ++ [.readData n (s.wordBytes t (slotWords k)) false] ∧ u = { s with regs := u.regs, out := u.out } := by
  obtain ⟨R, hrun, hmap⟩ := h.run_ready hs (kind := .peek) (by decide) (syncReady_full htag hpass (by decide)) g
  obtain ⟨R', hread⟩ := readSlot_wide (q := q) (s := { s with regs := R }) htag (hmap.trans hwide) .peek g
  exact ⟨_, congrArg Host.Outcome.next (hrun.trans hread), rfl, rfl⟩

/-- A narrow consume reserves a full slot for its passage. -/
theorem State.GrantsSlot.consume_narrow (htag : s.slotTag t k = 1) (hpass : s.inPassage t k = false)
    (hnarrow : s.isWide n (8 * k) = false) (g : Nat) : ∃ u, exec (.consume t q { waitBeats := g }) s = .next u ∧ u.slotTag t k = 3 ∧
      u.stile t = (s.stile t).passing { who := q, kind := .consume, slot := k, bytes := s.wordBytes t (slotWords k) } ∧
      u = { s with regs := u.regs, tags := u.tags, stiles := u.stiles } := by
  obtain ⟨R, hrun, hmap⟩ := h.run_ready hs (kind := .consume) (by decide) (syncReady_full htag hpass (by decide)) g
  obtain ⟨R', hread⟩ := readSlot_narrow (q := q) (s := { s with regs := R }) htag (hmap.trans hnarrow) .consume g
  exact ⟨_, congrArg Host.Outcome.next (hrun.trans hread), (tagAt_setTag hs.tags ..).trans (if_pos rfl),
    stile_modS_self hs.stiles t fun x => x.passing { who := q, kind := .consume, slot := k, bytes := s.wordBytes t (slotWords k) }, rfl⟩

/-- A narrow peek begins its passage. -/
theorem State.GrantsSlot.peek_narrow (htag : s.slotTag t k = 1) (hpass : s.inPassage t k = false)
    (hnarrow : s.isWide n (8 * k) = false) (g : Nat) : ∃ u, exec (.peek t q { waitBeats := g }) s = .next u ∧
      u.stile t = (s.stile t).passing { who := q, kind := .peek, slot := k, bytes := s.wordBytes t (slotWords k) } ∧
      u = { s with regs := u.regs, stiles := u.stiles } := by
  obtain ⟨R, hrun, hmap⟩ := h.run_ready hs (kind := .peek) (by decide) (syncReady_full htag hpass (by decide)) g
  obtain ⟨R', hread⟩ := readSlot_narrow (q := q) (s := { s with regs := R }) htag (hmap.trans hnarrow) .peek g
  exact ⟨_, congrArg Host.Outcome.next (hrun.trans hread),
    stile_modS_self hs.stiles t fun x => x.passing { who := q, kind := .peek, slot := k, bytes := s.wordBytes t (slotWords k) }, rfl⟩

/-- A consume of an empty slot is blocked (R162). -/
theorem State.GrantsSlot.consume_blocked (htag : s.slotTag t k = 0) (g : Nat) : ∃ u, exec (.consume t q { waitBeats := g }) s = .next u ∧
      u.stile t = (s.stile t).blocking { who := q, kind := .consume, slot := k } ∧ u = { s with stiles := u.stiles, regs := u.regs } ∧
      ∀ j, j ≠ rk (0x3000 + n) 0x58 → u.regAt j = s.regAt j := by
  obtain ⟨R, hwaits, -, hkeep⟩ := siteCount64_counts hs.regs n 0x58 g
  have hrun := h.run_read (kind := .consume) (by decide) { waitBeats := g }
  have hnot : ({ s with regs := R } : State).syncReady t k .consume = false := not_syncReady_empty htag
  have htag : ({ s with regs := R } : State).slotTag t k = 0 := htag
  rw [hwaits, run_tagErrors_waits, run_look, hnot, htag] at hrun
  exact ⟨_, congrArg Host.Outcome.next hrun,
    stile_modS_self hs.stiles t fun x => x.blocking { who := q, kind := .consume, slot := k }, rfl, hkeep⟩

/-- A write of an empty slot goes on from the waits that it counts. -/
theorem State.GrantsSlot.run_write_ready (htag : s.slotTag t k = 0) (hpass : s.inPassage t k = false) (hbytes : a.bytes.length = 64) (g : Nat) :
    ∃ R, (presentSync t q .write { waitBeats := g }).run s =
        (writeSlots t n q false a.poison a.bytes [k] { waitBeats := g }).run { s with regs := R } ∧
      ({ s with regs := R } : State).Canonical ∧ ({ s with regs := R } : State).syncReady t k .write = true ∧
      ({ s with regs := R } : State).isWide n (8 * k) = s.isWide n (8 * k) := by
  obtain ⟨R, hwaits, -, hkeep⟩ := siteCount64_counts hs.regs n 0x58 g
  have hcanon := run_canonical (siteCount64 n 0x58 g) hs
  rw [hwaits] at hcanon
  refine ⟨R, ?_, hcanon, syncReady_empty htag hpass, isWide_of_portMap (hkeep _ (by simp [rk])) _⟩
  rw [h.run_write, hwaits, run_tagErrors_waits, padTo_of_length hbytes]

/-- A wide write fills an empty slot. -/
theorem State.GrantsSlot.write_wide (htag : s.slotTag t k = 0) (hpass : s.inPassage t k = false) (hbytes : a.bytes.length = 64)
    (hwide : s.isWide n (8 * k) = true) (g : Nat) : ∃ u, exec (.synchronisedWrite t q { waitBeats := g }) s = .next u ∧
      SlotWritten s u t k a.bytes a.poison ∧ u = { s with regs := u.regs, mem := u.mem, tags := u.tags, stiles := u.stiles } := by
  obtain ⟨R, hrun, hcanon, hready, hmap⟩ := h.run_write_ready hs htag hpass hbytes g
  obtain ⟨R', M, T, S, hwrite, hwritten⟩ :=
    writeSlots_fills hcanon hready (hmap.trans hwide) hbytes q a.poison { waitBeats := g }
  exact ⟨_, congrArg Host.Outcome.next (hrun.trans hwrite), ⟨hwritten.words, hwritten.tag, hwritten.others, hwritten.tile⟩, rfl⟩

/-- A narrow write reserves an empty slot for its passage. -/
theorem State.GrantsSlot.write_narrow (htag : s.slotTag t k = 0) (hpass : s.inPassage t k = false) (hbytes : a.bytes.length = 64)
    (hnarrow : s.isWide n (8 * k) = false) (g : Nat) : ∃ u, exec (.synchronisedWrite t q { waitBeats := g }) s = .next u ∧
      u.slotTag t k = 3 ∧ u.stile t = (s.stile t).passing ⟨q, .write, k, a.bytes, a.poison, [], false⟩ ∧
      u = { s with regs := u.regs, tags := u.tags, stiles := u.stiles } := by
  obtain ⟨R, hrun, hcanon, hready, hmap⟩ := h.run_write_ready hs htag hpass hbytes g
  obtain ⟨R', T, S, hwrite, htags, htile⟩ :=
    writeSlots_reserves hcanon hready (hmap.trans hnarrow) a.bytes q a.poison { waitBeats := g }
  exact ⟨_, congrArg Host.Outcome.next (hrun.trans hwrite), (htags _).trans (if_pos rfl), htile, rfl⟩

end outcomes

/-! ## Address generators (R157, R159) -/

/-- What an address generator's record says of its position: the next record, the one it runs and the unit it is at. -/
def AgState.place (g : AgState) : Nat × Option (List Nat) × Nat := (g.recIx, g.cur, g.unit)

theorem stile_modAg {s : State} (h : Tab.Canon (fun _ => ({} : SCore)) s.stiles) (t k : Nat) (f : AgState → AgState) :
    ((modAg t k f).run s).stile t = { s.stile t with ags := (s.stile t).ags.set k (f (s.ag t k)) } :=
  stile_modS_self h t fun x => { x with ags := x.ags.set k (f (x.ags.getD k {})) }

theorem ag_modAg {s : State} (h : Tab.Canon (fun _ => ({} : SCore)) s.stiles) {t k : Nat} (hk : k < (s.stile t).ags.length)
    (f : AgState → AgState) : ((modAg t k f).run s).ag t k = f (s.ag t k) := by
  rw [State.ag, stile_modAg h]
  simp [hk]

theorem length_ags_modAg {s : State} (h : Tab.Canon (fun _ => ({} : SCore)) s.stiles) (t k : Nat) (f : AgState → AgState) :
    (((modAg t k f).run s).stile t).ags.length = (s.stile t).ags.length := by
  rw [stile_modAg h, List.length_set]

/-- The generator once it has moved on by `m` units of record `ws`. -/
def AgState.advanced (ws : List Nat) (m : Nat) (g : AgState) : AgState :=
  if g.unit + m < srUnits ws then { g with unit := g.unit + m, blocked := false } else { recIx := g.recIx + 1 }

/-- A generator that runs record `ws` moves on in it, or completes it. -/
theorem ag_agAdvance {s : State} (h : Tab.Canon (fun _ => ({} : SCore)) s.stiles) {t k : Nat} (hk : k < (s.stile t).ags.length)
    {ws : List Nat} (hcur : (s.ag t k).cur = some ws) (m : Nat) : ((agAdvance t k m).run s).ag t k = (s.ag t k).advanced ws m := by
  rw [agAdvance, ag_modAg h hk]
  generalize s.ag t k = g at hcur ⊢
  obtain ⟨_, _, _, _, _, _⟩ := g
  subst hcur
  rfl

theorem place_agAdvance {s : State} (h : Tab.Canon (fun _ => ({} : SCore)) s.stiles) {t k : Nat} (hk : k < (s.stile t).ags.length)
    {r i : Nat} {ws : List Nat} (hplace : (s.ag t k).place = (r, some ws, i)) (m : Nat) :
    (((agAdvance t k m).run s).ag t k).place = if i + m < srUnits ws then (r, some ws, i + m) else (r + 1, none, 0) := by
  obtain ⟨rfl, hrest⟩ := Prod.mk.inj hplace
  obtain ⟨hcur, rfl⟩ := Prod.mk.inj hrest
  rw [ag_agAdvance h hk hcur, AgState.advanced, AgState.place, ← hcur]
  split <;> rfl

/-- A move of a generator changes nothing else of the tile's record. -/
theorem stile_agAdvance {s : State} (h : Tab.Canon (fun _ => ({} : SCore)) s.stiles) (t k m : Nat) :
    ∃ xs, ((agAdvance t k m).run s).stile t = { s.stile t with ags := xs } := ⟨_, stile_modAg h t k _⟩

/-- The record that a generator runs, and the site that serves its tile. -/
theorem agRecord_eq_some {s : State} {t k n i : Nat} {ws : List Nat} (h : s.agRecord t k = some (n, ws, i)) :
    s.sSite t = some n ∧ (s.ag t k).cur = some ws ∧ (s.ag t k).unit = i := by
  unfold State.agRecord at h
  split at h
  · rename_i m vs hsite hcur
    split at h
    · obtain ⟨rfl, rfl, rfl⟩ : m = n ∧ vs = ws ∧ (s.ag t k).unit = i := by simpa using h
      exact ⟨hsite, hcur, rfl⟩
    · cases h
  · cases h

theorem siteCount32_frame (n j d : Nat) (s : State) : ∃ R, (siteCount32 n j d).run s = { s with regs := R } := by
  rw [siteCount32, run_whenP]
  split
  · exact ⟨_, rfl⟩
  · exact ⟨s.regs, rfl⟩

/-- The beats of a unit that is read without errors count, and a striped stream notes its present beat, in which the generator keeps
its place. -/
theorem run_agBeat_read (t k n : Nat) (ws : List Nat) (u g : Nat) (s : State) :
    (∃ R, (agBeat t k n ws u true { waitBeats := g }).run s = { s with regs := R }) ∨
      ∃ R f, (∀ x : AgState, (f x).place = x.place) ∧
        (agBeat t k n ws u true { waitBeats := g }).run s = { (modAg t k f).run s with regs := R } := by
  simp only [agBeat, run_look, run_ite]
  split
  · obtain ⟨R, hbeats, -⟩ := countBeats_counts n (s.unitWords t ws u) s
    refine .inl ⟨R, ?_⟩
    simp only [run_seq, run_whenP, if_true, hbeats, run_readErrors_clean]
  · split
    · exact .inr ⟨s.regs, fun x => { x with inBeat := x.inBeat + 1, late := x.late || false }, fun _ => rfl, rfl⟩
    · obtain ⟨R, hsplit⟩ := siteCount32_frame n 0x57
        (if decide (0 < (s.ag t k).inBeat ∧ (s.ag t k).inBeat < 4 ∧ s.srAddr t ws u / 8 = s.srAddr t ws (u - 1) / 8 + 1) then 1 else 0) s
      obtain ⟨R', hbeats, -⟩ := countBeats_counts n (s.unitWords t ws u)
        ((modAg t k fun x => { x with inBeat := 1, late := false }).run { s with regs := R })
      refine .inr ⟨R', fun x => { x with inBeat := 1, late := false }, fun _ => rfl, ?_⟩
      simp only [run_all_cons, run_all_nil, run_whenP, if_true, hsplit, List.any_nil, Bool.and_false, hbeats, run_readErrors_clean]
      rfl

/-- The generator's place, and the number of generators, are as before once a unit's beats have counted. -/
theorem agBeat_keeps {s : State} (h : s.Canonical) {t k : Nat} (hk : k < (s.stile t).ags.length) (n : Nat) (ws : List Nat) (u g : Nat) :
    ∃ R S, (agBeat t k n ws u true { waitBeats := g }).run s = { s with regs := R, stiles := S } ∧
      (({ s with stiles := S } : State).ag t k).place = (s.ag t k).place ∧
      (({ s with stiles := S } : State).stile t).ags.length = (s.stile t).ags.length := by
  rcases run_agBeat_read t k n ws u g s with ⟨R, hrun⟩ | ⟨R, f, hf, hrun⟩
  · exact ⟨R, s.stiles, hrun, rfl, rfl⟩
  · exact ⟨R, _, hrun, (congrArg AgState.place (ag_modAg h.stiles hk f)).trans (hf _), length_ags_modAg h.stiles t k f⟩

theorem bondOf_pushOut {s : State} (h : Tab.Canon (fun _ => ({} : BondTile)) s.bond) (n k : Nat) (ts : List Transfer) (j : Nat) :
    ((pushOut n k ts).run s).bondOf j = if j = n then
      { s.bondOf n with engineOut := (s.bondOf n).engineOut.set k ((s.bondOf n).engineOut.getD k [] ++ ts) } else s.bondOf j :=
  Tab.get_set h.1 ..

/-- Transfers that enter a free output stand there alone. -/
theorem engineOut_pushOut {s : State} (h : Tab.Canon (fun _ => ({} : BondTile)) s.bond) {n k : Nat} (hfree : s.outFree n k = true)
    (hk : k < (s.bondOf n).engineOut.length) (ts : List Transfer) : (((pushOut n k ts).run s).bondOf n).engineOut.getD k [] = ts := by
  have hempty : (s.bondOf n).engineOut.getD k [] = [] := List.isEmpty_iff.mp hfree
  rw [bondOf_pushOut h, if_pos rfl, hempty]
  simp [hk]

/-- A generator's plain read of a unit puts it into its output and moves on. -/
theorem agRead_sends {s : State} (hs : s.Canonical) {t : STile} {k : Fin 4} {n i : Nat} {ws : List Nat}
    (hrec : s.agRecord t k = some (n, ws, i)) (hmode : srMode ws = 0) (hfree : s.outFree n (srPortOf ws i) = true)
    (hport : srPortOf ws i < (s.bondOf n).engineOut.length) (hags : (s.stile t).ags.length = 4) (hsaved : s.agSaved t ws i = none)
    (g : Nat) : ∃ u, exec (.plainRead t (.ag k) { waitBeats := g }) s = .next u ∧
      (u.bondOf n).engineOut.getD (srPortOf ws i) [] =
        unitTransfers (srPort ws != 0) (s.slotsPoisoned t (s.unitWords t ws i)) (s.wordBytes t (s.unitWords t ws i)) ∧
      ((u.ag t k).recIx, (u.ag t k).cur, (u.ag t k).unit) =
        (if i + 1 < srUnits ws then ((s.ag t k).recIx, some ws, i + 1) else ((s.ag t k).recIx + 1, none, 0)) ∧
      u = { s with regs := u.regs, bond := u.bond, stiles := u.stiles } := by
  obtain ⟨-, hcur, hunit⟩ := agRecord_eq_some hrec
  obtain ⟨R, hwaits, -, -⟩ := siteCount64_counts hs.regs n 0x58 g
  have hcanon := run_canonical (siteCount64 n 0x58 g) hs
  rw [hwaits] at hcanon
  have hk : k.val < (s.stile t).ags.length := by rw [hags]; exact k.isLt
  obtain ⟨R', S, hbeat, hkept, hlen⟩ := agBeat_keeps (s := { s with regs := R }) hcanon hk n ws i g
  have hcanon' := run_canonical (agBeat t k n ws i true { waitBeats := g }) hcanon
  rw [hbeat] at hcanon'
  have hplace : (s.ag t k).place = ((s.ag t k).recIx, some ws, i) := by rw [AgState.place, hcur, hunit]
  have hrun : (plainReadProg t (.ag k) { waitBeats := g }).run s = (agAdvance t k 1).run ((pushOut n (srPortOf ws i)
      (unitTransfers (srPort ws != 0) (s.slotsPoisoned t (s.unitWords t ws i)) (s.wordBytes t (s.unitWords t ws i)))).run
        { s with regs := R', stiles := S }) := by
    simp only [plainReadProg, run_look, hrec, run_withP_some, hmode, beq_self_eq_true, run_whenP, if_true, agRead, hsaved, hfree,
      run_all_cons, run_all_nil, hwaits, run_tagErrors_waits, hbeat]
    rfl
  exact ⟨_, congrArg Host.Outcome.next hrun, engineOut_pushOut hcanon'.bond hfree hport _,
    place_agAdvance (s := (pushOut n _ _).run { s with regs := R', stiles := S }) hcanon'.stiles (hk.trans_eq hlen.symm)
      (hkept.trans hplace) 1, rfl⟩

/-- Settles O43: each access has its lemma above; a synchronised one is that of a granted slot. -/
theorem scratchpadAccesses : Obligations.ScratchpadAccesses := by
  intro s t n hs hsite
  refine ⟨fun q a ws g hasks htaken hdecodes hunsaved hws hlen => ?_, fun k ws i g hrec hmode hfree hport hags hsaved =>
    agRead_sends hs hrec hmode hfree hport hags hsaved g⟩
  have h : s.Grants t n q a ws := ⟨hsite, hasks, htaken, hdecodes, hunsaved⟩
  refine ⟨?read, ?write, fun k hengine hoff hwhole hk => ?slot⟩
  case read =>
    obtain ⟨R, hrun, hwaits⟩ := h.plainRead_delivers hs g
    exact ⟨_, congrArg Host.Outcome.next hrun, hwaits, rfl, rfl⟩
  case write =>
    obtain ⟨R, M, T, S, hrun, hwritten⟩ := h.plainWrite_stores hs hws hlen g
    exact ⟨_, congrArg Host.Outcome.next hrun, hwritten.words.1, hwritten.words.2, hwritten.tags, hwritten.others, rfl⟩
  case slot =>
    subst hk
    have hslot : s.GrantsSlot t n q a k := ⟨h, hengine, hoff, hwhole⟩
    have hbytes : a.bytes.length = 64 := hlen.trans hwhole
    refine ⟨fun htag hpass => ⟨fun hwide => hslot.consume_wide hs htag hpass hwide g, fun hwide => hslot.peek_wide hs htag hpass hwide g,
      fun hnarrow => hslot.consume_narrow hs htag hpass hnarrow g, fun hnarrow => hslot.peek_narrow hs htag hpass hnarrow g⟩,
      fun htag hpass => ⟨fun hwide => ?_, fun hnarrow => hslot.write_narrow hs htag hpass hbytes hnarrow g⟩,
      fun htag => hslot.consume_blocked hs htag g⟩
    obtain ⟨u, hexec, hwritten, hframe⟩ := hslot.write_wide hs htag hpass hbytes hwide g
    exact ⟨u, hexec, hwritten.words.1, hwritten.tag, hwritten.words.2, hwritten.others, hframe⟩

end Sys2Proof.Machine

/-! SUPPORT. Blocked accesses, passages, write-backs, the patrol, stream records and memory operations of an S-tile (O44; R157, R159,
R161 to R165, R168, R169, R273). -/

namespace Sys2Proof.Machine

open Sys2Proof

/-! ## Retries of blocked accesses (R162, R273) -/

/-- The tile's record once its blocked access `i` is no longer held. -/
def SCore.unblocked (x : SCore) (i : Nat) : SCore := { x with blocked := x.blocked.eraseIdx i }

theorem run_nextGate_of_none {s : State} {t : Nat} (h : (s.stile t).gates = []) (e : Ecc) : (nextGate t e).run s = s := by
  simp [nextGate, h]

theorem blockedReady_of_plain {b : Blocked} (hmsg : b.msg = false) (s : State) (t : Nat) :
    s.blockedReady t b = s.syncReady t b.slot b.kind := by
  simp [State.blockedReady, hmsg]

/-- A packet's write of slot `k`, of the bytes `bs` alone, blocked where it last met tag `tag`. -/
def blockedWrite (a : Access) (k : Nat) (bs : List Byte) (poison : Bool) (tag : Nat) : Blocked :=
  ⟨.ingress a, .write, k, bs, poison, [], false, tag⟩

section retry

variable {s : State} {t : STile} {n i k tag : Nat} {a : Access} {bs : List Byte} {poison : Bool} (hs : s.Canonical)
  (hsite : s.sSite t = some n) (hblocked : (s.stile t).blocked[i]? = some (blockedWrite a k bs poison tag))

include hs hsite hblocked

/-- A retry counts the beats for which the write was blocked, and then performs it or keeps it. -/
theorem run_blockedRetry_write (beats : Nat) : ∃ R, (blockedRetryProg t i beats {}).run s =
      (if s.syncReady t k .write = true then (all [
          modS t fun x => x.unblocked i, writeSlots t n (.ingress a) false poison bs [k] {}, nextGate t {}]).run { s with regs := R }
        else (modS t fun x => { x with blocked := x.blocked.set i (blockedWrite a k bs poison (s.slotTag t k)) }).run { s with regs := R }) ∧
      (0 < beats → ({ s with regs := R } : State).reg (0x3000 + n) 0x53 = satAdd 64 (s.reg (0x3000 + n) 0x53) beats) ∧
      (∀ j, j ≠ rk (0x3000 + n) 0x53 → ({ s with regs := R } : State).regAt j = s.regAt j) ∧ ({ s with regs := R } : State).Canonical := by
  obtain ⟨R, hbeats, hcount, hkeep⟩ := siteCount64_counts hs.regs n 0x53 beats
  have hcanon := run_canonical (siteCount64 n 0x53 beats) hs
  rw [hbeats] at hcanon
  refine ⟨R, ?_, hcount, hkeep, hcanon⟩
  rw [← run_ite]
  simp only [blockedRetryProg, run_look, hblocked, hsite, run_withP_some, run_all_cons, run_all_nil, hbeats]
  rw [blockedReady_of_plain rfl]
  rfl

/-- A retry of a write whose slot is empty begins from a state in which the slot is ready and the access no longer held. -/
theorem run_blockedRetry_ready (hready : s.syncReady t k .write = true) (beats : Nat) :
    ∃ R, (blockedRetryProg t i beats {}).run s = (nextGate t {}).run ((writeSlots t n (.ingress a) false poison bs [k] {}).run
        ((modS t fun x => x.unblocked i).run { s with regs := R })) ∧
      ((modS t fun x => x.unblocked i).run { s with regs := R }).Canonical ∧
      ((modS t fun x => x.unblocked i).run { s with regs := R }).stile t = (s.stile t).unblocked i ∧
      ((modS t fun x => x.unblocked i).run { s with regs := R }).syncReady t k .write = true ∧
      ((modS t fun x => x.unblocked i).run { s with regs := R }).isWide n (8 * k) = s.isWide n (8 * k) := by
  obtain ⟨R, hrun, -, hkeep, hcanon⟩ := run_blockedRetry_write hs hsite hblocked beats
  have htile := stile_modS_self (s := { s with regs := R }) hs.stiles t fun x => x.unblocked i
  refine ⟨R, hrun.trans (if_pos hready), run_canonical _ hcanon, htile, ?_, isWide_of_portMap (hkeep _ (by simp [rk])) _⟩
  exact (syncReady_congr (s := s) (u := (modS t fun x => x.unblocked i).run { s with regs := R }) rfl
    (congrArg SCore.passages htile :) .write).trans hready

/-- A retry of a wide write whose slot is empty performs it. -/
theorem blockedRetry_fills (hbs : bs.length = 64) (hgates : (s.stile t).gates = []) (hready : s.syncReady t k .write = true)
    (hwide : s.isWide n (8 * k) = true) (beats : Nat) : ∃ u, exec (.blockedAccessRetry t i beats {}) s = .next u ∧
      u.wordBytes t (slotWords k) = bs ∧ u.slotTag t k = (if poison then 2 else 1) ∧
      (u.stile t).blocked = (s.stile t).blocked.eraseIdx i ∧
      u = { s with regs := u.regs, mem := u.mem, tags := u.tags, stiles := u.stiles } := by
  obtain ⟨R, hrun, hcanon, htile, hready, hmap⟩ := run_blockedRetry_ready hs hsite hblocked hready beats
  obtain ⟨R', M, T, S, hwrite, hwritten⟩ := writeSlots_fills hcanon hready (hmap.trans hwide) hbs (.ingress a) poison {}
  have htile := hwritten.tile.trans (congrArg (SCore.rewritten (slotWords k)) htile)
  rw [hwrite, run_nextGate_of_none ((congrArg SCore.gates htile).trans hgates)] at hrun
  exact ⟨_, congrArg Host.Outcome.next hrun, hwritten.words.1, hwritten.tag, congrArg SCore.blocked htile, rfl⟩

/-- A retry of a narrow write whose slot is empty begins its passage. -/
theorem blockedRetry_reserves (hgates : (s.stile t).gates = []) (hready : s.syncReady t k .write = true)
    (hnarrow : s.isWide n (8 * k) = false) (beats : Nat) : ∃ u, exec (.blockedAccessRetry t i beats {}) s = .next u ∧
      u.slotTag t k = 3 ∧ u.stile t = ((s.stile t).unblocked i).passing ⟨.ingress a, .write, k, bs, poison, [], false⟩ ∧
      u = { s with regs := u.regs, tags := u.tags, stiles := u.stiles } := by
  obtain ⟨R, hrun, hcanon, htile, hready, hmap⟩ := run_blockedRetry_ready hs hsite hblocked hready beats
  obtain ⟨R', T, S, hwrite, htags, hpassing⟩ := writeSlots_reserves hcanon hready (hmap.trans hnarrow) bs (.ingress a) poison {}
  have hpassing := hpassing.trans (congrArg (SCore.passing · ⟨.ingress a, .write, k, bs, poison, [], false⟩) htile)
  rw [hwrite, run_nextGate_of_none ((congrArg SCore.gates hpassing).trans hgates)] at hrun
  exact ⟨_, congrArg Host.Outcome.next hrun, (htags _).trans (if_pos rfl), hpassing, rfl⟩

/-- A retry of a write whose slot is not ready counts its beats and notes the tag that it met. -/
theorem blockedRetry_waits (hready : s.syncReady t k .write = false) {beats : Nat} (hbeats : 0 < beats) :
    ∃ u, exec (.blockedAccessRetry t i beats {}) s = .next u ∧
      u.reg (0x3000 + n) 0x53 = satAdd 64 (s.reg (0x3000 + n) 0x53) beats ∧
      u.stile t = { s.stile t with blocked := (s.stile t).blocked.set i (blockedWrite a k bs poison (s.slotTag t k)) } ∧
      u = { s with regs := u.regs, stiles := u.stiles } ∧ ∀ j, j ≠ rk (0x3000 + n) 0x53 → u.regAt j = s.regAt j := by
  obtain ⟨R, hrun, hcount, hkeep, -⟩ := run_blockedRetry_write hs hsite hblocked beats
  rw [if_neg (by rw [hready]; decide)] at hrun
  exact ⟨_, congrArg Host.Outcome.next hrun, hcount hbeats, stile_modS_self (s := { s with regs := R }) hs.stiles t
    fun x => { x with blocked := x.blocked.set i (blockedWrite a k bs poison (s.slotTag t k)) }, rfl, hkeep⟩

end retry

/-- The beats of a consume blocked at an empty slot of a receive ring are stall beats of the partner ring (R273). -/
theorem blockedRetry_stalls {s : State} (hs : s.Canonical) {t : STile} {n i : Nat} (hsite : s.sSite t = some n) {b : Blocked}
    {r : Nat × Ring} (hblocked : (s.stile t).blocked[i]? = some b) (hkind : b.kind = .consume) (htag : b.tag = 0) (hmsg : b.msg = false)
    (hring : (s.tileRings t).find? (fun x => decide (rdKind x.2.desc = 2 ∧ rdSlot x.2.desc ≤ b.slot ∧
      b.slot < rdSlot x.2.desc + rdSlots x.2.desc)) = some r) (hready : s.syncReady t b.slot .consume = false) (beats : Nat) :
    ∃ u, exec (.blockedAccessRetry t i beats {}) s = .next u ∧
      u.ring (rdPartner r.2.desc) = { s.ring (rdPartner r.2.desc) with
        receiverStall := satAdd 64 (s.ring (rdPartner r.2.desc)).receiverStall beats } ∧
      (∀ r', r' ≠ rdPartner r.2.desc → u.ring r' = s.ring r') ∧ u = { s with regs := u.regs, rings := u.rings, stiles := u.stiles } := by
  obtain ⟨R, hbeats, -, -⟩ := siteCount64_counts hs.regs n 0x53 beats
  have hcanon := run_canonical (siteCount64 n 0x53 beats) hs
  rw [hbeats] at hcanon
  have hrun : (blockedRetryProg t i beats {}).run s =
      (modS t fun x => { x with blocked := x.blocked.set i { b with tag := s.slotTag t b.slot } }).run
        ((modRing (rdPartner r.2.desc) fun x => { x with receiverStall := satAdd 64 x.receiverStall beats }).run { s with regs := R }) := by
    simp only [blockedRetryProg, run_look, hblocked, hsite, hring, run_withP_some, run_all_cons, run_all_nil, hbeats, hkind, htag,
      beq_self_eq_true, run_whenP, if_true]
    rw [blockedReady_of_plain hmsg, hkind]
    exact congrArg (Prog.run · _) (if_neg (by rw [← Bool.not_eq_true] at hready; exact hready))
  have hrings := ring_modRing hcanon (rdPartner r.2.desc) fun x => { x with receiverStall := satAdd 64 x.receiverStall beats }
  exact ⟨_, congrArg Host.Outcome.next hrun, (hrings _).trans (if_pos rfl), fun r' hr => (hrings r').trans (if_neg hr), rfl⟩

/-! ## The end of a passage (R161) -/

/-- The tile's record once the passages of slot `k` have ended. -/
def SCore.withoutPassage (k : Nat) (x : SCore) : SCore := { x with passages := x.passages.filter fun q => decide (q.slot ≠ k) }

/-- The end of a generator's narrow write passage stores its bytes, gives the slot its final tag and moves the generator on. -/
theorem slotPassageEnd_writes {s : State} (hs : s.Canonical) {t : STile} {n : Nat} (hsite : s.sSite t = some n) {k : Fin 4} {slot : Nat}
    {bs : List Byte} {poison : Bool} {ws : List Nat} (hpass : (s.stile t).passages = [⟨.ag k, .write, slot, bs, poison, [], false⟩])
    (hbs : bs.length = 64) (hags : (s.stile t).ags.length = 4) (hcur : (s.ag t k).cur = some ws) (hup : s.sHalted t = false)
    (hgates : (s.stile t).gates = []) : ∃ u, exec (.slotPassageEnd t slot {}) s = .next u ∧
      (u.stile t).passages = [] ∧ u.slotTag t slot = (if poison then 2 else 1) ∧ u.wordBytes t (slotWords slot) = bs ∧
      ((u.ag t k).recIx, (u.ag t k).cur, (u.ag t k).unit, (u.ag t k).blocked) = (if (s.ag t k).unit + 8 < srUnits ws
        then ((s.ag t k).recIx, some ws, (s.ag t k).unit + 8, false) else ((s.ag t k).recIx + 1, none, 0, false)) ∧
      u = { s with mem := u.mem, tags := u.tags, stiles := u.stiles } := by
  have hended := stile_modS_self hs.stiles t fun x => x.withoutPassage slot
  have hcanon := run_canonical (modS t fun x => x.withoutPassage slot) hs
  obtain ⟨M, T, S, hwrite, hwritten⟩ := syncWriteNow_writes hcanon t slot hbs poison
  have hcanon' := run_canonical (syncWriteNow t slot false bs poison) hcanon
  rw [hwrite] at hcanon'
  have htile := hwritten.tile.trans (congrArg (SCore.rewritten (slotWords slot)) hended)
  have hag : ({ (modS t fun x => x.withoutPassage slot).run s with mem := M, tags := T, stiles := S } : State).ag t k = s.ag t k :=
    (congrArg (fun x : SCore => x.ags.getD k {}) htile :)
  have hk : k.val < (({ (modS t fun x => x.withoutPassage slot).run s with mem := M, tags := T, stiles := S } : State).stile t).ags.length :=
    (k.isLt.trans_eq hags.symm).trans_eq (congrArg (fun x : SCore => x.ags.length) htile :).symm
  have hmoved := ag_agAdvance hcanon'.stiles hk ((congrArg AgState.cur hag).trans hcur) 8
  obtain ⟨xs, hadvanced⟩ := stile_agAdvance hcanon'.stiles t k 8
  rw [htile] at hadvanced
  have hrun : (passageEndProg t slot {}).run s = (nextGate t {}).run ((agAdvance t k 8).run
      { (modS t fun x => x.withoutPassage slot).run s with mem := M, tags := T, stiles := S }) := by
    simp only [passageEndProg, run_look, hpass, hsite, hup, List.find?_cons, decide_true, run_withP_some, run_whenP, Bool.not_false, if_true,
      run_all_cons, run_all_nil, List.take_of_length_le hbs.le]
    change (nextGate t {}).run ((withP (((syncWriteNow t slot false bs poison).run
      ((modS t fun x => x.withoutPassage slot).run s)).ag t k).cur _).run ((syncWriteNow t slot false bs poison).run
        ((modS t fun x => x.withoutPassage slot).run s))) = _
    rw [hwrite, hag, hcur]
    rfl
  rw [run_nextGate_of_none ((congrArg SCore.gates hadvanced).trans hgates)] at hrun
  refine ⟨_, congrArg Host.Outcome.next hrun, (congrArg SCore.passages hadvanced).trans ?_, hwritten.tag, hwritten.words.1, ?_, rfl⟩
  · simp [SCore.rewritten, SCore.withoutPassage, hpass]
  · rw [hmoved, hag, AgState.advanced, ← hcur]
    split <;> rfl

/-! ## Write-backs, the patrol and stream records (R157, R159, R163 to R165) -/

/-- A command that changes only the tile's own record leaves that of every other tile. -/
theorem modS_changes {s : State} (hs : s.Canonical) (t : STile) (f : SCore → SCore) : ((modS t f).run s).stile t = f (s.stile t) ∧
    (∀ j, j ≠ t.val → ((modS t f).run s).stile j = s.stile j) ∧ (modS t f).run s = { s with stiles := ((modS t f).run s).stiles } :=
  ⟨stile_modS_self hs.stiles t f, fun j hj => (stile_modS hs.stiles t f j).trans (if_neg hj), rfl⟩

/-- A patrol that finds no error moves to the bank's next slot. -/
theorem run_patrol_clean {s : State} {t : STile} {n : Nat} (hsite : s.sSite t = some n) (hon : s.reg 0x29E0 0x01 ≠ 0) (bank : Fin 32) :
    (patrolProg t bank {}).run s =
      (modS t fun x => { x with patrol := x.patrol.set bank (((s.stile t).patrol.getD bank 0 + 1) % 2048) }).run s := by
  simp only [patrolProg, run_look, hon, ne_eq, not_false_eq_true, decide_true, run_whenP, if_true, hsite, run_withP_some]
  rfl

/-- A generator that runs no record begins the next of its plan's list. -/
theorem streamRecordStart_begins {s : State} (hs : s.Canonical) {t : STile} {n : Nat} (hsite : s.sSite t = some n) {k : Fin 4} {p : TilePlan}
    {ws : List Nat} (hplan : s.planOf n = some p) (hunit : s.unitProgram n = none) (hup : (s.mtile n).halted = false)
    (hidle : (s.ag t k).cur = none) (hags : (s.stile t).ags.length = 4) (hnext : (p.streams.getD k [])[(s.ag t k).recIx]? = some ws) :
    ∃ u, exec (.streamRecordStart t k) s = .next u ∧
      u.ag t k = (if srUnits ws = 0 then { recIx := (s.ag t k).recIx + 1 } else { recIx := (s.ag t k).recIx, cur := some ws }) ∧
      (∀ j, j ≠ t.val → u.stile j = s.stile j) ∧ u = { s with stiles := u.stiles } := by
  have hk : k.val < (s.stile t).ags.length := by rw [hags]; exact k.isLt
  have hrecord : s.streamRecord n k (s.ag t k).recIx = some ws := by simp only [State.streamRecord, hunit, hplan, hnext]
  have hrun : (streamStartProg t k).run s = (if srUnits ws = 0 then modAg t k fun x => { recIx := x.recIx + 1 }
      else modAg t k fun x => { recIx := x.recIx, cur := some ws }).run s := by
    simp only [streamStartProg, run_look, hsite, run_withP_some, hup, Bool.not_false, run_whenP, if_true, hidle, hrecord]
  rw [run_ite] at hrun
  split at hrun
  · rename_i hempty
    rw [if_pos hempty]
    exact ⟨_, congrArg Host.Outcome.next hrun, ag_modAg hs.stiles hk _, (modS_changes hs t _).2⟩
  · rename_i hsome
    rw [if_neg hsome]
    exact ⟨_, congrArg Host.Outcome.next hrun, ag_modAg hs.stiles hk _, (modS_changes hs t _).2⟩

/-! ## Memory operations (R168, R169) -/

/-- Memory operation `m` of context `c` is the next record of the plan of S-tile `t`, which site `n` serves; it reaches no save area. -/
structure State.NextMemop (s : State) (t n c : Nat) (m : MemRec) : Prop where
  site : s.sSite t = some n
  record : ∃ r p ws, s.active n = some r ∧ r.ctx = c ∧ s.planOf n = some p ∧ p.recs[(s.stile t).memIx]? = some ws ∧ memRecOf ws = m
  up : s.sHalted t = false
  unsaved : s.memSaved t m = none

/-- The tile's record once a memory operation has been done. -/
def SCore.nextMemop (x : SCore) : SCore := { x with memIx := x.memIx + 1 }

/-- The operation is performed, its waits count, and the next record follows. -/
theorem State.NextMemop.run {s : State} {t n c : Nat} {m : MemRec} (h : s.NextMemop t n c m) (e : Ecc) :
    (memopProg t m.op e).run s =
      (modS t SCore.nextMemop).run ((siteCount64 n 0x58 e.waitBeats).run ((memOperation t n c m e).run s)) := by
  obtain ⟨r, p, ws, hactive, rfl, hplan, hrec, rfl⟩ := h.record
  simp only [memopProg, run_look, h.site, hactive, hplan, hrec, run_withP_some, h.up, h.unsaved, beq_self_eq_true, Bool.not_false, Bool.and_self,
    run_whenP, if_true]
  rfl

/-- An operation without a tag action changes no tag besides its writes. -/
theorem run_tagActions_none {m : MemRec} (hm : m.tagAction = 0) (t : Nat) (old s : State) : (tagActions t m old).run s = s := by
  unfold tagActions
  exact run_eachP_id fun k _ => by rw [hm]; rfl

/-- The words of a range. -/
def rangeWords (a n : Nat) : List Nat := (List.range n).map fun i => a + i

@[simp] theorem length_rangeWords (a n : Nat) : (rangeWords a n).length = n := by simp [rangeWords]

@[simp] theorem getElem_rangeWords {a n i : Nat} (hi : i < (rangeWords a n).length) : (rangeWords a n)[i] = a + i := by simp [rangeWords]

theorem nodup_rangeWords (a n : Nat) : (rangeWords a n).Nodup := List.nodup_range.map fun _ _ h => Nat.add_left_cancel h

theorem mem_rangeWords {a n w : Nat} : w ∈ rangeWords a n ↔ ∃ i < n, a + i = w := by simp [rangeWords]

/-- What words of a range hold after the range was written: item `i` of the bytes, 8 to the word. -/
theorem PlainWritten.bytesAt {s u : State} {t a n : Nat} {bs : List Byte} {poison : Bool} (h : PlainWritten s u t (rangeWords a n) bs poison)
    {i : Nat} (hi : i < n) : u.bytesAt (wordAddr t (a + i)) 8 = (bs.drop (8 * i)).take 8 := by
  have hlt : i < (rangeWords a n).length := by simpa using hi
  have hword := bytesAt_getElem u t hlt
  rwa [getElem_rangeWords, h.words.1] at hword

/-- The rest of memory is as before a write of a range. -/
theorem PlainWritten.readByte {s u : State} {t a n : Nat} {bs : List Byte} {poison : Bool} (h : PlainWritten s u t (rangeWords a n) bs poison)
    {b : Nat} (hb : ∀ i, i < n → b < wordAddr t (a + i) ∨ wordAddr t (a + i) + 8 ≤ b) : readByte u.mem b = readByte s.mem b :=
  h.words.2 b fun w hw => by
    obtain ⟨i, hi, rfl⟩ := mem_rangeWords.mp hw
    exact hb i hi

/-- The bytes of a fill. -/
def fillBytes (m : MemRec) : List Byte := (List.replicate m.len (toBytes 8 m.fill)).flatten

theorem fillBytes_eq (m : MemRec) (a : Nat) : fillBytes m = (rangeWords a m.len).flatMap fun _ => toBytes 8 m.fill := by
  simp [fillBytes, List.flatMap_def, List.map_const']

theorem length_fillBytes (m : MemRec) (a : Nat) : (fillBytes m).length = 8 * (rangeWords a m.len).length := by
  rw [fillBytes_eq m a, length_flatMap_const fun _ => toBytes_length ..]

theorem take_drop_fillBytes {m : MemRec} {i : Nat} (hi : i < m.len) : ((fillBytes m).drop (8 * i)).take 8 = toBytes 8 m.fill := by
  have hlt : i < (rangeWords 0 m.len).length := by simpa using hi
  rw [fillBytes_eq m 0, take_drop_flatMap (fun _ => toBytes_length 8 m.fill) hlt]

/-- A fill without a tag action is a plain write of its range. -/
theorem memOperation_fills {s : State} (hs : s.Canonical) {m : MemRec} (hop : m.op = 1) (htag : m.tagAction = 0) (t n c g : Nat) :
    ∃ R M T S, (memOperation t n c m { waitBeats := g }).run s = { s with regs := R, mem := M, tags := T, stiles := S } ∧
      PlainWritten s { s with regs := R, mem := M, tags := T, stiles := S } t (rangeWords m.dst m.len) (fillBytes m) false := by
  obtain ⟨R, hbeats, -⟩ := countBeats_counts n (rangeWords m.dst m.len) s
  have hcanon := run_canonical (countBeats n (rangeWords m.dst m.len)) hs
  rw [hbeats] at hcanon
  obtain ⟨M, T, S, hwrite, hwritten⟩ :=
    plainWriteWords_writes hcanon t (nodup_rangeWords m.dst m.len) (length_fillBytes m m.dst) false
  have hrun : (memOperation t n c m { waitBeats := g }).run s = (tagActions t m s).run
      ((plainWriteWords t (rangeWords m.dst m.len) (fillBytes m) false).run ((countBeats n (rangeWords m.dst m.len)).run s)) := by
    simp only [memOperation, run_look, hop, htag, if_true, run_all_cons, run_all_nil]
    rfl
  rw [hbeats, hwrite, run_tagActions_none htag] at hrun
  exact ⟨R, M, T, S, hrun, hwritten.words, hwritten.tags, hwritten.others, hwritten.tile⟩

/-- The words of a copy whose source is poisoned. -/
def poisonedTargets (s : State) (t : Nat) (m : MemRec) : List Nat :=
  slotsOf (((rangeWords m.src m.len).zip (rangeWords m.dst m.len)).filterMap fun p =>
    if s.slotTag t (p.1 / 8) = 2 then some p.2 else none)

theorem poisonedTargets_of_sound {s : State} {t : Nat} {m : MemRec} (h : ∀ i, i < m.len → s.slotTag t ((m.src + i) / 8) ≠ 2) :
    poisonedTargets s t m = [] := by
  have hnone : (((rangeWords m.src m.len).zip (rangeWords m.dst m.len)).filterMap fun p =>
      if s.slotTag t (p.1 / 8) = 2 then some p.2 else none) = [] := by
    refine List.filterMap_eq_nil_iff.mpr fun p hp => if_neg ?_
    obtain ⟨i, hi, hword⟩ := mem_rangeWords.mp (List.of_mem_zip hp).1
    exact hword ▸ h i hi
  rw [poisonedTargets, hnone]
  rfl

/-- On a tile without rings an emptied slot moves no head. -/
theorem run_slotEmptied_of_no_rings {s : State} {t : Nat} (h : s.tileRings t = []) (k : Nat) (e : Ecc) : (slotEmptied t k e).run s = s := by
  simp [slotEmptied, h]

/-- A copy of sound slots without a tag action, on a tile without rings, is a plain write of the words that its source held. -/
theorem memOperation_copies {s : State} (hs : s.Canonical) {m : MemRec} (hop : m.op = 2) (htag : m.tagAction = 0) {t : Nat}
    (hrings : s.tileRings t = []) (hsound : ∀ i, i < m.len → s.slotTag t ((m.src + i) / 8) ≠ 2) (n c g : Nat) :
    ∃ R M T S, (memOperation t n c m { waitBeats := g }).run s = { s with regs := R, mem := M, tags := T, stiles := S } ∧
      PlainWritten s { s with regs := R, mem := M, tags := T, stiles := S } t (rangeWords m.dst m.len)
        (s.wordBytes t (rangeWords m.src m.len)) false := by
  obtain ⟨R, hbeats, -⟩ := run_isScalar (every_countCopy_isScalar n (rangeWords m.src m.len) (rangeWords m.dst m.len)) s
  have hcanon := run_canonical (countCopy n (rangeWords m.src m.len) (rangeWords m.dst m.len)) hs
  rw [hbeats] at hcanon
  have hlen : (s.wordBytes t (rangeWords m.src m.len)).length = 8 * (rangeWords m.dst m.len).length := by
    rw [State.wordBytes, length_flatMap_const (f := fun w => s.bytesAt (wordAddr t w) 8) (w := 8) fun _ => by simp [State.bytesAt],
      length_rangeWords, length_rangeWords]
  obtain ⟨M, T, S, hwrite, hwritten⟩ := plainWriteWords_writes hcanon t (nodup_rangeWords m.dst m.len) hlen false
  have hnone : poisonedTargets { s with regs := R } t m = [] := poisonedTargets_of_sound hsound
  have hrun : (memOperation t n c m { waitBeats := g }).run s = (all [
      plainWriteWords t (rangeWords m.dst m.len) (s.wordBytes t (rangeWords m.src m.len)) false,
      tagActions t m { s with regs := R },
      eachP (poisonedTargets { s with regs := R } t m) fun k => setTag t k 2,
      whenP (!(poisonedTargets { s with regs := R } t m).isEmpty) (reportOnce 0x4007 c n 0 n c n),
      eachP (slotsOf (rangeWords m.dst m.len)) fun k => slotEmptied t k { waitBeats := g }]).run { s with regs := R } := by
    have hread : ∀ u, (readErrors t n ((List.range m.len).map fun i => m.src + i) { waitBeats := g }).run u = u := run_readErrors_clean _ _ _ _
    simp only [memOperation, run_look, hop, if_neg (by decide : ¬ (2 : Nat) = 1), run_tagErrors_waits, hread, run_all_cons, run_all_nil]
    rw [rangeWords, rangeWords] at hbeats
    rw [hbeats]
    rfl
  rw [hnone] at hrun
  simp only [run_all_cons, run_all_nil, hwrite, run_tagActions_none htag, run_eachP_nil, List.isEmpty_nil, Bool.not_true, run_whenP,
    Bool.false_eq_true, if_false] at hrun
  exact ⟨R, M, T, S, hrun.trans (run_eachP_id fun k _ =>
    run_slotEmptied_of_no_rings (s := { s with regs := R, mem := M, tags := T, stiles := S }) hrings k _),
    hwritten.words, hwritten.tags, hwritten.others, hwritten.tile⟩

/-- What a memory operation that is one plain write leaves: its words, the rest of memory, and the tile at its next record. -/
theorem State.NextMemop.writes {s : State} {t n c : Nat} {m : MemRec} (h : s.NextMemop t n c m) (hs : s.Canonical) {e : Ecc} {bs : List Byte}
    (hop : ∃ R M T S, (memOperation t n c m e).run s = { s with regs := R, mem := M, tags := T, stiles := S } ∧
      PlainWritten s { s with regs := R, mem := M, tags := T, stiles := S } t (rangeWords m.dst m.len) bs false) :
    ∃ u, finish (memopProg t m.op e) s = .next u ∧ (∀ i, i < m.len → u.word t (m.dst + i) = ofBytes ((bs.drop (8 * i)).take 8)) ∧
      (∀ b, (∀ i, i < m.len → b < wordAddr t (m.dst + i) ∨ wordAddr t (m.dst + i) + 8 ≤ b) → readByte u.mem b = readByte s.mem b) ∧
      (u.stile t).memIx = (s.stile t).memIx + 1 ∧ u = { s with regs := u.regs, mem := u.mem, tags := u.tags, stiles := u.stiles } := by
  obtain ⟨R, M, T, S, hwrite, hwritten⟩ := hop
  have hcanon := run_canonical (memOperation t n c m e) hs
  rw [hwrite] at hcanon
  obtain ⟨R', hbeats⟩ := siteCount64_frame n 0x58 e.waitBeats { s with regs := R, mem := M, tags := T, stiles := S }
  have hrun := h.run e
  rw [hwrite, hbeats] at hrun
  have htile := (stile_modS_self (s := { s with regs := R', mem := M, tags := T, stiles := S }) hcanon.stiles t SCore.nextMemop).trans
    (congrArg SCore.nextMemop hwritten.tile)
  exact ⟨_, congrArg Host.Outcome.next hrun, fun i hi => congrArg ofBytes (hwritten.bytesAt hi), fun b hb => hwritten.readByte hb,
    congrArg SCore.memIx htile, rfl⟩

/-- MEMOP_FILL writes its value to every word of its range (R168). -/
theorem memopFill_writes {s : State} (hs : s.Canonical) {t : STile} {n c : Nat} {m : MemRec} (h : s.NextMemop t n c m) (hop : m.op = 1)
    (htag : m.tagAction = 0) (g : Nat) : ∃ u, exec (.memopFill t { waitBeats := g }) s = .next u ∧
      (∀ i, i < m.len → u.word t (m.dst + i) = m.fill % 2 ^ 64) ∧
      (∀ b, (∀ i, i < m.len → b < wordAddr t (m.dst + i) ∨ wordAddr t (m.dst + i) + 8 ≤ b) → readByte u.mem b = readByte s.mem b) ∧
      (u.stile t).memIx = (s.stile t).memIx + 1 ∧ u = { s with regs := u.regs, mem := u.mem, tags := u.tags, stiles := u.stiles } := by
  obtain ⟨u, hrun, hwords, hrest⟩ := h.writes hs (memOperation_fills hs hop htag t n c g)
  refine ⟨u, ?_, fun i hi => ?_, hrest⟩
  · rwa [hop] at hrun
  · rw [hwords i hi, take_drop_fillBytes hi, ofBytes_toBytes]
    rfl

/-- MEMOP_COPY of sound slots writes the words that its source held (R168). -/
theorem memopCopy_writes {s : State} (hs : s.Canonical) {t : STile} {n c : Nat} {m : MemRec} (h : s.NextMemop t n c m) (hop : m.op = 2)
    (htag : m.tagAction = 0) (hrings : s.tileRings t = []) (hsound : ∀ i, i < m.len → s.slotTag t ((m.src + i) / 8) ≠ 2) :
    ∃ u, exec (.memopCopy t {}) s = .next u ∧ (∀ i, i < m.len → u.word t (m.dst + i) = s.word t (m.src + i)) ∧
      (∀ b, (∀ i, i < m.len → b < wordAddr t (m.dst + i) ∨ wordAddr t (m.dst + i) + 8 ≤ b) → readByte u.mem b = readByte s.mem b) ∧
      (u.stile t).memIx = (s.stile t).memIx + 1 ∧ u = { s with regs := u.regs, mem := u.mem, tags := u.tags, stiles := u.stiles } := by
  obtain ⟨u, hrun, hwords, hrest⟩ := h.writes hs (memOperation_copies hs hop htag hrings hsound n c 0)
  refine ⟨u, ?_, fun i hi => ?_, hrest⟩
  · rwa [hop] at hrun
  · have hlt : i < (rangeWords m.src m.len).length := by simpa using hi
    rw [hwords i hi, ← bytesAt_getElem s t hlt, getElem_rangeWords]
    rfl

/-- Settles O44: each engine's run as the shared rules for blocked accesses, passages, plain writes and the tile's record give it. -/
theorem scratchpadEngines : Obligations.ScratchpadEngines := by
  intro s t n hs hsite
  refine ⟨?_, ?_, ?_, ?_, ?_, ?_, ?_⟩
  · intro i beats a k tag bs po hblocked hbs hgates
    exact ⟨fun hready hwide => blockedRetry_fills hs hsite hblocked hbs hgates hready hwide beats,
      fun hready hnarrow => blockedRetry_reserves hs hsite hblocked hgates hready hnarrow beats,
      fun hready hbeats => blockedRetry_waits hs hsite hblocked hready hbeats⟩
  · intro i beats b r hblocked hkind htag hmsg hring hready
    exact blockedRetry_stalls hs hsite hblocked hkind htag hmsg hring hready beats
  · intro k slot bs po ws hpass hbs hags hcur hup hgates
    exact slotPassageEnd_writes hs hsite hpass hbs hags hcur hup hgates
  · intro w
    exact ⟨⟨_, rfl, modS_changes hs t fun x => { x with writeBacks := x.writeBacks.filter fun v => decide (v ≠ w) }⟩,
      ⟨_, rfl, modS_changes hs t fun x => { x with rewrites := x.rewrites.filter fun v => decide (v ≠ w) }⟩⟩
  · intro bank hon
    exact ⟨_, congrArg Host.Outcome.next (run_patrol_clean hsite hon bank), modS_changes hs t _⟩
  · intro k p ws hplan hunit hup hidle hags hnext
    exact streamRecordStart_begins hs hsite hplan hunit hup hidle hags hnext
  · intro r p ws m hactive hup hplan hrec hm htag hsaved
    have hmemop : s.NextMemop t n r.ctx m := ⟨hsite, ⟨r, p, ws, hactive, rfl, hplan, hrec, hm⟩, hup, hsaved⟩
    exact ⟨fun g hop => memopFill_writes hs hmemop hop htag g, fun hop hrings hsound => memopCopy_writes hs hmemop hop htag hrings hsound⟩

end Sys2Proof.Machine

/-! SUPPORT. Packets at their endpoint: what taking one does, the bytes that a write leaves in HBM, in scratchpad words and in
an operand store, the answers to reads, synchronised writes, plan writes, and the statement on them (R146, R148, R162, R219,
R231, R235, R250, R261, R262, R296). -/

namespace Sys2Proof.Machine

open Sys2Proof

/-! ## Taking a packet -/

/-- The state once the endpoint has taken packet `p`. -/
def State.without (s : State) (p : Packet) : State := { s with delivered := s.delivered.erase p }

theorem canonical_without {s : State} (h : s.Canonical) (p : Packet) : (s.without p).Canonical :=
  run_canonical (withState fun t => .delivered (t.delivered.erase p)) h

/-- An endpoint takes the memory packet that is its next, and serves it. -/
theorem run_memoryPacket {s : State} {p : Packet} {typ : Nat} (h : s.atEndpoint p) (ht : p.typ = typ) (f : Prog) :
    (memoryPacket typ p f).run s = f.run (s.without p) := by
  obtain ⟨hnext, hopen, hready⟩ := h
  simp only [memoryPacket, run_look, hopen, hready, Bool.and_self, run_whenP, if_true]
  exact run_applyPacket hnext ht f

/-- The end of a packet that is neither a flag operation nor followed by the queue engine leaves no trace (R265, R285). -/
theorem run_packetDone_id {p : Packet} (h : p.typ ∉ [0x01, 0x02, 0x03, 0x24]) (s : State) : (packetDone p).run s = s := by
  simp only [List.mem_cons, List.not_mem_nil, or_false, not_or] at h
  obtain ⟨h1, h2, h3, hpost⟩ := h
  simp [packetDone, isFlagOp, h1, h2, h3, hpost]

theorem take_payload {p : Packet} (h : p.payload.length = p.len) : p.payload.take p.len = p.payload := List.take_of_length_le (Nat.le_of_eq h)

/-! ## Writes of HBM (R296, R302) -/

/-- The bytes of a range from `a` on that fall in line `l`. -/
def linePart (a : Nat) (bs : List Byte) (l : Nat) : List Byte :=
  (bs.drop (max a (64 * l) - a)).take (min (a + bs.length) (64 * l + 64) - max a (64 * l))

theorem length_linePart (a : Nat) (bs : List Byte) (l : Nat) :
    (linePart a bs l).length = min (a + bs.length) (64 * l + 64) - max a (64 * l) := by
  rw [linePart, List.length_take, List.length_drop]
  omega

theorem getD_linePart {a : Nat} {bs : List Byte} {l x : Nat} (hx : max a (64 * l) ≤ x) (hin : x < max a (64 * l) + (linePart a bs l).length) :
    (linePart a bs l).getD (x - max a (64 * l)) 0 = bs.getD (x - a) 0 := by
  rw [length_linePart] at hin
  have hplace : max a (64 * l) - a + (x - max a (64 * l)) = x - a := by omega
  simp only [linePart, List.getD_eq_getElem?_getD, List.getElem?_take, List.getElem?_drop, hplace]
  rw [if_pos (by omega)]

/-- A write of one line that is not retired stores the bytes that fall in it. -/
theorem putLine_stores {s : State} (h : Memory.wf s.mem) (a : Nat) (bs : List Byte) (poison : Bool) {l : Nat} (hl : s.retiredLine l = false) :
    ∃ M L, (putLine a bs poison l).run s = { s with mem := M, poisonLines := L } ∧
      ∀ x, readByte M x = if (a ≤ x ∧ x < a + bs.length) ∧ x / 64 = l then bs.getD (x - a) 0 else readByte s.mem x := by
  obtain ⟨M, hstore⟩ := storeBytes_frame (max a (64 * l)) (linePart a bs l) s
  have hrun : (putLine a bs poison l).run s = (Eff.poisonLines l (if min (a + bs.length) (64 * l + 64) - max a (64 * l) = 64 then poison
      else poison || s.linePoisoned l)).apply ((storeBytes (max a (64 * l)) (linePart a bs l)).run s) := by
    simp only [putLine, run_look, hl, Bool.false_eq_true, if_false, run_all_cons, run_all_nil, run_eff]
    rfl
  rw [hstore] at hrun
  refine ⟨M, _, hrun, fun x => ?_⟩
  have hbyte := readByte_storeBytes h (max a (64 * l)) (linePart a bs l) x
  rw [hstore] at hbyte
  refine hbyte.trans ?_
  have hlen := length_linePart a bs l
  by_cases hx : max a (64 * l) ≤ x ∧ x < max a (64 * l) + (linePart a bs l).length
  · rw [if_pos hx, if_pos (by omega), getD_linePart hx.1 hx.2]
  · rw [if_neg hx, if_neg (by omega)]

/-- A write of lines of which none is retired stores the bytes that fall in them. -/
theorem eachP_putLine_stores {s : State} (h : s.Canonical) (a : Nat) (bs : List Byte) (poison : Bool) {ls : List Nat}
    (hls : ∀ l ∈ ls, s.retiredLine l = false) :
    ∃ M L, (eachP ls (putLine a bs poison)).run s = { s with mem := M, poisonLines := L } ∧
      ∀ x, readByte M x = if (a ≤ x ∧ x < a + bs.length) ∧ x / 64 ∈ ls then bs.getD (x - a) 0 else readByte s.mem x := by
  induction ls generalizing s with
  | nil => exact ⟨s.mem, s.poisonLines, rfl, fun x => (if_neg fun hx => List.not_mem_nil hx.2).symm⟩
  | cons l ls ih =>
    obtain ⟨hl, hls⟩ := List.forall_mem_cons.mp hls
    obtain ⟨M, L, hput, hbyte⟩ := putLine_stores h.mem a bs poison hl
    have hcanon := run_canonical (putLine a bs poison l) h
    rw [hput] at hcanon
    obtain ⟨M', L', hrest, hbytes⟩ := ih hcanon hls
    refine ⟨M', L', ?_, fun x => ?_⟩
    · rw [run_eachP_cons, hput]
      exact hrest
    · simp only [List.mem_cons, or_comm (a := x / 64 = l), and_or_left, ite_or]
      exact (hbytes x).trans (congrArg (ite _ _) (hbyte x))

/-- Each line that a range meets is one of its lines. -/
theorem mem_linesOf {a n x : Nat} (hlo : a ≤ x) (hhi : x < a + n) : x / 64 ∈ linesOf a n := by
  rw [linesOf, if_neg (by omega)]
  exact List.mem_map.mpr ⟨x / 64 - a / 64, List.mem_range.mpr (by omega), by omega⟩

/-- Bytes that read back one by one stand in memory, with the rest as before. -/
theorem wrote_of_readByte {s t : State} {a : Nat} {bs : List Byte}
    (h : ∀ x, readByte t.mem x = if a ≤ x ∧ x < a + bs.length then bs.getD (x - a) 0 else readByte s.mem x) : s.wrote t a bs := by
  refine ⟨List.ext_getElem (by simp [State.bytesAt]) fun i _ hi => ?_, fun x hx => (h x).trans (if_neg (by omega))⟩
  simp [State.bytesAt, h, hi]

/-- A write of HBM without a retired line stores its bytes. -/
theorem hbmPut_stores {s : State} (h : s.Canonical) (a : Nat) (bs : List Byte) (poison : Bool)
    (hls : ∀ l ∈ linesOf a bs.length, s.retiredLine l = false) :
    ∃ M L, (hbmPut a bs poison).run s = { s with mem := M, poisonLines := L } ∧ s.wrote { s with mem := M, poisonLines := L } a bs := by
  obtain ⟨M, L, hrun, hbytes⟩ := eachP_putLine_stores h a bs poison hls
  refine ⟨M, L, hrun, wrote_of_readByte fun x => (hbytes x).trans ?_⟩
  by_cases hx : a ≤ x ∧ x < a + bs.length
  · rw [if_pos ⟨hx, mem_linesOf hx.1 hx.2⟩, if_pos hx]
  · rw [if_neg fun hin => hx hin.1, if_neg hx]

/-- A memory X-tile that serves a write stores it. -/
theorem xWrite_stores {s : State} {p : Packet} (hs : s.Canonical) (hlen : p.payload.length = p.len)
    (htyp : p.typ ∉ [0x01, 0x02, 0x03, 0x24]) {x : XTile} (hdst : p.dst = 0xD00 + x)
    (hserve : s.xRefuses x (packetAddr p) p.len = false) (hls : ∀ l ∈ linesOf (packetAddr p) p.len, s.retiredLine l = false) (e : Ecc) :
    ∃ M L, (writeAt p e).run s = { s with mem := M, poisonLines := L } ∧
      s.wrote { s with mem := M, poisonLines := L } (packetAddr p) p.payload := by
  obtain ⟨M, L, hput, hwrote⟩ := hbmPut_stores hs (packetAddr p) p.payload p.poison (by rwa [hlen])
  refine ⟨M, L, ?_, hwrote⟩
  have hx : p.dst - 0xD00 = x := by omega
  rw [writeAt, if_neg (by omega), if_pos (by omega), xServe, run_look, hx, hserve, if_neg Bool.false_ne_true, take_payload hlen]
  simp only [run_all_cons, run_all_nil, run_packetDone_id htyp, hput]

/-! ## Tiles (R148, R149, R162, R250, R296) -/

section tile

variable {s : State} {p : Packet}

theorem State.reaches.run_tileWrite {k : Nat} {ws : List Nat} (h : s.reaches p p.len k ws) (hlen : p.payload.length = p.len)
    (htyp : p.typ ∉ [0x01, 0x02, 0x03, 0x24]) (e : Ecc) :
    (writeAt p e).run s = (plainWriteWords k ws p.payload p.poison).run ((portAccess k p.dst ws e).run s) := by
  obtain ⟨l, off, al, htile, hdst, htype, rfl, hplace, hdecode, hsaved⟩ := h
  rw [writeAt, if_pos hdst]
  simp only [tileWrite, run_look, htile, hplace, htype, if_true, withWords, hdecode, findSome?_savedWord hsaved, run_all_cons, run_all_nil,
    run_packetDone_id htyp, take_payload hlen]

/-- A tile stores a write of its scratchpad's words. -/
theorem scratchWrite_stores (hs : s.Canonical) {k : Nat} {ws : List Nat} (h : s.reaches p p.len k ws) (hws : ws.Nodup)
    (hlen : p.payload.length = p.len) (htyp : p.typ ∉ [0x01, 0x02, 0x03, 0x24]) :
    ∃ R M T S, (writeAt p {}).run s = { s with regs := R, mem := M, tags := T, stiles := S } ∧
      s.wroteWords { s with regs := R, mem := M, tags := T, stiles := S } k ws p.payload := by
  obtain ⟨R, hport, -, -⟩ := portAccess_counts hs.regs k p.dst ws 0
  have hcanon := run_canonical (portAccess k p.dst ws {}) hs
  rw [hport] at hcanon
  have hbytes : p.payload.length = 8 * ws.length := by
    obtain ⟨l, off, al, -, -, -, -, -, hdecode, -⟩ := h
    exact hlen.trans (length_decode hdecode)
  obtain ⟨M, T, S, hwrite, hwritten⟩ := plainWriteWords_writes hcanon k hws hbytes p.poison
  exact ⟨R, M, T, S, (h.run_tileWrite hlen htyp {}).trans ((congrArg _ hport).trans hwrite), hwritten.words⟩

/-- A tile stores a write of unlocked bytes of its operand store. -/
theorem operandWrite_stores (hs : s.Canonical) {l off : Nat} (hdst : p.dst < 3264) (htile : s.tileOf p.dst = some l) (htype : tileType l = 0)
    (hplace : placeOf (packetAddr p) = .store (mIndex l) off) (hin : off + p.len ≤ 0x80000) (hfree : s.writeLocked p.dst off p.len = none)
    (hlen : p.payload.length = p.len) (htyp : p.typ ∉ [0x01, 0x02, 0x03, 0x24]) :
    ∃ M W, (writeAt p {}).run s = { s with mem := M, poisonWords := W } ∧
      s.wrote { s with mem := M, poisonWords := W } (storeAddr (mIndex l) off) p.payload := by
  obtain ⟨M, W, hstore, hbytes, hrest⟩ := storeWrite_stores hs.mem (mIndex l) off p.payload p.poison
  refine ⟨M, W, ?_, hbytes, hrest⟩
  rw [writeAt, if_pos hdst]
  simp only [tileWrite, run_look, htile, hplace, htype, inStore, hin, hfree, and_self, decide_true, if_true, run_all_cons, run_all_nil,
    run_packetDone_id htyp, take_payload hlen, run_whenP, Bool.false_eq_true, if_false, hstore]

/-- The answer to a read is sent, and nothing else changes. -/
theorem run_respond (htyp : p.typ ∉ [0x01, 0x02, 0x03, 0x24]) (bs : List Byte) (poison : Bool) :
    (respond p bs poison).run s = { s with issue := s.issue ++ [{ packet := readAnswer p bs poison }] } := by
  simp only [respond, run_all_cons, run_all_nil, run_packetDone_id htyp]
  rfl

/-- A memory X-tile that serves a read answers it with the bytes and their poison. -/
theorem xRead_answers (htyp : p.typ ∉ [0x01, 0x02, 0x03, 0x24]) (hpos : 0 < packetLen p) (hle : packetLen p ≤ 1024) {x : XTile}
    (hdst : p.dst = 0xD00 + x) (hserve : s.xRefuses x (packetAddr p) (packetLen p) = false) (e : Ecc) :
    (readAt p e).run s = { s with issue := s.issue ++
      [{ packet := readAnswer p (s.bytesAt (packetAddr p) (packetLen p)) (s.rangeBad (packetAddr p) (packetLen p)) }] } := by
  have hx : p.dst - 0xD00 = x := by omega
  rw [readAt, if_neg (by omega), if_neg (by omega), if_pos (by omega), xServe, run_look, hx, hserve, if_neg Bool.false_ne_true, run_look]
  exact run_respond htyp _ _

/-- A tile answers a read of its scratchpad with the words and whether a slot of them is poisoned. -/
theorem scratchRead_answers (hs : s.Canonical) (htyp : p.typ ∉ [0x01, 0x02, 0x03, 0x24]) (hpos : 0 < packetLen p) (hle : packetLen p ≤ 1024)
    {k : Nat} {ws : List Nat} (h : s.reaches p (packetLen p) k ws) : ∃ R, (readAt p {}).run s =
      { s with regs := R, issue := s.issue ++ [{ packet := readAnswer p (s.wordBytes k ws) (s.slotsPoisoned k ws) }] } := by
  obtain ⟨l, off, al, htile, hdst, htype, rfl, hplace, hdecode, hsaved⟩ := h
  obtain ⟨R, hport, -, -⟩ := portAccess_counts hs.regs (sIndex l) p.dst ws 0
  refine ⟨R, ?_⟩
  rw [readAt, if_neg (by omega), if_pos hdst]
  simp only [tileRead, run_look, htile, hplace, htype, if_true, withWords, hdecode, findSome?_savedWord hsaved, run_all_cons, run_all_nil,
    hport, run_readErrors_clean]
  exact run_respond htyp _ _

/-- A slot-aligned address of a scratchpad window is slot-aligned in its tile (R148). -/
theorem placeOf_scratch_aligned {a t off : Nat} {al : Bool} (h : placeOf a = .scratch t off al) (ha : a % 64 = 0) : off % 64 = 0 := by
  simp only [placeOf] at h
  split at h
  case isTrue => simp only [reduceCtorEq] at h
  case isFalse =>
    split at h
    case isTrue =>
      obtain ⟨-, hoff, -⟩ := Place.scratch.inj h
      omega
    case isFalse => (repeat' split at h) <;> simp only [reduceCtorEq] at h

/-- A SYNC_WRITE of one slot is a synchronised write of it by the ingress. -/
theorem run_syncWriteAt {k j : Nat} (h : s.reaches p 64 k (slotWords j)) (hlen : p.payload.length = p.len) (hslot : p.len = 64)
    (haligned : packetAddr p % 64 = 0) (htyp : p.typ ∉ [0x01, 0x02, 0x03, 0x24]) :
    ∃ a, (syncWriteAt p {}).run s = (writeSlots k p.dst (.ingress a) false p.poison p.payload [j] {}).run s := by
  obtain ⟨l, off, al, htile, hdst, htype, rfl, hplace, hdecode, hsaved⟩ := h
  refine ⟨packetAccess p al off 64, ?_⟩
  have hoff := placeOf_scratch_aligned hplace haligned
  rw [← hslot] at hdecode
  simp only [syncWriteAt, run_look, htile, hplace, htype, if_true, hoff, withWords, hdecode, findSome?_savedWord hsaved, run_all_cons, run_all_nil,
    run_packetDone_id htyp, run_tagErrors_waits, take_payload hlen, slotsOf_slotWords]
  rw [hslot]
  rfl

/-- A READ_RESPONSE delivers its data to the engine of its endpoint. -/
theorem run_responseAt (hlen : p.payload.length = p.len) (htyp : p.typ ∉ [0x01, 0x02, 0x03, 0x24]) (hdst : p.dst < 0xD00 ∨ 0xD80 ≤ p.dst) :
    (responseAt p).run s = { s with out := s.out ++ [.readData p.dst p.payload p.poison] } := by
  rw [responseAt, if_neg (by omega)]
  simp only [run_all_cons, run_all_nil, run_packetDone_id htyp, take_payload hlen]
  rfl

end tile

/-! ## The state of a plan slot (Table 08-10) -/

/-- The digit that a slot's state is comes out of the word that was written. -/
theorem digit_replaced {B : Nat} (hB : 0 < B) (r : Nat) {v : Nat} (hv : v < 16) : (r - r / B % 16 * B + v * B) / B % 16 = v := by
  rw [Nat.add_mul_div_right _ _ hB, Nat.mul_comm (r / B % 16) B, Nat.sub_mul_div]
  omega

theorem slotState_setSlotState {s : State} (h : s.Sorted) (n slot : Nat) {v : Nat} (hv : v < 16) :
    ((setSlotState n slot v).run s).slotState n slot = v := by
  rw [State.slotState, setSlotState, run_look, reg_setReg h (by decide) (by decide), if_pos ⟨rfl, rfl⟩]
  exact digit_replaced (Nat.pow_pos (by decide)) _ hv

/-! ## The end of a LOAD_PLAN (R261) -/

/-- An effect that writes a context. -/
def Eff.isCtx (e : Eff) : Bool :=
  match e with
  | .ctxs _ _ => true
  | _ => false

theorem run_isCtx {p : Prog} (h : p.Every fun e => e.isCtx = true) (s : State) : ∃ C, p.run s = { s with ctxs := C } :=
  run_rel (R := fun s t => ∃ C, t = { s with ctxs := C }) (fun s => ⟨s.ctxs, rfl⟩)
    (by rintro s _ _ ⟨C, rfl⟩ ⟨C', rfl⟩; exact ⟨C', rfl⟩) h
    (fun e s he => by
      cases e with
      | ctxs k x => exact ⟨_, rfl⟩
      | _ => cases he) s

theorem every_loadsDone_isCtx (c : Nat) : (loadsDone c).Every fun e => e.isCtx = true := by
  unfold loadsDone endDescriptor modCtx
  simp [Eff.isCtx]

/-- A plan slot of the context waits for bytes of LOAD_PLAN `n`. -/
def State.planWaits (s : State) (c n : Nat) : Bool := s.plans.any fun e => match e.2 with
  | some x => decide (x.ctx = c ∧ x.desc = n ∧ x.left ≠ 0)
  | none => false

theorem planWaits_eq_false {s : State} (hs : s.Canonical) {c n : Nat}
    (h : ∀ j y, s.planAt j = some y → ¬(y.ctx = c ∧ y.desc = n ∧ y.left ≠ 0)) : s.planWaits c n = false := by
  refine List.any_eq_false.mpr fun ⟨j, e⟩ he => ?_
  cases e with
  | none => exact Bool.false_ne_true
  | some y => simpa using h j y (get_of_mem hs.plans.1 he)

/-- The one open LOAD_PLAN of a context ends when no slot of it waits. -/
theorem loadsDone_ends {s : State} (hs : s.Canonical) {c : Nat} {d : ActiveDesc} (hactive : (s.ctx c).active = [d]) (hop : dOp d = 1)
    (hstarted : d.started = true) (hopen : d.status = none) (hdone : s.planWaits c d.num = false) :
    (((loadsDone c).run s).ctx c).active = [{ d with status := some 0 }] := by
  have hrun : (loadsDone c).run s = (endDescriptor c d.num 0).run s := by
    rw [loadsDone, run_look, hactive, List.filter_cons_of_pos (by simp [hop, hstarted, hopen]), List.filter_nil, run_eachP_cons, run_eachP_nil,
      run_whenP]
    exact if_pos (congrArg (! ·) hdone)
  rw [hrun]
  have hctx : ((endDescriptor c d.num 0).run s).ctx c = _ := (Tab.get_set hs.ctxs.1 ..).trans (if_pos rfl)
  rw [hctx]
  change (s.ctx c).active.map _ = _
  rw [hactive, List.map_singleton, if_pos ⟨rfl, hopen⟩]

/-! ## PLAN_WRITE (R219) -/

/-- A plan slot with `n` bytes less to come. -/
def SlotPlan.came (x : SlotPlan) (n : Nat) (poison : Bool) : SlotPlan := { x with left := x.left - n, poison := x.poison || poison }

/-- The last bytes of a loading slot make it loaded. -/
def slotLoaded (p : Packet) (left : Nat) : Prog := .look fun s =>
  whenP (decide (left ≤ p.len) && s.slotState p.dst (bits p.operand 1 0) == 1) (setSlotState p.dst (bits p.operand 1 0) 2)

theorem slotLoaded_loads {s : State} (h : s.Sorted) (p : Packet) (left : Nat) : ∃ R, (slotLoaded p left).run s = { s with regs := R } ∧
    (left ≤ p.len → s.slotState p.dst (bits p.operand 1 0) = 1 →
      ({ s with regs := R } : State).slotState p.dst (bits p.operand 1 0) = 2) := by
  rw [slotLoaded, run_look, run_whenP]
  split
  · exact ⟨_, rfl, fun _ _ => slotState_setSlotState h p.dst _ (by decide)⟩
  · rename_i hnot
    exact ⟨s.regs, rfl, fun hleft hloading => absurd (by simp [hleft, hloading]) hnot⟩

section plans

variable {s : State} {p : Packet} {l k : Nat} {x : SlotPlan}

/-- The bytes of a waiting slot come, the slot is loaded with the last, and the LOAD_PLANs that are complete end. -/
theorem run_takePlanWrite (htyp : p.typ = 0x25) (htile : s.tileOf p.dst = some l) (hk : k = l * 4 + bits p.operand 1 0)
    (hplan : s.planAt k = some x) (hctx : x.ctx = p.ctx) (hleft : x.left ≠ 0) :
    (takePlanWrite p).run s = (loadsDone p.ctx).run ((slotLoaded p x.left).run ((Eff.plans k (some (x.came p.len p.poison))).apply s)) := by
  subst hk
  have hwaits : decide (x.ctx = p.ctx ∧ x.left ≠ 0) = true := decide_eq_true ⟨hctx, hleft⟩
  simp only [takePlanWrite, run_look, htile, run_all_cons, run_all_nil, run_packetDone_id (p := p) (by simp [htyp]), hplan, run_whenP, hwaits,
    if_true, run_eff, slotLoaded]
  rfl

/-- What a PLAN_WRITE of a waiting slot leaves. -/
theorem takePlanWrite_came (hs : s.Canonical) (htyp : p.typ = 0x25) (htile : s.tileOf p.dst = some l) (hk : k = l * 4 + bits p.operand 1 0)
    (hplan : s.planAt k = some x) (hctx : x.ctx = p.ctx) (hleft : x.left ≠ 0) :
    ∃ P R C, (takePlanWrite p).run s = { s with plans := P, regs := R, ctxs := C } ∧
      (∀ j, ({ s with plans := P } : State).planAt j = if j = k then some (x.came p.len p.poison) else s.planAt j) ∧
      (x.left ≤ p.len → s.slotState p.dst (bits p.operand 1 0) = 1 →
        ({ s with regs := R } : State).slotState p.dst (bits p.operand 1 0) = 2) ∧
      (∀ d : ActiveDesc, x.left ≤ p.len → (s.ctx p.ctx).active = [d] → dOp d = 1 → d.started = true → d.status = none →
        (∀ j y, j ≠ k → s.planAt j = some y → ¬(y.ctx = p.ctx ∧ y.desc = d.num ∧ y.left ≠ 0)) →
        (({ s with ctxs := C } : State).ctx p.ctx).active = [{ d with status := some 0 }]) := by
  obtain ⟨P, hput, hcame⟩ : ∃ P, (Eff.plans k (some (x.came p.len p.poison))).apply s = { s with plans := P } ∧
      ∀ j, ({ s with plans := P } : State).planAt j = if j = k then some (x.came p.len p.poison) else s.planAt j :=
    ⟨_, rfl, fun j => Tab.get_set hs.plans.1 ..⟩
  have hcanon : ({ s with plans := P } : State).Canonical := hput ▸ apply_canonical (.plans k (some (x.came p.len p.poison))) hs
  obtain ⟨R, hloaded, hstate⟩ := slotLoaded_loads hcanon.regs p x.left
  have hcanon' := run_canonical (slotLoaded p x.left) hcanon
  rw [hloaded] at hcanon'
  obtain ⟨C, hends⟩ := run_isCtx (every_loadsDone_isCtx p.ctx) { s with plans := P, regs := R }
  have hrun := run_takePlanWrite htyp htile hk hplan hctx hleft
  rw [hput, hloaded, hends] at hrun
  refine ⟨P, R, C, hrun, hcame, hstate, fun d hlast hactive hop hstarted hopen hothers => ?_⟩
  have hdone : ({ s with plans := P, regs := R } : State).planWaits p.ctx d.num = false := by
    refine planWaits_eq_false hcanon' fun j y hy => ?_
    have hy := (hcame j).symm.trans hy
    by_cases hj : j = k
    · rw [if_pos hj] at hy
      obtain rfl := Option.some.inj hy
      exact fun hwaits => hwaits.2.2 (Nat.sub_eq_zero_of_le hlast)
    · rw [if_neg hj] at hy
      exact hothers j y hj hy
  have hended := loadsDone_ends hcanon' hactive hop hstarted hopen hdone
  rwa [hends] at hended

end plans

/-! ## The statement -/

section endpoint

variable {s : State} {p : Packet}

/-- A memory packet's instruction is what its endpoint does once it has taken the packet. -/
theorem next_of_memoryPacket {typ : Nat} {f : Prog} {u : State} (h : s.atEndpoint p) (ht : p.typ = typ) (hf : f.run (s.without p) = u) :
    finish (memoryPacket typ p f) s = .next u := congrArg Host.Outcome.next ((run_memoryPacket h ht f).trans hf)

/-- Both kinds of write do what `writeAt` does. -/
theorem exec_write {c : Instr} {u : State} (h : s.atEndpoint p)
    (hc : (p.typ = 0x20 ∧ c = .write p {}) ∨ (p.typ = 0x21 ∧ c = .writeOrdered p {})) (hf : (writeAt p {}).run (s.without p) = u) :
    exec c s = .next u := by
  rcases hc with ⟨htyp, rfl⟩ | ⟨htyp, rfl⟩
  · exact next_of_memoryPacket h htyp hf
  · exact next_of_memoryPacket h htyp hf

/-- A SYNC_WRITE of one slot fills it when it is empty and wide, reserves it when it is empty and narrow, and blocks otherwise (R162). -/
theorem syncWrite_applies (hs : s.Canonical) (h : s.atEndpoint p) (htyp : p.typ = 0x22) (hlen : p.payload.length = p.len) {k j : Nat}
    (hreaches : s.reaches p 64 k (slotWords j)) (hslot : p.len = 64) (haligned : packetAddr p % 64 = 0) :
    (s.syncReady k j .write = true → s.isWide p.dst (8 * j) = true → ∃ t, exec (.syncWrite p {}) s = .next t ∧
      s.wroteWords t k (slotWords j) p.payload ∧ t.slotTag k j = (if p.poison then 2 else 1) ∧
      (∀ i, i ≠ k * 65536 + j → t.tagAt i = s.tagAt i) ∧
      t = { s with delivered := s.delivered.erase p, regs := t.regs, mem := t.mem, tags := t.tags, stiles := t.stiles }) ∧
    (s.syncReady k j .write = true → s.isWide p.dst (8 * j) = false → ∃ t, exec (.syncWrite p {}) s = .next t ∧ t.slotTag k j = 3 ∧
      (t.stile k).passages.length = (s.stile k).passages.length + 1 ∧ (∀ i, i ≠ k * 65536 + j → t.tagAt i = s.tagAt i) ∧
      t = { s with delivered := s.delivered.erase p, regs := t.regs, tags := t.tags, stiles := t.stiles }) ∧
    (s.syncReady k j .write = false → ∃ t, exec (.syncWrite p {}) s = .next t ∧
      (t.stile k).blocked.length = (s.stile k).blocked.length + 1 ∧
      t = { s with delivered := s.delivered.erase p, regs := t.regs, stiles := t.stiles }) := by
  have hcanon := canonical_without hs p
  obtain ⟨a, hwrite⟩ := run_syncWriteAt (s := s.without p) hreaches hlen hslot haligned (by simp [htyp])
  have hexec := fun {u : State} hu => next_of_memoryPacket (u := u) h htyp (hwrite.trans hu)
  refine ⟨fun hready hwide => ?_, fun hready hnarrow => ?_, fun hready => ?_⟩
  · obtain ⟨R, M, T, S, hrun, hwritten⟩ := writeSlots_fills hcanon hready hwide (hlen.trans hslot) (.ingress a) p.poison {}
    exact ⟨_, hexec hrun, hwritten.words, hwritten.tag, hwritten.others, rfl⟩
  · obtain ⟨R, T, S, hrun, htags, hpassing⟩ := writeSlots_reserves hcanon hready hnarrow p.payload (.ingress a) p.poison {}
    exact ⟨_, hexec hrun, (htags _).trans (if_pos rfl), (congrArg (·.passages.length) hpassing).trans List.length_append,
      fun i hi => (htags i).trans (if_neg hi), rfl⟩
  · have hblocking := stile_modS_self (s := s.without p) hs.stiles k fun x =>
      x.blocking ⟨.ingress a, .write, j, p.payload, p.poison, [], false, s.slotTag k j⟩
    exact ⟨_, hexec (run_writeSlots_blocked (s := s.without p) hready p.dst p.payload (.ingress a) p.poison {}),
      (congrArg (·.blocked.length) hblocking).trans List.length_append, rfl⟩

/-- A PLAN_WRITE of a tile whose field steward runs is what the tile's monitor does with it (R219). -/
theorem run_planWrite (hnext : s.isNext p = true) (htyp : p.typ = 0x25) (hmanagement : p.management = false)
    (hup : s.stewardUp (siteField p.dst) = true) {u : State} (hf : (takePlanWrite p).run (s.without p) = u) :
    exec (.planWrite p) s = .next u := by
  refine congrArg Host.Outcome.next (Eq.trans ?_ hf)
  rw [run_look, hup, Bool.or_true, run_whenP, if_pos rfl, hmanagement, if_neg Bool.false_ne_true]
  exact run_applyPacket hnext htyp _

end endpoint

/-- Settles O52: the endpoint takes the packet, and what serves it writes by the rules for HBM lines, scratchpad words, operand stores,
synchronised slots and plan slots. -/
theorem endpointsApplyPackets : Obligations.EndpointsApplyPackets := by
  intro s p hs h hlen
  have hcanon := canonical_without hs p
  refine ⟨fun c hc => ?_, fun htyp hpos hle => ⟨fun x hdst hserve => ?_, fun k ws hreaches => ?_⟩, fun htyp k j hreaches hslot haligned => ?_,
    fun htyp hdst => ?_, fun htyp hmanagement _ hup l k x htile hk hplan hctx hleft => ?_⟩
  · have htyp : p.typ ∉ [0x01, 0x02, 0x03, 0x24] := by
      rcases hc with ⟨htyp, -⟩ | ⟨htyp, -⟩ <;> simp [htyp]
    refine ⟨fun x hdst hserve hls => ?_, fun k ws hreaches hws => ?_, fun l off hdst htile htype hplace hin hfree => ?_⟩
    · obtain ⟨M, L, hrun, hwrote⟩ := xWrite_stores hcanon hlen htyp hdst hserve hls {}
      exact ⟨_, exec_write h hc hrun, hwrote, rfl⟩
    · obtain ⟨R, M, T, S, hrun, hwrote⟩ := scratchWrite_stores hcanon hreaches hws hlen htyp
      exact ⟨_, exec_write h hc hrun, hwrote, rfl⟩
    · obtain ⟨M, W, hrun, hwrote⟩ := operandWrite_stores hcanon hdst htile htype hplace hin hfree hlen htyp
      exact ⟨_, exec_write h hc hrun, hwrote, rfl⟩
  · exact ⟨_, next_of_memoryPacket h htyp (xRead_answers (s := s.without p) (by simp [htyp]) hpos hle hdst hserve {}), rfl⟩
  · obtain ⟨R, hrun⟩ := scratchRead_answers hcanon (by simp [htyp]) hpos hle hreaches
    exact ⟨_, next_of_memoryPacket h htyp hrun, rfl, rfl⟩
  · exact syncWrite_applies hs h htyp hlen hreaches hslot haligned
  · exact ⟨_, next_of_memoryPacket h htyp (run_responseAt hlen (by simp [htyp]) hdst), rfl⟩
  · obtain ⟨hnext, -, -⟩ := h
    obtain ⟨P, R, C, hrun, hcame, hstate, hends⟩ := takePlanWrite_came hcanon htyp htile hk hplan hctx hleft
    exact ⟨_, run_planWrite hnext htyp hmanagement hup hrun, (hcame k).trans (if_pos rfl), fun j hj => (hcame j).trans (if_neg hj),
      hstate, hends, rfl⟩

end Sys2Proof.Machine

/-! SUPPORT. The two statements on the lanes of an F-tile fail where an operand is poisoned (O45, O46): they keep memory whatever the
operands are, and the death of the context, which consumes the poison (R383), writes the completion records of its active
descriptors there (R258, R446). -/

namespace Sys2Proof.Machine

open Sys2Proof

/-- A function record of opcode `op` for one lane, from register 0 to register 3. -/
def oneLaneRecord (op : Nat) : List Nat := [op * 2 ^ 56 + 3 * 2 ^ 32 + 4 * 2 ^ 29 + 4 * 2 ^ 26 + 2 ^ 11, 0, 0, 0]

/-- The lane that stands in register 0 of `poisonedSite`. -/
def badLane : FWord := { val := 0x3F800000, poison := true }

/-- A ready device on which context 0 runs slot 0 of F-tile 0, at site 340, with a poisoned lane in register 0. The context's one
active descriptor, number 0, has started, and the stack that holds its completion record, at address 0, is online. -/
def poisonedSite : State := { State.reset with
  regs := [(rk 0x20F0 0x01, 0x0C), (rk 0x2700 0x01, 1), (rk 0x4100 0x01, 1)], booted := true, mainOn := true, reset_ := none
  running := [(340, some ⟨0, 0, false⟩)]
  ctxs := [(0, { active := [{ num := 0, words := [], started := true }] })]
  vreg := [(vkey 340 0 0, badLane)] }

/-- The same with `oneLaneRecord op` as the one record of the slot's plan. -/
def poisonedLane (op : Nat) : State := { poisonedSite with
  plans := [(1280, some ⟨0, 0, 0, ⟨320, 2, 0, [], [], [], [], [], [oneLaneRecord op], [], []⟩, none, 0, 0, false⟩)] }

theorem poisonedLane_canonical (op : Nat) : (poisonedLane op).Canonical :=
  have hsite : poisonedSite.Canonical := by constructor <;> decide +kernel
  { hsite with plans := ⟨List.pairwise_singleton .., by simp [poisonedLane]⟩ }

/-- The record is the next at its site, and its operand A is the poisoned lane. -/
theorem poisonedLane_runs (op : Nat) (h : op ∈ [0x01, 0x10]) : (poisonedLane op).LaneRun 340 op 0 (oneLaneRecord op) [badLane] := by
  have hrun : ∀ op ∈ [0x01, 0x10], (poisonedLane op).laneRecord 340 op = some (0, oneLaneRecord op) ∧ frLen (oneLaneRecord op) = 1 ∧
      (poisonedLane op).operandA 340 (oneLaneRecord op) [] = some ([badLane], 0, 0, 0) ∧ frTakes (oneLaneRecord op) = 1 ∧
      frOut (oneLaneRecord op) = 4 := by decide +kernel
  obtain ⟨hnext, hlen, hoperand, htakes, hout⟩ := hrun op h
  exact ⟨hnext, hlen ▸ Nat.one_ne_zero, ⟨0, 0, 0, hoperand⟩, htakes.symm, .inl hout⟩

/-- Refutes O45: in `poisonedLane 0x01` FMA consumes the poisoned lane, so context 0 dies and the failure code 0xC003 of its
descriptor goes to the last two bytes of the completion record, which read 0 before. -/
theorem not_lanesCompute : ¬ Obligations.LanesCompute := by
  intro h
  obtain ⟨hfma, -⟩ := h (poisonedLane 0x01) 340 0 (oneLaneRecord 0x01) [badLane] _ (poisonedLane_canonical _) rfl
    _ _ (fun _ => rfl) (fun _ => rfl) _ _ _ rfl rfl
  obtain ⟨t, hexec, -, -, -, -, hmem, -⟩ := hfma (poisonedLane_runs _ (by decide)) rfl
  have hbyte := congrArg (readByte · 15) hmem
  obtain rfl : _ = t := Host.Outcome.next.inj hexec
  revert hbyte
  decide +kernel

/-- Refutes O46: in `poisonedLane 0x10` REDUCE_SUM consumes the poisoned lane, and the same record of the dying context changes
memory. -/
theorem not_lanesReduceAndQuantise : ¬ Obligations.LanesReduceAndQuantise := by
  intro h
  obtain ⟨hsum, -⟩ := h (poisonedLane 0x10) 340 0 (oneLaneRecord 0x10) [badLane] _ (poisonedLane_canonical _) rfl
    _ (fun _ => rfl) _ _ _ rfl rfl
  obtain ⟨t, hexec, -, -, -, -, hmem, -⟩ := hsum (poisonedLane_runs _ (by decide)) rfl
  have hbyte := congrArg (readByte · 15) hmem
  obtain rfl : _ = t := Host.Outcome.next.inj hexec
  revert hbyte
  decide +kernel

end Sys2Proof.Machine

/-! SUPPORT. Programs that count, programs that report, and programs that spare some fields and one subindex of the scalars. -/

namespace Sys2Proof.Machine

open Sys2Proof

/-! ## Conditions, counters and reports -/

theorem run_whenP_all (c : Bool) (a b : Prog) (s : State) : (whenP c (all [a, b])).run s = (whenP c b).run ((whenP c a).run s) := by
  cases c <;> rfl

theorem run_whenP_seq (c : Bool) (a b : Prog) (s : State) : (whenP c (.seq a b)).run s = (whenP c b).run ((whenP c a).run s) := by
  cases c <;> rfl

/-- A counter counts where `c` says so, and no other scalar differs. -/
theorem bump_counts {s : State} (h : s.Sorted) (c : Bool) (w i j d : Nat) :
    ∃ R, (whenP c (bump w i j d)).run s = { s with regs := R } ∧ Tab.Canon regDefault R ∧
      ∀ k, Tab.get (regDefault k) R k = if c = true ∧ k = rk i j then satAdd w (s.reg i j) d else s.regAt k := by
  cases c with
  | false => exact ⟨s.regs, rfl, h, fun k => (if_neg (by simp)).symm⟩
  | true =>
    refine ⟨_, rfl, run_sorted (bump w i j d) h, fun k => (regAt_bump h w i j d k).trans ?_⟩
    simp only [true_and]

theorem site_notMem_reportKeys (n j : Nat) : rk (0x3000 + n) j ∉ reportKeys := by
  simp only [reportKeys, rk, List.mem_cons, List.not_mem_nil, or_false]
  omega

/-- A program of reports ends in its start with what a report can write. -/
theorem run_isReport {p : Prog} (h : p.Every fun e => e.isReport = true) (s : State) :
    ∃ u, p.run s = s.reported u ∧ ∀ k, k ∉ reportKeys → u.regAt k = s.regAt k :=
  ⟨_, (run_reportStep h s).1, (run_reportStep h s).2⟩

/-! ## Effects that spare -/

/-- Effects on none of the fields `fs`, that write no scalar of subindex `sub`. -/
def Eff.spares (fs : List Field) (sub : Nat) (e : Eff) : Bool :=
  decide (e.field ∉ fs) && match e with
    | .regs k _ => decide (k % 256 ≠ sub)
    | .dropRegs _ _ => false
    | _ => true

section spares

variable {fs : List Field} {sub : Nat}

@[simp] theorem Eff.spares_regs (hregs : Field.regs ∉ fs) {k v : Nat} (hk : k % 256 ≠ sub) : (Eff.regs k v).spares fs sub = true :=
  Bool.and_eq_true_iff.mpr ⟨decide_eq_true hregs, decide_eq_true hk⟩

@[simp] theorem Eff.spares_of_field {e : Eff} (h : e.field ∉ Field.regs :: fs) : e.spares fs sub = true := by
  obtain ⟨hr, hf⟩ := not_or.mp (mt List.mem_cons.mpr h)
  cases e <;> first
    | exact absurd rfl hr
    | exact Bool.and_eq_true_iff.mpr ⟨decide_eq_true hf, rfl⟩

theorem Eff.field_notMem_of_spares {e : Eff} (h : e.spares fs sub = true) : e.field ∉ fs :=
  of_decide_eq_true (Bool.and_eq_true_iff.mp h).1

/-- A field of `fs`, which every effect on another field keeps, is as before. -/
theorem run_keeps_of_spares {α : Type} {g : State → α} {f : Field} (hg : ∀ (e : Eff) (s : State), e.field ≠ f → g (e.apply s) = g s)
    (hf : f ∈ fs) {p : Prog} (hp : p.Every fun e => e.spares fs sub = true) (s : State) : g (p.run s) = g s :=
  run_keeps hp (fun e s he => hg e s fun h => Eff.field_notMem_of_spares he (h ▸ hf)) s

theorem regAt_run_of_spares {p : Prog} (hp : p.Every fun e => e.spares fs sub = true) {k : Nat} (hk : k % 256 = sub) (s : State) :
    (p.run s).regAt k = s.regAt k := by
  refine run_keeps (g := fun s => s.regAt k) hp (fun e s he => ?_) s
  have he := (Bool.and_eq_true_iff.mp he).2
  cases e with
  | regs j v =>
    refine get_set_ne _ _ _ _ _ _ ?_
    rintro rfl
    exact of_decide_eq_true he hk
  | dropRegs lo hi => exact Bool.noConfusion he
  | _ => rfl

end spares

/-! ## Reports spare -/

/-- The fields that a report can write. -/
def reportFields : List Field :=
  [.regs, .raised, .heldEvents, .out, .errorHistory, .emcyBusy, .msixWaiting, .onceUsed, .limits]

theorem spares_of_isReport {fs : List Field} {sub : Nat} (hfs : ∀ f ∈ reportFields, f ∉ fs) (hsub : sub ∉ [0, 3, 8]) (e : Eff)
    (h : e.isReport = true) : e.spares fs sub = true := by
  have hkeys : ∀ k ∈ reportKeys, k % 256 ∈ [0, 3, 8] := by decide
  cases e with
  | regs k v => exact Eff.spares_regs (hfs _ (by decide)) fun hk => hsub (hk ▸ hkeys k (List.contains_iff_mem.mp h))
  | raised | heldEvents | emit | errorHistory | emcyBusy | msixWaiting | onceUsed | limits =>
    exact Bool.and_eq_true_iff.mpr ⟨decide_eq_true (hfs _ (by simp [reportFields])), rfl⟩
  | _ => exact Bool.noConfusion h

end Sys2Proof.Machine

/-! SUPPORT. The link directions of Mortar: what a flit, a retry and a failure leave (O51; R247, R248). -/

namespace Sys2Proof.Machine

open Sys2Proof

/-! ## What a failure writes beside its direction -/

/-- What the failure of a link direction writes beside it: neither links, nor memory, nor running sections, nor the failed directions
of a site (0x3000 + n:8A). -/
def Eff.isLoss (e : Eff) : Bool := e.spares [.links, .mem, .running] 0x8A

@[simp] theorem isLoss_regs {idx j v : Nat} (h : j % 256 ≠ 0x8A) : (Eff.regs (rk idx j) v).isLoss = true :=
  Eff.spares_regs (by decide) (by unfold rk; omega)

@[simp] theorem isLoss_of_field {e : Eff} (h : e.field ∉ [Field.regs, .links, .mem, .running]) : e.isLoss = true :=
  Eff.spares_of_field h

@[simp] theorem every_report_isLoss (code kind num a1 a2 : Nat) : (report code kind num a1 a2).Every fun e => e.isLoss = true :=
  every_mono (spares_of_isReport (by decide) (by decide)) (every_report code kind num a1 a2)

@[simp] theorem every_reportOnce_isLoss (code c site kind num a1 a2 : Nat) :
    (reportOnce code c site kind num a1 a2).Every fun e => e.isLoss = true :=
  every_mono (spares_of_isReport (by decide) (by decide)) (every_reportOnce code c site kind num a1 a2)

@[simp] theorem every_packetDone_isLoss (p : Packet) : (packetDone p).Every fun e => e.isLoss = true := by
  simp [packetDone, setReg, modCtx]

@[simp] theorem every_unclaimRoute_isLoss (plane n port : Nat) (p : Packet) : (unclaimRoute plane n port p).Every fun e => e.isLoss = true := by
  simp [unclaimRoute]

@[simp] theorem every_returnNaming_isLoss (p : Packet) (reason n named : Nat) :
    (returnNaming p reason n named).Every fun e => e.isLoss = true := by
  simp [returnNaming, count32, count64, bump, setReg]

@[simp] theorem every_returnHeld_isLoss (plane n d port cls : Nat) (escape : Bool) :
    (returnHeld plane n d port cls escape).Every fun e => e.isLoss = true := by
  simp [returnHeld]

@[simp] theorem every_dropPartly_isLoss (n d : Nat) (f : Flight) : (dropPartly n d f).Every fun e => e.isLoss = true := by
  simp [dropPartly, unclaimAt]

@[simp] theorem every_wantFence_isLoss (f : FenceReq) : (wantFence f).Every fun e => e.isLoss = true := by
  simp only [wantFence, every_look, every_whenP]
  intro s _
  split
  · simp [holdFence, reportRegions, setReg]
  · simp

@[simp] theorem every_siteFault_isLoss (n k w : Nat) : (siteFault n k w).Every fun e => e.isLoss = true := by
  simp [siteFault, addEvidence, setScore, policyFence, decisionNeeded, setReg]

/-! ## Link directions (R247, R248) -/

theorem Eff.keeps_links {e : Eff} (h : e.field ≠ .links) (s : State) : (e.apply s).links = s.links := by
  cases e <;> first | rfl | exact absurd rfl h

section link

variable {s : State} {n plane d : Nat}

theorem link_of_links {s t : State} (h : t.links = s.links) (k : Nat) : t.link k = s.link k :=
  congrArg (fun L => Tab.get ({} : LinkState) L k) h

theorem modLink_links (h : Tab.Canon (fun _ => ({} : LinkState)) s.links) (k : Nat) (f : LinkState → LinkState) :
    ∃ L, (modLink k f).run s = { s with links := L } ∧ Tab.get {} L k = f (s.link k) ∧ ∀ j, j ≠ k → Tab.get {} L j = s.link j :=
  ⟨_, rfl, (Tab.get_set h.1 ..).trans (if_pos rfl), fun _ hj => (Tab.get_set h.1 ..).trans (if_neg hj)⟩

/-- A link direction whose receiver has taken the next flit. -/
def LinkState.received (l : LinkState) : LinkState := { l.acked with expected := (l.expected + 1) % 64, fails := 0 }

theorem LinkState.received_cons {l : LinkState} {f : Flight} {fs : List Flight} (h : l.flight = f :: fs) : l.received =
    { l with flight := if f.left ≤ 1 then fs else { f with left := f.left - 1 } :: fs, expected := (l.expected + 1) % 64, fails := 0 } := by
  simp [LinkState.received, LinkState.acked, h]

/-- A flit comes on a working direction whose receiver does not reject (R247). -/
structure State.FlitComes (s : State) (plane n d : Nat) : Prop where
  pending : 0 < (s.link (linkKey plane n d)).unacked
  takes : (s.link (linkKey plane n d)).rejecting = false
  up : s.linkFailed plane n d = false

theorem State.FlitComes.run_none (h : s.FlitComes plane n d) :
    (flitProg n plane d .none).run s = (modLink (linkKey plane n d) LinkState.received).run s := by
  obtain ⟨hpending, htakes, hup⟩ := h
  simp only [flitProg, run_look, hpending, htakes, hup, decide_true, Bool.not_false, Bool.and_self, run_whenP, if_true, run_all_cons,
    run_all_nil, run_skip]
  rfl

theorem State.FlitComes.run_corrected (h : s.FlitComes plane n d) {m : Nat} (hm : routerBeyond n d = some m) (hsite : m < 3264) :
    (flitProg n plane d .corrected).run s =
      (count32 (0x3000 + m) 0x83 1).run ((modLink (linkKey plane n d) LinkState.received).run s) := by
  obtain ⟨hpending, htakes, hup⟩ := h
  simp only [flitProg, run_look, hpending, htakes, hup, decide_true, Bool.not_false, Bool.and_self, run_whenP, if_true, run_all_cons,
    run_all_nil, hm, run_withP_some, hsite]
  rfl

/-- A link direction whose receiver rejects what comes until the sender resends. -/
def LinkState.rejected (l : LinkState) : LinkState := { l with rejecting := true, fails := l.fails + 1 }

theorem State.FlitComes.run_bad (h : s.FlitComes plane n d) : (flitProg n plane d .bad).run s =
    if s.reg 0x2A00 0x03 < (s.link (linkKey plane n d)).fails + 1 then (failLink plane n d).run s
    else (modLink (linkKey plane n d) LinkState.rejected).run s := by
  obtain ⟨hpending, htakes, hup⟩ := h
  simp only [flitProg, run_look, hpending, htakes, hup, decide_true, Bool.not_false, Bool.and_self, run_whenP, if_true]
  rw [run_ite]
  rfl

/-- What a failed direction loses: the receiver discards, the sender returns (R248). -/
def loseFlights (plane n d : Nat) (l : LinkState) : Prog := all [
  report 0x5005 (endpointUnit n).1 (endpointUnit n).2 n (pairArg n (4 * plane + d)),
  eachP l.flight (dropPartly n d),
  eachP [0, 1, 2, 3, 4] fun port => eachP [0, 1, 2] fun cls => all [
    returnHeld plane n d port cls false, returnHeld plane n d port cls true]]

theorem every_loseFlights_isLoss (plane n d : Nat) (l : LinkState) : (loseFlights plane n d l).Every fun e => e.isLoss = true := by
  simp [loseFlights]

/-- A site marks its failed direction in 0x3000 + n:8A. -/
def markFailed (plane n d : Nat) : Prog := .look fun t =>
  if n < 3264 then setReg (0x3000 + n) 0x8A (setBit (t.reg (0x3000 + n) 0x8A) (4 * plane + d)) else .skip

theorem run_failLink (plane n d : Nat) (s : State) : (failLink plane n d).run s =
    (whenP (decide (n < 3264)) (siteFault n 4 600)).run ((modLink (linkKey plane n d) fun _ => { failed := decide (3264 ≤ n) }).run
      ((loseFlights plane n d (s.link (linkKey plane n d))).run ((markFailed plane n d).run s))) := by
  simp only [failLink, loseFlights, markFailed, run_look, run_all_cons, run_all_nil]

theorem markFailed_marks (hs : s.Canonical) (plane n d : Nat) : ∃ R, (markFailed plane n d).run s = { s with regs := R } ∧
    (n < 3264 → (Tab.get (regDefault (rk (0x3000 + n) 0x8A)) R (rk (0x3000 + n) 0x8A)).testBit (4 * plane + d) = true) := by
  rw [markFailed, run_look, run_ite]
  split
  · refine ⟨_, rfl, fun _ => ?_⟩
    have hreg := (reg_setReg hs.regs (by decide) (by decide) (setBit (s.reg (0x3000 + n) 0x8A) (4 * plane + d))).trans
      (if_pos (⟨rfl, rfl⟩ : 0x3000 + n = 0x3000 + n ∧ 0x8A = 0x8A))
    refine (congrArg (Nat.testBit · _) hreg).trans ?_
    rw [setBit, Nat.testBit_or, Nat.testBit_two_pow_self, Bool.or_true]
  · rename_i hn
    exact ⟨s.regs, rfl, fun hlt => absurd hlt hn⟩

/-- What a failure writes beside the direction keeps the links, memory, the running sections and the marks of failed directions. -/
theorem run_isLoss {p : Prog} (hp : p.Every fun e => e.isLoss = true) (s : State) :
    (p.run s).links = s.links ∧ (p.run s).mem = s.mem ∧ (p.run s).running = s.running ∧
      ∀ i, (p.run s).reg i 0x8A = s.reg i 0x8A :=
  ⟨run_keeps_of_spares (fun _ u h => Eff.keeps_links h u) (by decide) hp s,
    run_keeps_of_spares (fun _ u h => Eff.keeps_mem h u) (by decide) hp s,
    run_keeps_of_spares (fun _ u h => Eff.keeps_running h u) (by decide) hp s, fun _ => regAt_run_of_spares hp (by unfold rk; omega) s⟩

/-- A failed direction is marked and has nothing in flight; no other direction, no memory and no running section differs (R248). -/
theorem failLink_fails (hs : s.Canonical) (plane n d : Nat) {t : State} (ht : (failLink plane n d).run s = t) :
    (n < 3264 → (t.reg (0x3000 + n) 0x8A).testBit (4 * plane + d) = true) ∧
      t.link (linkKey plane n d) = { failed := decide (3264 ≤ n) } ∧ (∀ k, k ≠ linkKey plane n d → t.link k = s.link k) ∧
      t.mem = s.mem ∧ t.running = s.running := by
  obtain ⟨R, hmark, hmarked⟩ := markFailed_marks hs plane n d
  obtain ⟨hlinks, hmem, hrunning, hreg⟩ := run_isLoss (every_loseFlights_isLoss plane n d (s.link (linkKey plane n d))) { s with regs := R }
  have hcanon := run_canonical (loseFlights plane n d (s.link (linkKey plane n d))) (hmark ▸ run_canonical (markFailed plane n d) hs)
  rw [run_failLink, hmark] at ht
  generalize (loseFlights plane n d (s.link (linkKey plane n d))).run { s with regs := R } = u at *
  obtain ⟨L, hreset, hlink, hothers⟩ := modLink_links hcanon.links (linkKey plane n d) fun _ => { failed := decide (3264 ≤ n) }
  obtain ⟨hlinks', hmem', hrunning', hreg'⟩ := run_isLoss (p := whenP (decide (n < 3264)) (siteFault n 4 600)) (by simp)
    { u with links := L }
  rw [hreset] at ht
  rw [ht] at hlinks' hmem' hrunning' hreg'
  refine ⟨fun hn => ?_, (link_of_links hlinks' _).trans hlink,
    fun k hk => ((link_of_links hlinks' k).trans (hothers k hk)).trans (link_of_links hlinks k), hmem'.trans hmem, hrunning'.trans hrunning⟩
  rw [(hreg' _).trans (hreg _)]
  exact hmarked hn

/-- A resent direction: its receiver takes what comes, and the retry counts in its second. -/
def LinkState.resent (sec : Nat) (l : LinkState) : LinkState :=
  { l with rejecting := false, second := sec, retries := if l.second = sec then l.retries + 1 else 1 }

theorem run_retryProg (hrej : (s.link (linkKey plane n d)).rejecting = true) (hup : s.linkFailed plane n d = false) :
    ∃ c : Bool, (retryProg n plane d).run s =
      (whenP c (report 0x5004 (endpointUnit n).1 (endpointUnit n).2 n (pairArg n (4 * plane + d)))).run
        ((whenP (decide (n < 3264)) (count32 (0x3000 + n) 0x84 1)).run
          ((modLink (linkKey plane n d) (LinkState.resent (s.now / second + 1))).run s)) := by
  refine ⟨?c, ?run⟩
  case run =>
    simp only [retryProg, run_look, hrej, hup, Bool.not_false, Bool.and_self, run_whenP, if_true, run_all_cons, run_all_nil]
    rfl

/-- A retry ends the rejection and counts at its site (R248). -/
theorem linkRetry_resends (hs : s.Canonical) {n : Endpoint} {plane : Plane} {d : Dir}
    (hrej : (s.link (linkKey plane n d)).rejecting = true) (hup : s.linkFailed plane n d = false) :
    ∃ t, exec (.linkRetry n plane d) s = .next t ∧ t = { s.reported t with links := t.links } ∧
      t.link (linkKey plane n d) = (s.link (linkKey plane n d)).resent (s.now / second + 1) ∧
      (n.val < 3264 → t.reg (0x3000 + n) 0x84 = satAdd 32 (s.reg (0x3000 + n) 0x84) 1) ∧
      ∀ k, k ≠ linkKey plane n d → t.link k = s.link k := by
  obtain ⟨c, hrun⟩ := run_retryProg hrej hup
  obtain ⟨L, hresent, hlink, hothers⟩ := modLink_links hs.links (linkKey plane n d) (LinkState.resent (s.now / second + 1))
  obtain ⟨R, hcount, -, hreg⟩ := bump_counts (s := { s with links := L }) hs.regs (decide (n.val < 3264)) 32 (0x3000 + n) 0x84 1
  obtain ⟨u, hreport, hkeep⟩ := run_isReport
    (p := whenP c (report 0x5004 (endpointUnit n).1 (endpointUnit n).2 n (pairArg n (4 * plane + d)))) (by simp) { s with links := L, regs := R }
  rw [hresent, count32, hcount, hreport] at hrun
  refine ⟨_, congrArg Host.Outcome.next hrun, rfl, hlink, fun hn => ?_, hothers⟩
  exact ((hkeep _ (site_notMem_reportKeys n 0x84)).trans (hreg _)).trans (if_pos ⟨decide_eq_true hn, rfl⟩)

end link

/-- Settles O51: an intact flit only moves its direction on, a bad one above the threshold is `failLink`, of whose steps only the
first and the reset of the direction touch what the statement names. -/
theorem mortarLinksRetryAndFail : Obligations.MortarLinksRetryAndFail := by
  rintro s n plane d _ _ f fs hs rfl hup hflight rfl
  refine ⟨fun hleft hrej => ?_, fun hrej => linkRetry_resends hs hrej hup⟩
  have hcomes : s.FlitComes plane n d := ⟨by rw [LinkState.unacked, hflight, List.map_cons, List.sum_cons]; omega, hrej, hup⟩
  obtain ⟨L, hreceive, hlink, hothers⟩ := modLink_links hs.links (linkKey plane n d) LinkState.received
  rw [LinkState.received_cons hflight] at hlink
  refine ⟨?_, fun m hm hsite => ?_, fun hwithin => ?_, fun habove => ?_⟩
  · exact ⟨_, congrArg Host.Outcome.next (hcomes.run_none.trans hreceive), rfl, hlink, hothers⟩
  · obtain ⟨R, hcount, -, hreg⟩ := bump_counts (s := { s with links := L }) hs.regs true 32 (0x3000 + m) 0x83 1
    have hrun := hcomes.run_corrected hm hsite
    rw [hreceive] at hrun
    exact ⟨_, congrArg Host.Outcome.next (hrun.trans hcount), rfl, hlink, (hreg _).trans (if_pos ⟨rfl, rfl⟩),
      fun k hk => (hreg k).trans (if_neg fun h => hk h.2)⟩
  · obtain ⟨L', hreject, hrejected, hothers⟩ := modLink_links hs.links (linkKey plane n d) LinkState.rejected
    have hrun := hcomes.run_bad.trans (if_neg (Nat.not_lt.mpr hwithin))
    exact ⟨_, congrArg Host.Outcome.next (hrun.trans hreject), rfl, hrejected, hothers⟩
  · have hrun := hcomes.run_bad.trans (if_pos habove)
    exact ⟨_, congrArg Host.Outcome.next hrun, failLink_fails hs plane n d rfl⟩

end Sys2Proof.Machine

/-! SUPPORT. Mortar's buffers once a packet has left or entered one, its claims and grants, the accounts of contexts, and returned
packets (R232, R240, R241, R245, R265, R285). -/

namespace Sys2Proof.Machine

open Sys2Proof

/-! ## Buffers (R232) -/

/-- Table `N` is in canonical form, and its buffers hold what `f` says. -/
structure Buffers (N : Tab (List Packet)) (f : Nat → List Packet) : Prop where
  canon : Tab.Canon (fun _ => []) N
  get : ∀ k, Tab.get [] N k = f k

theorem State.Canonical.buffers {s : State} (h : s.Canonical) : Buffers s.net s.netAt := ⟨h.net, fun _ => rfl⟩

theorem Buffers.set {N : Tab (List Packet)} {f : Nat → List Packet} (h : Buffers N f) (k : Nat) (v : List Packet) :
    Buffers (Tab.set [] N k v) (Function.update f k v) :=
  ⟨Tab.canon_set h.canon k v, fun j => by rw [Tab.get_set h.canon.1, h.get, Function.update_apply]⟩

section buffers

variable {s : State} {f : Nat → List Packet} (h : Buffers s.net f)

include h

/-- The packet at the head of a buffer leaves it. -/
theorem Buffers.takeNet {k : Nat} {p : Packet} {rest : List Packet} (hk : f k = p :: rest) :
    ∃ N, (takeNet k p).run s = { s with net := N } ∧ Buffers N (Function.update f k rest) := by
  have hrest : (s.netAt k).erase p = rest := by rw [State.netAt, h.get, hk, List.erase_cons_head]
  exact ⟨_, rfl, hrest ▸ h.set k _⟩

/-- A packet enters a buffer where `c` says so. -/
theorem Buffers.pushNet (c : Bool) (k : Nat) (p : Packet) :
    ∃ N, (whenP c (pushNet k p)).run s = { s with net := N } ∧
      Buffers N (Function.update f k (f k ++ if c then [p] else [])) := by
  cases c with
  | false => exact ⟨s.net, rfl, by simpa using h⟩
  | true => exact ⟨_, rfl, h.get k ▸ h.set k _⟩

end buffers

/-! ## Claims, grants and the accounts of contexts (R240, R241, R265, R285) -/

theorem eachP_claims_frame (ks : List Nat) (f : State → Nat → Nat) (s : State) :
    ∃ C, (eachP ks fun k => withState fun t => .claims k (f t k)).run s = { s with claims := C } := by
  induction ks generalizing s with
  | nil => exact ⟨s.claims, rfl⟩
  | cons k ks ih => exact ih _

/-- Only a SYNC packet claims its route. -/
theorem claimRoute_frame (plane node port : Nat) (p : Packet) (s : State) :
    ∃ C, (claimRoute plane node port p).run s = { s with claims := C } ∧ (p.cls ≠ 0 → C = s.claims) := by
  rw [claimRoute, run_look, run_whenP]
  split
  · rename_i hsync
    obtain ⟨C, hrun⟩ := eachP_claims_frame (s.pathOf plane node port p) (fun t k => t.claimAt k + 1) s
    exact ⟨C, hrun, fun h => absurd (beq_iff_eq.mp hsync) h⟩
  · exact ⟨s.claims, rfl, fun _ => rfl⟩

theorem unclaimRoute_frame (plane node port : Nat) (p : Packet) (s : State) :
    ∃ C, (unclaimRoute plane node port p).run s = { s with claims := C } := by
  rw [unclaimRoute, run_look, run_whenP]
  split
  · exact eachP_claims_frame (s.pathOf plane node port p) (fun t k => t.claimAt k - 1) s
  · exact ⟨s.claims, rfl⟩

theorem passClaim_frame (plane n d : Nat) (p : Packet) (s : State) : ∃ C, (passClaim plane n d p).run s = { s with claims := C } := by
  rw [passClaim, run_whenP]
  split
  · exact ⟨_, rfl⟩
  · exact ⟨s.claims, rfl⟩

theorem grantOutput_frame (plane node out cls port : Nat) (s : State) :
    ∃ A, (grantOutput plane node out cls port).run s = { s with arbs := A } := ⟨_, rfl⟩

/-- An effect on what contexts keep of their packets: their own state, and the count of object 0x2700 + c:0A. -/
def Eff.isAccount (e : Eff) : Bool :=
  match e with
  | .regs k _ => decide (k % 256 = 0x0A)
  | .ctxs _ _ => true
  | _ => false

theorem run_isAccount {p : Prog} (h : p.Every fun e => e.isAccount = true) {s : State} (hs : s.Sorted) :
    ∃ R C, p.run s = { s with regs := R, ctxs := C } ∧ Tab.Canon regDefault R ∧
      ∀ k, k % 256 ≠ 0x0A → Tab.get (regDefault k) R k = s.regAt k := by
  obtain ⟨R, C, hrun, hkeep⟩ : ∃ R C, p.run s = { s with regs := R, ctxs := C } ∧
      ∀ k, k % 256 ≠ 0x0A → Tab.get (regDefault k) R k = s.regAt k := by
    refine run_rel (R := fun s t => ∃ R C, t = { s with regs := R, ctxs := C } ∧
        ∀ k, k % 256 ≠ 0x0A → Tab.get (regDefault k) R k = s.regAt k) (fun s => ⟨s.regs, s.ctxs, rfl, fun _ _ => rfl⟩) ?_ h ?_ s
    · rintro s _ _ ⟨R, C, rfl, h⟩ ⟨R', C', rfl, h'⟩
      exact ⟨R', C', rfl, fun k hk => (h' k hk).trans (h k hk)⟩
    · intro e s he
      cases e with
      | regs j v =>
        refine ⟨_, s.ctxs, rfl, fun k hk => get_set_ne _ _ _ _ _ _ ?_⟩
        rintro rfl
        exact hk (of_decide_eq_true he)
      | ctxs j v => exact ⟨s.regs, _, rfl, fun _ _ => rfl⟩
      | _ => exact Bool.noConfusion he
  have hsorted := run_sorted p hs
  rw [hrun] at hsorted
  exact ⟨R, C, hrun, hsorted, hkeep⟩

@[simp] theorem isAccount_regs {i v : Nat} : (Eff.regs (rk i 0x0A) v).isAccount = true :=
  decide_eq_true (by unfold rk; omega)

@[simp] theorem isAccount_ctxs {c : Nat} {x : CtxCore} : (Eff.ctxs c x).isAccount = true := rfl

theorem every_packetDone_isAccount (p : Packet) : (packetDone p).Every fun e => e.isAccount = true := by
  simp [packetDone, setReg, modCtx]

theorem every_injectedFor_isAccount (q : Request) : (injectedFor q).Every fun e => e.isAccount = true := by
  unfold injectedFor
  split <;> simp [endDescriptor, modCtx]

/-! ## Returned packets (R245) -/

/-- A packet that is no RETURN itself comes back to its sender, and counts. -/
theorem returnNaming_returns {s : State} (h : s.Sorted) {p : Packet} (hp : p.typ ≠ 0x3E) (reason node named : Nat) :
    ∃ u C, (returnNaming p reason node named).run s =
        { s.reported u with issue := s.issue ++ [{ packet := returnOf p reason node }], ctxs := C } ∧
      u.reg 0x2A00 0x07 = satAdd 64 (s.reg 0x2A00 0x07) 1 := by
  obtain ⟨R, C, hdone, hsorted, hkeep⟩ := run_isAccount (every_packetDone_isAccount p) h
  obtain ⟨R₁, hsite, hsorted₁, hreg₁⟩ := bump_counts (s := { s with regs := R, ctxs := C }) hsorted
    (decide (node < 3264)) 32 (0x3000 + node) 0x86 1
  obtain ⟨R₂, hcount, -, hreg₂⟩ := bump_counts (s := { s with regs := R₁, ctxs := C }) hsorted₁ true 64 0x2A00 0x07 1
  obtain ⟨u, hreport, hkeep'⟩ := run_isReport (every_reportOnce 0x5002 p.ctx node (endpointUnit node).1 (endpointUnit node).2 p.ctx
    (pairArg reason named)) { s with regs := R₂, ctxs := C }
  have hcount : (count64 0x2A00 0x07 1).run _ = _ := hcount
  refine ⟨u, C, ?_, ?_⟩
  · simp only [returnNaming, run_all_cons, run_all_nil, hdone, if_neg hp, count32, hsite, hcount, hreport]
    rfl
  · have hbefore : ({ s with regs := R₁, ctxs := C } : State).reg 0x2A00 0x07 = s.reg 0x2A00 0x07 :=
      ((hreg₁ _).trans (if_neg (by unfold rk; omega))).trans (hkeep _ (by decide))
    exact ((hkeep' _ (by decide)).trans ((hreg₂ _).trans (if_pos ⟨rfl, rfl⟩))).trans (congrArg (satAdd 64 · 1) hbefore)

end Sys2Proof.Machine

/-! SUPPORT. Packets in Mortar: injection, hops and multicasts (R228, R233, R235, R238, R243, R244, R248). -/

namespace Sys2Proof.Machine

open Sys2Proof

/-! ## PACKET_INJECT (R228) -/

section inject

variable {s : State} {src beats : Nat} {q : Request} {p : Packet} {rest : List Request}

theorem requestPacket_of_dst (hsrc : q.packet.src = src) (haddr : q.byAddr = false)
    (hp : p = { q.packet with plane := s.planeFor q.packet src }) : s.requestPacket q = some p := by
  subst hp hsrc
  simp only [State.requestPacket, haddr, Bool.false_eq_true, if_false, Option.map_some]

theorem nextRequest_oldest (hsrc : q.packet.src = src) (hgo : s.injectStopped q.packet = false) (htakes : s.injects q beats = true) :
    s.nextRequest src beats [] (q :: rest) = some q := by
  simp [State.nextRequest, hsrc, hgo, htakes]

theorem injects_of_returned {r : Nat} (hp : s.requestPacket q = some p) (hr : s.injectReason p = some r) : s.injects q beats = true := by
  simp [State.injects, hp, hr]

theorem injects_of_room (hp : s.requestPacket q = some p) (hsrc : p.src = src) (hdst : p.dst ≠ 0xFFF)
    (hroom : s.room (netKey p.plane src 0 p.cls) 18 p = true) (hpace : p.cls ≠ 0 ∨ 3264 ≤ src ∨ s.reg 0x2A00 0x04 ≤ beats) :
    s.injects q beats = true := by
  subst hsrc
  simpa [State.injects, hp, hdst, hroom, or_assoc] using Or.inr hpace

/-- An injectable unicast leaves the issue list for the local buffer of its router. -/
theorem run_injectProg_sent (hissue : s.issue = q :: rest) (hnext : s.nextRequest src beats [] (q :: rest) = some q)
    (hp : s.requestPacket q = some p) (hr : s.injectReason p = none) (hdst : p.dst ≠ 0xFFF) :
    (injectProg src beats).run s = (all [whenP true (pushNet (netKey p.plane src 0 p.cls) p), claimRoute p.plane src 0 p]).run
      ((whenP (decide (src < 3264)) (bump 64 (0x3000 + src) 0x80 1)).run
        ((all [injectedFor q, whenP (isFlagOp p) (count32 (0x2700 + p.ctx) 0x0A 1)]).run { s with issue := rest })) := by
  have hgone : (Eff.issue ((q :: rest).erase q)).apply s = { s with issue := rest } := by rw [List.erase_cons_head]; rfl
  have hends : endsHere p = false := by simp [endsHere, hdst]
  simp only [injectProg, run_look, hissue, hnext, run_withP_some, hp, hr, run_all_cons, run_all_nil, run_withState, hgone,
    bne_iff_ne.mpr hdst, beq_eq_false_iff_ne.mpr hdst, Bool.and_true, Bool.false_and, hends, Bool.not_false, run_whenP,
    Bool.false_eq_true, if_false, if_true, run_seq, count64]

theorem run_injectProg_returned {r : Nat} (hissue : s.issue = q :: rest) (hnext : s.nextRequest src beats [] (q :: rest) = some q)
    (hp : s.requestPacket q = some p) (hr : s.injectReason p = some r) :
    (injectProg src beats).run s = (returnPacketTo p r src).run
      ((whenP (isFlagOp p) (setReg (0x2700 + p.ctx) 0x0A (s.reg (0x2700 + p.ctx) 0x0A + 1))).run { s with issue := rest }) := by
  have hgone : (Eff.issue ((q :: rest).erase q)).apply s = { s with issue := rest } := by rw [List.erase_cons_head]; rfl
  simp only [injectProg, run_look, hissue, hnext, run_withP_some, hp, hr, run_all_cons, run_all_nil, run_withState, hgone]

/-- A packet that its own router turns away is no RETURN (R246). -/
theorem typ_of_injectReason {r : Nat} (h : s.injectReason p = some r) : p.typ ≠ 0x3E := by
  intro htyp
  rw [State.injectReason, if_pos htyp] at h
  exact nomatch h

end inject

section requests

variable {s : State} (hs : s.Canonical) {src : Endpoint} {beats : Nat} {q : Request} {rest : List Request} {p : Packet}
  (hissue : s.issue = q :: rest) (hsrc : q.packet.src = src.val) (haddr : q.byAddr = false)
  (hp : p = { q.packet with plane := s.planeFor q.packet src }) (hgo : s.injectStopped q.packet = false)

include hs hissue hsrc haddr hp hgo

/-- The oldest request of an endpoint goes out when its router has room for it (R228, R241). -/
theorem packetInject_sends (hr : s.injectReason p = none) (hdst : p.dst ≠ 0xFFF) (hroom : s.room (netKey p.plane src 0 p.cls) 18 p = true)
    (hpace : p.cls ≠ 0 ∨ 3264 ≤ src.val ∨ s.reg 0x2A00 0x04 ≤ beats) :
    ∃ t, exec (.packetInject src beats) s = .next t ∧ t.issue = rest ∧
      t.netAt (netKey p.plane src 0 p.cls) = s.netAt (netKey p.plane src 0 p.cls) ++ [p] ∧
      (∀ k, k ≠ netKey p.plane src 0 p.cls → t.netAt k = s.netAt k) ∧ (p.cls ≠ 0 → t.claims = s.claims) ∧
      t = { s with issue := rest, net := t.net, regs := t.regs, ctxs := t.ctxs, claims := t.claims } := by
  have hpacket := requestPacket_of_dst hsrc haddr hp
  have hpsrc : p.src = src.val := by rw [hp]; exact hsrc
  have hnext := nextRequest_oldest (rest := rest) hsrc hgo (injects_of_room hpacket hpsrc hdst hroom hpace)
  obtain ⟨R, C, haccount, hsorted, -⟩ := run_isAccount
    (p := all [injectedFor q, whenP (isFlagOp p) (count32 (0x2700 + p.ctx) 0x0A 1)])
    (by simp [every_injectedFor_isAccount, count32, bump, setReg]) (s := { s with issue := rest }) hs.regs
  obtain ⟨R', hcount, -, -⟩ := bump_counts (s := { s with issue := rest, regs := R, ctxs := C }) hsorted
    (decide (src.val < 3264)) 64 (0x3000 + src) 0x80 1
  obtain ⟨N, hpush, hbuffers⟩ := Buffers.pushNet (s := { s with issue := rest, regs := R', ctxs := C }) hs.buffers true
    (netKey p.plane src 0 p.cls) p
  obtain ⟨K, hclaim, hclaims⟩ := claimRoute_frame p.plane src 0 p { s with issue := rest, regs := R', ctxs := C, net := N }
  have hrun := run_injectProg_sent hissue hnext hpacket hr hdst
  simp only [haccount, hcount, run_all_cons, run_all_nil, hpush, hclaim] at hrun
  exact ⟨_, congrArg Host.Outcome.next hrun, rfl, (hbuffers.get _).trans (Function.update_self ..),
    fun k hk => (hbuffers.get k).trans (Function.update_of_ne hk ..), hclaims, rfl⟩

/-- A request that the source's own router turns away comes back (R245). -/
theorem packetInject_returns {r : Nat} (hr : s.injectReason p = some r) : ∃ t, exec (.packetInject src beats) s = .next t ∧
    t.issue = rest ++ [{ packet := returnOf p r src }] ∧ t.reg 0x2A00 0x07 = satAdd 64 (s.reg 0x2A00 0x07) 1 ∧
    t = { s.reported t with issue := t.issue, ctxs := t.ctxs } := by
  have hpacket := requestPacket_of_dst hsrc haddr hp
  have hnext := nextRequest_oldest (rest := rest) (beats := beats) hsrc hgo (injects_of_returned hpacket hr)
  obtain ⟨R, C, haccount, hsorted, hkeep⟩ := run_isAccount
    (p := whenP (isFlagOp p) (setReg (0x2700 + p.ctx) 0x0A (s.reg (0x2700 + p.ctx) 0x0A + 1))) (by simp [setReg])
    (s := { s with issue := rest }) hs.regs
  obtain ⟨u, C', hreturn, hcount⟩ := returnNaming_returns (s := { s with issue := rest, regs := R, ctxs := C }) hsorted
    (typ_of_injectReason hr) r src p.dst
  have hrun := run_injectProg_returned hissue hnext hpacket hr
  rw [haccount, returnPacketTo, hreturn] at hrun
  exact ⟨_, congrArg Host.Outcome.next hrun, rfl, hcount.trans (congrArg (satAdd 64 · 1) (hkeep _ (by decide))), rfl⟩

end requests

/-! ## ROUTER_HOP (R233, R235, R240, R248) -/

/-- Buffers of two routers, or of two ports of one, have keys of their own. -/
theorem netKey_ne {plane n m i j c : Nat} (hi : i < 16) (hj : j < 16) (h : n ≠ m ∨ i ≠ j) :
    netKey plane n i c ≠ netKey plane m j c := by
  unfold netKey; omega

theorem neighbour_ne {n d m : Nat} (h : neighbour n d = some m) : m ≠ n := by
  unfold neighbour at h
  split at h <;> split at h <;> simp at h <;> omega

theorem opposite_lt (d : Nat) : opposite d < 4 := Nat.mod_lt _ (by decide)

theorem xSite_lt {x : Nat} (h : x < 128) : xSite x < 3264 := by
  unfold xSite
  split_ifs <;> omega

theorem endpointSite_lt (n : Nat) : endpointSite n < 3264 := by
  have hcorner : ∀ q, cornerSite q < 3264 := fun q => by unfold cornerSite; split <;> decide
  unfold endpointSite
  split_ifs
  · assumption
  · exact xSite_lt (by omega)
  · exact hcorner _

theorem endpointPort_lt {n d : Nat} (h : endpointPort n = some d) : 3264 ≤ n ∧ d < 4 := by
  unfold endpointPort xPort cornerPort at h
  split_ifs at h <;> obtain rfl := Option.some.inj h <;> omega

theorem portBeyond_lt (n d : Nat) : portBeyond n d < 5 := by
  have hopp := opposite_lt d
  unfold portBeyond
  split
  · split <;> omega
  · cases h : endpointPort n with
    | none => decide
    | some e => have := (endpointPort_lt h).2; simp only [Option.getD_some]; omega

section hop

variable {s : State} {plane node port cls : Nat} {p : Packet} {rest : List Packet}

/-- An ordered packet that has met no detour leaves by its X-Y direction while the way there is sound (R235). -/
theorem moveOf_xy {d n' : Nat} (hsite : node < 3264) (hordered : adaptive p = false) (hroute : p.detoured = false)
    (hdir : xyDir node (endpointSite p.dst) = some d) (hnext : neighbour node d = some n') (hlive : s.deadSite n' = false)
    (hdst : s.deadSite (endpointSite p.dst) = false) (hup : s.linkFailed plane node d = false) :
    s.moveOf plane node port p = .link d n' (1 + opposite d) false := by
  have hahead : s.deadAhead node d = false := by simp [State.deadAhead, hnext, hlive]
  have hout : s.xyOut node (endpointSite p.dst) port p.detoured = some (d, false) := by
    simp [State.xyOut, hdir, hahead, hroute]
  have hport : portBeyond node d = 1 + opposite d := by simp [portBeyond, hsite, hnext]
  simp [State.moveOf, Nat.not_le.mpr hsite, hordered, hout, hdst, hahead, hnext, hup, hport]

theorem heads_of_netAt (h : s.netAt (netKey plane node port cls) = p :: rest) :
    ∃ more, s.heads plane node port cls = (netKey plane node port cls, p) :: more := by
  simp [State.heads, h]

/-- The head of an input that can take an output acts when that output grants its input. -/
theorem actsNow_of_granted (h : s.netAt (netKey plane node port cls) = p :: rest) {o : Nat} (hwants : s.wants plane node port p = some o)
    (hgranted : s.granted plane node o = some (cls, port)) (more : List (Nat × Packet)) (isBack : Packet → Bool) :
    s.actsNow plane node port cls ((netKey plane node port cls, p) :: more) isBack = some (netKey plane node port cls, p) := by
  obtain ⟨others, hheads⟩ := heads_of_netAt h
  have hwaiting : s.waiting plane node o cls port = some (netKey plane node port cls, p) := by
    simp [State.waiting, hheads, hwants]
  simp [State.actsNow, hwants, hgranted, hwaiting]

theorem actsNow_of_back {key : Nat} {isBack : Packet → Bool} (hback : isBack p = true) (more : List (Nat × Packet)) :
    s.actsNow plane node port cls ((key, p) :: more) isBack = some (key, p) := by
  simp [State.actsNow, hback]

/-- The head of an input that acts makes its move. -/
theorem run_hopProg (h : s.netAt (netKey plane node port cls) = p :: rest) (hdst : p.dst ≠ 0xFFF)
    (hacts : (∃ o, s.wants plane node port p = some o ∧ s.granted plane node o = some (cls, port)) ∨ s.movesBack plane node port p = true)
    (claimBeats : Nat) : (hopProg plane node port cls claimBeats).run s =
      (makeMove plane node port (netKey plane node port cls) p (s.moveOf plane node port p)).run s := by
  obtain ⟨more, hheads⟩ := heads_of_netAt h
  have hfilter : ∃ more', (s.heads plane node port cls).filter (fun x => x.2.dst != 0xFFF) = (netKey plane node port cls, p) :: more' :=
    ⟨_, by rw [hheads, List.filter_cons_of_pos (by simpa using hdst)]⟩
  obtain ⟨more', hfilter⟩ := hfilter
  have hact : s.actsNow plane node port cls ((netKey plane node port cls, p) :: more') (s.movesBack plane node port) =
      some (netKey plane node port cls, p) := by
    rcases hacts with ⟨o, hwants, hgranted⟩ | hback
    · exact actsNow_of_granted h hwants hgranted ..
    · exact actsNow_of_back hback ..
  simp only [hopProg, run_look, hfilter, hact]

/-- A link leads to another router, and into one of its ports. -/
theorem next_of_link {d next inPort : Nat} {off : Bool} (h : s.moveOf plane node port p = .link d next inPort off) :
    next ≠ node ∧ inPort < 5 := by
  have hport := portBeyond_lt node
  have hacross : ∀ d' m off', (if s.linkFailed plane node d' then Move.back 4 else .link d' m (portBeyond node d') off') =
      .link d next inPort off → m = next ∧ inPort < 5 := by
    intro d' m off' h
    split at h
    · exact nomatch h
    · obtain ⟨-, rfl, rfl, -⟩ := Move.link.inj h
      exact ⟨rfl, hport d'⟩
  simp only [State.moveOf] at h
  split at h
  · rename_i hx
    split at h
    · exact nomatch h
    split at h
    · exact nomatch h
    obtain ⟨rfl, hin⟩ := hacross _ _ _ h
    exact ⟨by have := endpointSite_lt node; omega, hin⟩
  · rename_i hx
    split at h
    · split at h
      · split at h <;> exact nomatch h
      · rename_i e he
        obtain ⟨rfl, hin⟩ := hacross _ _ _ h
        exact ⟨by have := (endpointPort_lt he).1; omega, hin⟩
    · split at h
      · exact nomatch h
      split at h
      · rename_i m hm
        obtain ⟨rfl, hin⟩ := hacross _ _ _ h
        exact ⟨neighbour_ne hm, hin⟩
      · exact nomatch h

/-- The buffer at the far end of a link is not the one that the packet leaves. -/
theorem landing_ne {d next inPort : Nat} {off : Bool} (hport : port < 5) (hcls : cls < 3) (hp : p.cls = cls)
    (h : s.moveOf plane node port p = .link d next inPort off) : (landing plane next inPort p off).1 ≠ netKey plane node port cls := by
  obtain ⟨hne, hin⟩ := next_of_link h
  subst hp
  unfold landing
  split <;> exact netKey_ne (by omega) (by omega) (.inl hne)

/-- A link direction carries a packet: the flits count at a site, and wait for their acknowledgement (R248). -/
theorem sendOnLink_sends (hregs : s.Sorted) (hlinks : Tab.Canon (fun _ => ({} : LinkState)) s.links)
    (plane n d : Nat) (p : Packet) (keys : List Nat) :
    ∃ R L, (sendOnLink plane n d p keys).run s = { s with regs := R, links := L } ∧ Tab.Canon regDefault R ∧
      (∀ k, Tab.get (regDefault k) R k =
        if decide (n < 3264) = true ∧ k = rk (0x3000 + n) 0x82 then satAdd 64 (s.reg (0x3000 + n) 0x82) (flits p) else s.regAt k) ∧
      (Tab.get {} L (linkKey plane n d)).unacked = (s.link (linkKey plane n d)).unacked + flits p ∧
      ∀ k, k ≠ linkKey plane n d → Tab.get {} L k = s.link k := by
  obtain ⟨R, hcount, hsorted, hreg⟩ := bump_counts hregs (decide (n < 3264)) 64 (0x3000 + n) 0x82 (flits p)
  obtain ⟨L, hmod, hlink, hothers⟩ := modLink_links (s := { s with regs := R }) hlinks (linkKey plane n d) fun l => { l with
    nextSeq := (l.nextSeq + flits p) % 64, flight := l.flight ++ [⟨p, keys, flits p⟩] }
  refine ⟨R, L, ?_, hsorted, hreg, ?_, hothers⟩
  · simp only [sendOnLink, count64, run_all_cons, run_all_nil, hcount, hmod]
  · rw [hlink]
    simp [LinkState.unacked, State.link]

/-- The unicast that its output grants moves to the buffer at the far end of the link. -/
theorem linkMove_moves (hs : s.Canonical) (h : s.netAt (netKey plane node port cls) = p :: rest) {d next inPort dest : Nat} {off : Bool}
    (hdest : (landing plane next inPort p off).1 = dest) (hne : dest ≠ netKey plane node port cls) :
    ∃ u N L K A, (makeMove plane node port (netKey plane node port cls) p (.link d next inPort off)).run s =
        { s.reported u with net := N, links := L, claims := K, arbs := A } ∧
      Buffers N (Function.update (Function.update s.netAt (netKey plane node port cls) rest) dest
        (s.netAt dest ++ [{ p with detoured := p.detoured || off }])) ∧
      (node < 3264 → u.reg (0x3000 + node) 0x82 = satAdd 64 (s.reg (0x3000 + node) 0x82) (flits p)) ∧
      (Tab.get {} L (linkKey plane node d)).unacked = (s.link (linkKey plane node d)).unacked + flits p ∧
      ∀ k, k ≠ linkKey plane node d → Tab.get {} L k = s.link k := by
  obtain ⟨A, hgrant⟩ := grantOutput_frame plane node (1 + d) p.cls port s
  obtain ⟨N₁, htake, hbuffers₁⟩ := Buffers.takeNet (s := { s with arbs := A }) hs.buffers h
  obtain ⟨R, L, hsend, hsorted, hreg, hlink, hothers⟩ := sendOnLink_sends (s := { s with arbs := A, net := N₁ }) hs.regs hs.links
    plane node d p [dest]
  obtain ⟨K, hpass⟩ := passClaim_frame plane node d p { s with arbs := A, net := N₁, regs := R, links := L }
  obtain ⟨N, hpush, hbuffers⟩ := Buffers.pushNet (s := { s with arbs := A, net := N₁, regs := R, links := L, claims := K })
    hbuffers₁ true dest { p with detoured := p.detoured || off }
  obtain ⟨R', hcount, -, hreg'⟩ := bump_counts (s := { s with arbs := A, net := N, regs := R, links := L, claims := K }) hsorted
    (off && !p.detoured) 32 (0x3000 + node) 0x89 1
  obtain ⟨u, hreport, hkeep⟩ := run_isReport (p := whenP (off && !p.detoured) (reportOnce 0x5006 p.ctx node 0 node p.ctx node)) (by simp)
    { s with arbs := A, net := N, regs := R', links := L, claims := K }
  have hpush : (pushNet dest _).run _ = _ := hpush
  refine ⟨u, N, L, K, A, ?_, ?_, fun hsite => ?_, hlink, hothers⟩
  · simp only [makeMove, hdest, run_all_cons, run_all_nil, run_whenP_all, hgrant, htake, hsend, hpass, hpush, count32, hcount, hreport]
    rfl
  · rw [Function.update_of_ne hne, if_pos rfl] at hbuffers
    exact hbuffers
  · have hsent := (hreg (rk (0x3000 + node) 0x82)).trans (if_pos ⟨decide_eq_true hsite, rfl⟩)
    exact (hkeep _ (site_notMem_reportKeys node _)).trans (((hreg' _).trans (if_neg (by simp [rk]))).trans hsent)

/-- A packet leaves the buffer `key` and comes back to its sender (R245). -/
theorem takeBack_returns (hs : s.Canonical) {key : Nat} (h : s.netAt key = p :: rest) (htyp : p.typ ≠ 0x3E)
    (plane port reason node named : Nat) :
    ∃ u N K C, (all [takeNet key p, unclaimRoute plane node port p, returnNaming p reason node named]).run s =
        { s.reported u with net := N, claims := K, issue := s.issue ++ [{ packet := returnOf p reason node }], ctxs := C } ∧
      Buffers N (Function.update s.netAt key rest) := by
  obtain ⟨N, htake, hbuffers⟩ := hs.buffers.takeNet h
  obtain ⟨K, hunclaim⟩ := unclaimRoute_frame plane node port p { s with net := N }
  obtain ⟨u, C, hreturn, -⟩ := returnNaming_returns (s := { s with net := N, claims := K }) hs.regs htyp reason node named
  refine ⟨u, N, K, C, ?_, hbuffers⟩
  simp only [run_all_cons, run_all_nil, htake, hunclaim, hreturn]
  rfl

end hop

section hopCommand

variable {s : State} (hs : s.Canonical) {plane : Plane} {node : Endpoint} {port : Fin 5} {cls : Cls} {p : Packet} {rest : List Packet}
  (h : s.netAt (netKey plane node port cls) = p :: rest) (hdst : p.dst ≠ 0xFFF)

include hs h hdst

/-- A unicast whose output grants it leaves its buffer for the one at the far end of the link, and its flits count (R233, R248). -/
theorem routerHop_moves (hcls : p.cls = cls.val) {d next inPort : Nat} {off : Bool} {dest : Nat × Nat}
    (hmove : s.moveOf plane node port p = .link d next inPort off)
    (hgranted : s.granted plane node (1 + d) = some (cls.val, port.val)) (hdest : dest = landing plane next inPort p off)
    (hroom : s.room dest.1 dest.2 p = true) (hfree : (s.link (linkKey plane node d)).unacked + flits p ≤ 32) :
    ∃ t, exec (.routerHop plane node port cls 0) s = .next t ∧ t.netAt (netKey plane node port cls) = rest ∧
      t.netAt dest.1 = s.netAt dest.1 ++ [{ p with detoured := p.detoured || off }] ∧
      (node.val < 3264 → t.reg (0x3000 + node) 0x82 = satAdd 64 (s.reg (0x3000 + node) 0x82) (flits p)) ∧
      (t.link (linkKey plane node d)).unacked = (s.link (linkKey plane node d)).unacked + flits p ∧
      (∀ k, k ≠ netKey plane node port cls → k ≠ dest.1 → t.netAt k = s.netAt k) ∧
      (∀ k, k ≠ linkKey plane node d → t.link k = s.link k) ∧
      t = { s.reported t with net := t.net, links := t.links, claims := t.claims, arbs := t.arbs } := by
  subst hdest
  have hne := landing_ne port.isLt cls.isLt hcls hmove
  have hwants : s.wants plane node port p = some (1 + d) := by
    simp [State.wants, hdst, hmove, State.fits, hroom, hfree, Move.out]
  have hrun := run_hopProg h hdst (.inl ⟨_, hwants, hgranted⟩) 0
  obtain ⟨u, N, L, K, A, hmoves, hbuffers, hcount, hlink, hothers⟩ := linkMove_moves hs h (d := d) (off := off) rfl hne
  rw [hmove, hmoves] at hrun
  refine ⟨_, congrArg Host.Outcome.next hrun, ?_, ?_, hcount, hlink, fun k hk hk' => ?_, hothers, rfl⟩
  · exact (hbuffers.get _).trans ((Function.update_of_ne hne.symm ..).trans (Function.update_self ..))
  · exact (hbuffers.get _).trans (Function.update_self ..)
  · exact (hbuffers.get k).trans ((Function.update_of_ne hk' ..).trans (Function.update_of_ne hk ..))

/-- A unicast for this router's endpoint enters its ejection queue (R232). -/
theorem routerHop_ejects (hcls : p.cls = cls.val) (hmove : s.moveOf plane node port p = .eject)
    (hgranted : s.granted plane node 0 = some (cls.val, port.val)) (hroom : s.ejectRoom plane node p = true) :
    ∃ t, exec (.routerHop plane node port cls 0) s = .next t ∧ t.netAt (netKey plane node port cls) = rest ∧
      t.netAt (netKey plane node 5 cls) = s.netAt (netKey plane node 5 cls) ++ [p] ∧
      (∀ k, k ≠ netKey plane node port cls → k ≠ netKey plane node 5 cls → t.netAt k = s.netAt k) ∧
      t = { s with net := t.net, regs := t.regs, arbs := t.arbs } := by
  have hwants : s.wants plane node port p = some 0 := by
    simp [State.wants, hdst, hmove, State.fits, hroom, Move.out]
  have hrun := run_hopProg h hdst (.inl ⟨_, hwants, hgranted⟩) 0
  obtain ⟨A, hgrant⟩ := grantOutput_frame plane node 0 p.cls port s
  obtain ⟨N₁, htake, hbuffers₁⟩ := Buffers.takeNet (s := { s with arbs := A }) hs.buffers h
  obtain ⟨R, hcount, -, -⟩ := bump_counts (s := { s with arbs := A, net := N₁ }) hs.regs
    (decide (node.val < 3264)) 64 (0x3000 + node) 0x82 (flits p)
  obtain ⟨N, hpush, hbuffers⟩ := Buffers.pushNet (s := { s with arbs := A, net := N₁, regs := R }) hbuffers₁ true
    (netKey plane node 5 p.cls) p
  have hpush : (pushNet (netKey plane node 5 p.cls) p).run _ = _ := hpush
  rw [hmove] at hrun
  simp only [makeMove, run_all_cons, run_all_nil, hgrant, htake, count64, hcount, hpush] at hrun
  rw [hcls] at hbuffers
  have hne : netKey plane node 5 cls ≠ netKey plane node port cls := netKey_ne (by decide) (by omega) (.inr (by omega))
  refine ⟨_, congrArg Host.Outcome.next hrun, ?_, ?_, fun k hk hk' => ?_, rfl⟩
  · exact (hbuffers.get _).trans ((Function.update_of_ne hne.symm ..).trans (Function.update_self ..))
  · refine (hbuffers.get _).trans ((Function.update_self ..).trans ?_)
    rw [Function.update_of_ne hne, if_pos rfl]
  · exact (hbuffers.get k).trans ((Function.update_of_ne hk' ..).trans (Function.update_of_ne hk ..))

/-- A unicast that cannot go on comes back (R238, R245). -/
theorem routerHop_returns {r : Nat} (hmove : s.moveOf plane node port p = .back r) (htyp : p.typ ≠ 0x3E) :
    ∃ t, exec (.routerHop plane node port cls 0) s = .next t ∧
      t.netAt (netKey plane node port cls) = rest ∧ t.issue = s.issue ++ [{ packet := returnOf p r node }] ∧
      (∀ k, k ≠ netKey plane node port cls → t.netAt k = s.netAt k) ∧
      t = { s.reported t with net := t.net, issue := t.issue, claims := t.claims, ctxs := t.ctxs } := by
  have hback : s.movesBack plane node port p = true := by simp [State.movesBack, hmove]
  have hrun := run_hopProg h hdst (.inr hback) 0
  obtain ⟨u, N, K, C, hreturn, hbuffers⟩ := takeBack_returns hs h htyp plane port r node p.dst
  rw [hmove] at hrun
  exact ⟨_, congrArg Host.Outcome.next (hrun.trans hreturn), (hbuffers.get _).trans (Function.update_self ..), rfl,
    fun k hk => (hbuffers.get k).trans (Function.update_of_ne hk ..), rfl⟩

end hopCommand

/-! ## MULTICAST_FORWARD and MULTICAST_HOLD_THRESHOLD (R243, R244) -/

section multicast

variable {s : State} {plane node port cls n' : Nat} {p : Packet} {rest : List Packet}

theorem lineMoves_of_accepts (hnext : neighbour node (lineDir p node) = some n') (hlive : s.deadSite n' = false)
    (hup : s.linkFailed plane node (lineDir p node) = false) (haccepts : s.lineAccepts plane n' (lineDir p node) p = true)
    (hfree : (s.link (linkKey plane node (lineDir p node))).unacked + flits p ≤ 32) : s.lineMoves plane node p = true := by
  simp [State.lineMoves, hnext, hlive, hup, haccepts, hfree]

/-- The multicast at the head of an input that acts is stopped, or moves on to the next site of its line. -/
theorem run_multicastProg (h : s.netAt (netKey plane node port cls) = p :: rest) (hdst : p.dst = 0xFFF) (hsite : node < 3264)
    (hnext : neighbour node (lineDir p node) = some n')
    (hacts : (∃ o, s.wants plane node port p = some o ∧ s.granted plane node o = some (cls, port)) ∨ s.lineStops plane node p = true) :
    (multicastProg plane node port cls).run s = if s.lineStops plane node p = true then
        (all [takeNet (netKey plane node port cls) p, unclaimRoute plane node port p, returnNaming p 4 node n']).run s
      else (lineStep plane node port (netKey plane node port cls) n' p).run s := by
  obtain ⟨more, hheads⟩ := heads_of_netAt h
  obtain ⟨more', hfilter⟩ : ∃ more', (s.heads plane node port cls).filter (fun x => x.2.dst == 0xFFF && decide (node < 3264)) =
      (netKey plane node port cls, p) :: more' := ⟨_, by rw [hheads, List.filter_cons_of_pos (by simp [hdst, hsite])]⟩
  have hact : s.actsNow plane node port cls ((netKey plane node port cls, p) :: more') (s.lineStops plane node) =
      some (netKey plane node port cls, p) := by
    rcases hacts with ⟨o, hwants, hgranted⟩ | hstops
    · exact actsNow_of_granted h hwants hgranted ..
    · exact actsNow_of_back hstops ..
  simp only [multicastProg, run_look, hfilter, hact, run_withP_some, hnext, Option.getD_some, run_ite]

/-- A multicast that moves on leaves a copy at a target and goes on unless it is at its far end. -/
theorem lineStep_moves (hs : s.Canonical) (h : s.netAt (netKey plane node port cls) = p :: rest) (hport : port < 5) (hcls : cls < 3)
    (hp : p.cls = cls) (hne : n' ≠ node) :
    ∃ N R L K A, (lineStep plane node port (netKey plane node port cls) n' p).run s =
        { s with net := N, regs := R, links := L, claims := K, arbs := A } ∧
      Tab.get [] N (netKey plane node port cls) = rest ∧
      Tab.get [] N (netKey plane n' 5 cls) =
        s.netAt (netKey plane n' 5 cls) ++ (if s.lineTarget n' then [{ p with dst := n', copy := true }] else []) ∧
      Tab.get [] N (netKey plane n' (1 + opposite (lineDir p node)) cls) =
        s.netAt (netKey plane n' (1 + opposite (lineDir p node)) cls) ++ (if n' = p.farEnd then [] else [p]) := by
  subst hp
  have hopp := opposite_lt (lineDir p node)
  have hcopy : netKey plane n' 5 p.cls ≠ netKey plane node port p.cls := netKey_ne (by omega) (by omega) (.inl hne)
  have hon : netKey plane n' (1 + opposite (lineDir p node)) p.cls ≠ netKey plane node port p.cls :=
    netKey_ne (by omega) (by omega) (.inl hne)
  have hapart : netKey plane n' 5 p.cls ≠ netKey plane n' (1 + opposite (lineDir p node)) p.cls :=
    netKey_ne (by omega) (by omega) (.inr (by omega))
  obtain ⟨A, hgrant⟩ := grantOutput_frame plane node (1 + lineDir p node) p.cls port s
  obtain ⟨N₁, htake, hbuffers₁⟩ := Buffers.takeNet (s := { s with arbs := A }) hs.buffers h
  obtain ⟨R₁, L, hsend, hsorted, -, -, -⟩ := sendOnLink_sends (s := { s with arbs := A, net := N₁ }) hs.regs hs.links
    plane node (lineDir p node) p ((if s.lineTarget n' then [netKey plane n' 5 p.cls] else []) ++
      (if n' = p.farEnd then [] else [netKey plane n' (1 + opposite (lineDir p node)) p.cls]))
  obtain ⟨K, hpass⟩ := passClaim_frame plane node (lineDir p node) p { s with arbs := A, net := N₁, regs := R₁, links := L }
  obtain ⟨N₂, hcopied, hbuffers₂⟩ := Buffers.pushNet (s := { s with arbs := A, net := N₁, regs := R₁, links := L, claims := K })
    hbuffers₁ (s.lineTarget n') (netKey plane n' 5 p.cls) { p with dst := n', copy := true }
  obtain ⟨R, hcount, -, -⟩ := bump_counts (s := { s with arbs := A, net := N₂, regs := R₁, links := L, claims := K }) hsorted
    (s.lineTarget n') 64 (0x3000 + n') 0x82 (flits p)
  obtain ⟨N, hpush, hbuffers⟩ := Buffers.pushNet (s := { s with arbs := A, net := N₂, regs := R, links := L, claims := K }) hbuffers₂
    (n' != p.farEnd) (netKey plane n' (1 + opposite (lineDir p node)) p.cls) p
  refine ⟨N, R, L, K, A, ?_, ?_, ?_, ?_⟩
  · simp only [lineStep, run_look, run_all_cons, run_all_nil, hgrant, htake, hsend, hpass, run_whenP_seq, hcopied, count64, hcount, hpush]
  · rw [hbuffers.get, Function.update_of_ne hon.symm, Function.update_of_ne hcopy.symm, Function.update_self]
  · rw [hbuffers.get, Function.update_of_ne hapart, Function.update_self, Function.update_of_ne hcopy]
  · rw [hbuffers.get, Function.update_self, Function.update_of_ne hapart.symm, Function.update_of_ne hon]
    by_cases hend : n' = p.farEnd <;> simp [hend]

end multicast

section multicastCommand

variable {s : State} (hs : s.Canonical) {plane : Plane} {node : Endpoint} {port : Fin 5} {cls : Cls} {p : Packet} {rest : List Packet}
  {d n' : Nat} (hsite : node.val < 3264) (h : s.netAt (netKey plane node port cls) = p :: rest) (hdst : p.dst = 0xFFF)
  (hd : d = lineDir p node) (hnext : neighbour node d = some n')

include hs hsite h hdst hd hnext

/-- A multicast that its output grants and its next router accepts moves on (R244). -/
theorem multicastForward_moves (hcls : p.cls = cls.val) (hlive : s.deadSite n' = false) (hup : s.linkFailed plane node d = false)
    (haccepts : s.lineAccepts plane n' d p = true) (hfree : (s.link (linkKey plane node d)).unacked + flits p ≤ 32)
    (hgranted : s.granted plane node (1 + d) = some (cls.val, port.val)) :
    ∃ t, exec (.multicastForward plane node port cls) s = .next t ∧ t.netAt (netKey plane node port cls) = rest ∧
      t.netAt (netKey plane n' 5 cls) =
        s.netAt (netKey plane n' 5 cls) ++ (if s.lineTarget n' then [{ p with dst := n', copy := true }] else []) ∧
      t.netAt (netKey plane n' (1 + opposite d) cls) =
        s.netAt (netKey plane n' (1 + opposite d) cls) ++ (if n' = p.farEnd then [] else [p]) ∧
      t = { s with net := t.net, regs := t.regs, links := t.links, claims := t.claims, arbs := t.arbs } := by
  subst hd
  have hstops : s.lineStops plane node p = false := by simp [State.lineStops, hnext, hlive, hup]
  have hwants : s.wants plane node port p = some (1 + lineDir p node) := by
    simp [State.wants, hdst, lineMoves_of_accepts hnext hlive hup haccepts hfree]
  have hrun := run_multicastProg h hdst hsite hnext (.inl ⟨_, hwants, hgranted⟩)
  obtain ⟨N, R, L, K, A, hmoves, hleft, hcopied, hon⟩ := lineStep_moves hs h port.isLt cls.isLt hcls (neighbour_ne hnext)
  rw [if_neg (by simp [hstops]), hmoves] at hrun
  exact ⟨_, congrArg Host.Outcome.next hrun, hleft, hcopied, hon, rfl⟩

/-- A dead site on the line stops a multicast, and the router before it returns it (R244). -/
theorem multicastForward_returns (hdead : s.deadSite n' = true) (htyp : p.typ ≠ 0x3E) :
    ∃ t, exec (.multicastForward plane node port cls) s = .next t ∧
      t.netAt (netKey plane node port cls) = rest ∧ t.issue = s.issue ++ [{ packet := returnOf p 4 node }] ∧
      t = { s.reported t with net := t.net, issue := t.issue, claims := t.claims, ctxs := t.ctxs } := by
  subst hd
  have hstops : s.lineStops plane node p = true := by simp [State.lineStops, hnext, hdead]
  obtain ⟨u, N, K, C, hreturn, hbuffers⟩ := takeBack_returns hs h htyp plane port 4 node n'
  have hrun := (run_multicastProg h hdst hsite hnext (.inr hstops)).trans (if_pos hstops)
  exact ⟨_, congrArg Host.Outcome.next (hrun.trans hreturn), (hbuffers.get _).trans (Function.update_self ..), rfl, rfl⟩

/-- The beats for which the next router does not accept a multicast count (R244). -/
theorem multicastHold_counts (hwaits : s.lineAccepts plane n' d p = false) (beats : Nat) :
    ∃ t, exec (.multicastHoldThreshold plane node port cls beats) s = .next t ∧
      t.reg (0x3000 + node) 0x87 = satAdd 64 (s.reg (0x3000 + node) 0x87) beats ∧ t = { s.reported t with net := t.net } ∧
      ∀ k, k ≠ netKey plane node port cls → t.netAt k = s.netAt k := by
  subst hd
  obtain ⟨R, hcount, -, hreg⟩ := bump_counts hs.regs true 64 (0x3000 + node) 0x87 beats
  have hcount : (count64 (0x3000 + node) 0x87 beats).run s = _ := hcount
  have hrun : (holdProg plane node port cls beats).run s = (whenP (decide (s.reg 0x2A00 0x02 < beats) && !p.reported) (all [
      .eff (.net (netKey plane node port cls) ({ p with reported := true } :: rest)),
      report 0x5007 0 node p.ctx (pairArg node n')])).run { s with regs := R } := by
    simp only [holdProg, run_look, h, hdst, hsite, hnext, hwaits, run_withP_some, run_whenP, run_all_cons, run_all_nil, hcount, decide_true,
      beq_self_eq_true, Bool.and_self, Bool.not_false, if_true]
  have hcounted := (hreg (rk (0x3000 + node) 0x87)).trans (if_pos ⟨rfl, rfl⟩)
  rw [run_whenP] at hrun
  split at hrun
  · have hbuffers := hs.buffers.set (netKey plane node port cls) ({ p with reported := true } :: rest)
    obtain ⟨u, hreport, hkeep⟩ := run_isReport (every_report 0x5007 0 node p.ctx (pairArg node n'))
      ((Eff.net (netKey plane node port cls) ({ p with reported := true } :: rest)).apply { s with regs := R })
    rw [run_all_cons, run_all_cons, run_all_nil, run_eff, hreport] at hrun
    exact ⟨_, congrArg Host.Outcome.next hrun, (hkeep _ (site_notMem_reportKeys node _)).trans hcounted, rfl,
      fun k hk => (hbuffers.get k).trans (Function.update_of_ne hk ..)⟩
  · exact ⟨_, congrArg Host.Outcome.next hrun, hcounted, rfl, fun _ _ => rfl⟩

end multicastCommand

end Sys2Proof.Machine

/-! SUPPORT. Packets at their endpoint, the death of a context by poison, RETURNs, and the statement on packets (O50; R231, R245, R246,
R249, R383, R446). -/

namespace Sys2Proof.Machine

open Sys2Proof

/-! ## PACKET_EJECT (R231, R249) -/

/-- A sound packet that no fence keeps out is taken by its site. -/
theorem run_takePacket {s : State} {node : Nat} {p : Packet} (hsite : node < 3264) (hsound : malformed p = false)
    (hpoison : p.poison = false) (hopen : s.isFenced node = false) :
    (takePacket node p).run s = (all [progress p.ctx, withState fun t => .delivered (t.delivered ++ [p])]).run s := by
  have hdie : decide (0xD80 ≤ node) = false := decide_eq_false (by omega)
  have hx : decide (0xD00 ≤ node ∧ node < 0xD80) = false := decide_eq_false (by omega)
  simp only [takePacket, run_look, hsound, hpoison, hopen, hdie, hx, Bool.false_and, Bool.and_false, Bool.false_eq_true, if_false]

/-- What an endpoint does with a packet `p` that came damaged as `r` (R249). -/
def dropDamaged (node : Nat) (p r : Packet) : Prog := all [
  whenP (decide (node < 3264)) (count32 (0x3000 + node) 0x85 1), count64 0x2A00 0x08 1,
  report 0x5003 (endpointUnit node).1 (endpointUnit node).2 r.src r.dst, packetDone p]

theorem dropDamaged_counts {s : State} (h : s.Sorted) {node : Nat} (hsite : node < 3264) (p r : Packet) :
    ∃ u C, (dropDamaged node p r).run s = { s.reported u with ctxs := C } ∧
      u.reg (0x3000 + node) 0x85 = satAdd 32 (s.reg (0x3000 + node) 0x85) 1 ∧ u.reg 0x2A00 0x08 = satAdd 64 (s.reg 0x2A00 0x08) 1 := by
  obtain ⟨R₁, hdrop, hsorted₁, hreg₁⟩ := bump_counts h (decide (node < 3264)) 32 (0x3000 + node) 0x85 1
  obtain ⟨R₂, hcount, hsorted₂, hreg₂⟩ := bump_counts (s := { s with regs := R₁ }) hsorted₁ true 64 0x2A00 0x08 1
  have hcount : (count64 0x2A00 0x08 1).run _ = _ := hcount
  have hreported := every_report 0x5003 (endpointUnit node).1 (endpointUnit node).2 r.src r.dst
  obtain ⟨u, hreport, hkeep⟩ := run_isReport hreported { s with regs := R₂ }
  have hsorted : (({ s with regs := R₂ } : State).reported u).Sorted := hreport ▸ run_sorted _ (s := { s with regs := R₂ }) hsorted₂
  obtain ⟨R, C, hdone, -, hkeep'⟩ := run_isAccount (every_packetDone_isAccount p) hsorted
  refine ⟨{ u with regs := R }, C, ?_, ?_, ?_⟩
  · simp only [dropDamaged, run_all_cons, run_all_nil, count32, hdrop, hcount, hreport, hdone]
    rfl
  · calc Tab.get (regDefault (rk (0x3000 + node) 0x85)) R (rk (0x3000 + node) 0x85)
      _ = u.regAt (rk (0x3000 + node) 0x85) := hkeep' _ (by unfold rk; omega)
      _ = Tab.get (regDefault (rk (0x3000 + node) 0x85)) R₂ (rk (0x3000 + node) 0x85) := hkeep _ (site_notMem_reportKeys node _)
      _ = Tab.get (regDefault (rk (0x3000 + node) 0x85)) R₁ (rk (0x3000 + node) 0x85) := (hreg₂ _).trans (if_neg (by unfold rk; omega))
      _ = satAdd 32 (s.reg (0x3000 + node) 0x85) 1 := (hreg₁ _).trans (if_pos ⟨decide_eq_true hsite, rfl⟩)
  · calc Tab.get (regDefault (rk 0x2A00 0x08)) R (rk 0x2A00 0x08)
      _ = u.regAt (rk 0x2A00 0x08) := hkeep' _ (by decide)
      _ = Tab.get (regDefault (rk 0x2A00 0x08)) R₂ (rk 0x2A00 0x08) := hkeep _ (by decide)
      _ = satAdd 64 (Tab.get (regDefault (rk 0x2A00 0x08)) R₁ (rk 0x2A00 0x08)) 1 := (hreg₂ _).trans (if_pos ⟨rfl, rfl⟩)
      _ = satAdd 64 (s.reg 0x2A00 0x08) 1 := congrArg (satAdd 64 · 1) ((hreg₁ _).trans (if_neg (by unfold rk; omega)))

section eject

variable {s : State} (hs : s.Canonical) {plane : Plane} {node : Endpoint} {cls : Cls} {p : Packet} {rest : List Packet}
  (hsite : node.val < 3264) (h : s.netAt (netKey plane node 5 cls) = p :: rest) (hfree : s.endpointHolds node p = false)

include hs hsite h hfree

/-- The head of an ejection queue that nothing holds leaves it and counts; then it is taken or, damaged, dropped. -/
theorem ejectProg_counts : ∃ N R, Buffers N (Function.update s.netAt (netKey plane node 5 cls) rest) ∧ Tab.Canon regDefault R ∧
    (∀ k, Tab.get (regDefault k) R k = if k = rk (0x3000 + node) 0x81 then satAdd 64 (s.reg (0x3000 + node) 0x81) 1 else s.regAt k) ∧
    (ejectProg plane node cls none).run s = (takePacket node p).run { s with net := N, regs := R } ∧
    ∀ r crc, packetCrc r ≠ crc →
      (ejectProg plane node cls (some (r, crc))).run s = (dropDamaged node p r).run { s with net := N, regs := R } := by
  obtain ⟨N, htake, hbuffers⟩ := hs.buffers.takeNet h
  obtain ⟨R, hcount, hsorted, hreg⟩ := bump_counts (s := { s with net := N }) hs.regs (decide (node.val < 3264)) 64 (0x3000 + node) 0x81 1
  have hnext : s.ejectNext (netKey plane node 5 cls) node = some p := by simp [State.ejectNext, h, hfree]
  simp only [hsite, decide_true, true_and] at hreg
  refine ⟨N, R, hbuffers, hsorted, hreg, ?_, fun r crc hcrc => ?_⟩
  · simp only [ejectProg, run_look, hnext, run_withP_some, run_all_cons, run_all_nil, htake, count64, hcount]
  · simp only [ejectProg, run_look, hnext, run_withP_some, run_all_cons, run_all_nil, htake, count64, hcount, if_neg hcrc, dropDamaged]

/-- A sound packet is taken from its ejection queue (R249). -/
theorem packetEject_takes (hsound : malformed p = false) (hpoison : p.poison = false) (hopen : s.isFenced node = false) :
    ∃ t, exec (.packetEject plane node cls none) s = .next t ∧
      t.delivered = s.delivered ++ [p] ∧ t.netAt (netKey plane node 5 cls) = rest ∧
      t.reg (0x3000 + node) 0x81 = satAdd 64 (s.reg (0x3000 + node) 0x81) 1 ∧
      (∀ k, k ≠ netKey plane node 5 cls → t.netAt k = s.netAt k) ∧
      t = { s with net := t.net, regs := t.regs, delivered := t.delivered } := by
  obtain ⟨N, R, hbuffers, -, hreg, hrun, -⟩ := ejectProg_counts hs hsite h hfree
  have hkey : rk (0x2410 + siteRegion node) (courseOf (siteRow node) + 1) ≠ rk (0x3000 + node) 0x81 := by
    have := siteRegion_lt hsite
    have := courseOf_lt (siteRow node)
    unfold rk; omega
  have hmask : ({ s with net := N, regs := R } : State).fenceMask (siteRegion node) (courseOf (siteRow node)) = _ :=
    fenceMask_of_reg ((hreg _).trans (if_neg hkey))
  have hopen' : ({ s with net := N, regs := R } : State).isFenced node = false := by
    rw [State.isFenced, hmask]
    exact hopen
  rw [run_takePacket hsite hsound hpoison hopen', run_all_cons, run_all_cons, run_all_nil] at hrun
  refine ⟨_, congrArg Host.Outcome.next hrun, rfl, (hbuffers.get _).trans (Function.update_self ..), ?_,
    fun k hk => (hbuffers.get k).trans (Function.update_of_ne hk ..), rfl⟩
  exact (regAt_setReg_of_ne (by unfold rk; omega) _).trans ((hreg _).trans (if_pos rfl))

/-- A packet that came with another CRC counts and goes no further (R249). -/
theorem packetEject_drops {r : Packet} {crc : Nat} (hcrc : packetCrc r ≠ crc) :
    ∃ t, exec (.packetEject plane node cls (some (r, crc))) s = .next t ∧ t.netAt (netKey plane node 5 cls) = rest ∧
      t.delivered = s.delivered ∧ t.reg (0x3000 + node) 0x85 = satAdd 32 (s.reg (0x3000 + node) 0x85) 1 ∧
      t.reg 0x2A00 0x08 = satAdd 64 (s.reg 0x2A00 0x08) 1 ∧ t = { s.reported t with net := t.net, ctxs := t.ctxs } := by
  obtain ⟨N, R, hbuffers, hsorted, hreg, -, hrun⟩ := ejectProg_counts hs hsite h hfree
  obtain ⟨u, C, hdrop, hdropped, hcount⟩ := dropDamaged_counts (s := { s with net := N, regs := R }) hsorted hsite p r
  refine ⟨_, congrArg Host.Outcome.next ((hrun r crc hcrc).trans hdrop), (hbuffers.get _).trans (Function.update_self ..), rfl, ?_, ?_, rfl⟩
  · exact hdropped.trans (congrArg (satAdd 32 · 1) ((hreg _).trans (if_neg (by simp [rk]))))
  · exact hcount.trans (congrArg (satAdd 64 · 1) ((hreg _).trans (if_neg (by unfold rk; omega))))

end eject

/-! ## The death of a context (R383, R446) -/

/-- What a death writes beside the state of its context: neither the packets taken, nor a scalar of subindex 1. -/
def Eff.isDeath (e : Eff) : Bool := e.spares [.delivered] 0x01

@[simp] theorem isDeath_regs {idx j v : Nat} (h : j % 256 ≠ 0x01) : (Eff.regs (rk idx j) v).isDeath = true :=
  Eff.spares_regs (by decide) (by unfold rk; omega)

@[simp] theorem isDeath_of_field {e : Eff} (h : e.field ∉ [Field.regs, .delivered]) : e.isDeath = true :=
  Eff.spares_of_field h

theorem isDeath_of_isReport (e : Eff) (h : e.isReport = true) : e.isDeath = true :=
  spares_of_isReport (by decide) (by decide) e h

@[simp] theorem every_report_isDeath (code kind num a1 a2 : Nat) : (report code kind num a1 a2).Every fun e => e.isDeath = true :=
  every_mono isDeath_of_isReport (every_report code kind num a1 a2)

theorem every_storeBytes_isDeath (a : Nat) (bs : List Byte) : (storeBytes a bs).Every fun e => e.isDeath = true := by
  induction bs generalizing a with
  | nil => trivial
  | cons b bs ih => exact ⟨isDeath_of_field (by simp), ih _⟩

theorem every_hbmPut_isDeath (a : Nat) (bs : List Byte) (poison : Bool) : (hbmPut a bs poison).Every fun e => e.isDeath = true := by
  simp [hbmPut, putLine, every_storeBytes_isDeath]

theorem every_advanceCompleted_isDeath (c fuel : Nat) : (advanceCompleted c fuel).Every fun e => e.isDeath = true := by
  induction fuel with
  | zero => trivial
  | succ n ih =>
    intro s
    dsimp only
    split
    · trivial
    · simp [setReg, modCtx, ih, every_mono isDeath_of_isReport (every_sendMsix c)]

theorem every_writeRecord_isDeath (c : Nat) (d : ActiveDesc) (code : Nat) : (writeRecord c d code).Every fun e => e.isDeath = true := by
  simp [writeRecord, modCtx, engineDump, dumpRefused, every_hbmPut_isDeath, count32, bump, progress, setReg, every_advanceCompleted_isDeath]

/-- What follows the change of a dying context's state. -/
def deathRest (c : Nat) (s : State) : Prog := all [
  setReg (0x2700 + c) 0x36 0,
  withState fun t => .votesWaiting (t.votesWaiting.filter fun n => !(s.sectionSites c).contains n),
  withState fun t => .votes (t.votes.filter fun v => !(s.sectionSites c).contains v.site),
  if s.dieUp (queueDie c) then eachP (s.ctx c).active fun d => writeRecord c d (d.status.getD 0xC003) else .skip,
  modCtx c fun y => { y with active := [], armDesc := none, runDesc := none, ringPosts := [], flagOps := [] },
  report 0xC003 7 c c (s.ctx c).active.length,
  pairsError c]

theorem every_deathRest_isDeath (c : Nat) (s : State) : (deathRest c s).Every fun e => e.isDeath = true := by
  simp [deathRest, setReg, every_writeRecord_isDeath, modCtx, pairsError, pairError, modPair]

theorem run_isDeath {p : Prog} (hp : p.Every fun e => e.isDeath = true) (s : State) :
    (p.run s).delivered = s.delivered ∧ ∀ c, (p.run s).ctxState c = s.ctxState c :=
  ⟨run_keeps_of_spares (g := fun s => s.delivered) (fun e u h => by cases e <;> first | rfl | exact absurd rfl h) (by decide) hp s,
    fun _ => regAt_run_of_spares hp (by unfold rk; omega) s⟩

theorem run_killContext {s : State} {c : Nat} (h : s.ctxRuns c = true) (cause : Nat) : (killContext c cause).run s =
    (deathRest c s).run ((setReg (0x2700 + c) 0x01 2).run ((all [setReg (0x2700 + c) 0x38 cause, setReg (0x2700 + c) 0x39 s.now]).run s)) := by
  simp only [killContext, deathRest, run_look, h, run_whenP, if_true, run_all_cons, run_all_nil]

/-- A running context that consumes poison stops, and its endpoint's packets stay. -/
theorem poisonDeath_kills {s : State} (h : s.Sorted) {c : Nat} (hc : s.ctxRuns c = true) (kind num unit : Nat) :
    ((poisonDeath c kind num unit).run s).ctxState c = 2 ∧ ((poisonDeath c kind num unit).run s).delivered = s.delivered := by
  have hstate : s.ctxState c = 1 := beq_iff_eq.mp hc
  obtain ⟨hdelivered, hkeeps⟩ := run_isDeath (every_report_isDeath 0x3807 kind num c unit) s
  have hsorted := run_sorted (report 0x3807 kind num c unit) h
  have hrun : (poisonDeath c kind num unit).run s = (killContext c 0x3807).run ((report 0x3807 kind num c unit).run s) := by
    simp only [poisonDeath, run_look, hstate, run_whenP, run_all_cons, run_all_nil, if_pos (show (1 != 0) = true from rfl)]
  generalize (report 0x3807 kind num c unit).run s = u at *
  rw [run_killContext (by rw [State.ctxRuns, hkeeps, hstate]; rfl)] at hrun
  obtain ⟨hdelivered₁, -⟩ := run_isDeath (p := all [setReg (0x2700 + c) 0x38 0x3807, setReg (0x2700 + c) 0x39 u.now]) (by simp [setReg]) u
  have hsorted₁ := run_sorted (all [setReg (0x2700 + c) 0x38 0x3807, setReg (0x2700 + c) 0x39 u.now]) hsorted
  generalize (all [setReg (0x2700 + c) 0x38 0x3807, setReg (0x2700 + c) 0x39 u.now]).run u = v at *
  obtain ⟨hdelivered₂, hkeeps₂⟩ := run_isDeath (every_deathRest_isDeath c u) ((setReg (0x2700 + c) 0x01 2).run v)
  rw [hrun]
  exact ⟨(hkeeps₂ c).trans ((reg_setReg hsorted₁ (by decide) (by decide) 2).trans (if_pos ⟨rfl, rfl⟩)),
    (hdelivered₂.trans hdelivered₁).trans hdelivered⟩

/-! ## RETURN (R246) -/

section returned

variable {s : State} {p : Packet}

/-- What a returned read brings: as many zeros as it asked for, poisoned. -/
def zerosFor (p : Packet) : List Output :=
  if returnedField p 95 90 = 0x12 then [.readData p.dst (List.replicate (bits (returnedField p 63 0) 58 48) 0) true] else []

theorem run_completePoisoned (h : returnedField p 95 90 ∉ [0x02, 0x03, 0x25]) (e : Ecc) :
    (completePoisoned p e).run s = { s with out := s.out ++ zerosFor p } := by
  simp only [List.mem_cons, List.not_mem_nil, or_false, not_or] at h
  obtain ⟨hclear, hwait, -⟩ := h
  simp only [completePoisoned, run_look, if_neg hwait, hclear, false_and, if_false, zerosFor]
  by_cases hread : returnedField p 95 90 = 0x12
  · simp only [if_pos hread]; rfl
  · simp only [if_neg hread, List.append_nil]; rfl

theorem run_seedBeyond (h : returnedField p 95 90 ∉ [0x02, 0x03, 0x25]) : (seedBeyond p).run s = s := by
  have htyp : (bits (ofBytes (p.payload.take 16)) 95 90 == 0x25) = false := beq_eq_false_iff_ne.mpr fun htyp => h (by simp [returnedField, htyp])
  simp [seedBeyond, htyp]

/-- A RETURN ends its operation poisoned, and its context dies but for management and an absent tile. -/
theorem run_returnedProg (htyp : p.typ = 0x3E) (hnext : s.isNext p = true) (h : returnedField p 95 90 ∉ [0x02, 0x03, 0x25]) :
    (returnedProg p {}).run s = (whenP (!p.management && !(p.payload.getD 16 0 == 1 && s.returnedAbsent p))
      (poisonDeath p.ctx (endpointUnit p.dst).1 (endpointUnit p.dst).2 p.dst)).run
        { s with delivered := s.delivered.erase p, out := s.out ++ zerosFor p } := by
  rw [returnedProg, run_applyPacket hnext htyp]
  simp only [run_look, run_all_cons, run_all_nil, run_completePoisoned h, run_seedBeyond h]
  rfl

theorem returnPacket_spares (htyp : p.typ = 0x3E) (hnext : s.isNext p = true) (h : returnedField p 95 90 ∉ [0x02, 0x03, 0x25])
    (hspared : p.management = true ∨ (p.payload.getD 16 0 = 1 ∧ s.returnedAbsent p = true)) :
    ∃ t, exec (.returnPacket p {}) s = .next t ∧ t = { s with delivered := s.delivered.erase p, out := s.out ++ zerosFor p } := by
  have hrun := run_returnedProg htyp hnext h
  have hno : (!p.management && !(p.payload.getD 16 0 == 1 && s.returnedAbsent p)) = false := by
    rcases hspared with hm | ⟨hreason, habsent⟩
    · rw [hm]; rfl
    · rw [hreason, habsent]; exact Bool.and_false _
  rw [hno] at hrun
  exact ⟨_, congrArg Host.Outcome.next hrun, rfl⟩

theorem returnPacket_kills (hs : s.Canonical) (htyp : p.typ = 0x3E) (hnext : s.isNext p = true)
    (h : returnedField p 95 90 ∉ [0x02, 0x03, 0x25]) (hcontext : p.management = false) (hreason : p.payload.getD 16 0 ≠ 1)
    (hruns : s.ctxRuns p.ctx = true) :
    ∃ t, exec (.returnPacket p {}) s = .next t ∧ t.ctxState p.ctx = 2 ∧ t.delivered = s.delivered.erase p := by
  have hrun := run_returnedProg htyp hnext h
  have hyes : (!p.management && !(p.payload.getD 16 0 == 1 && s.returnedAbsent p)) = true := by
    rw [hcontext, beq_eq_false_iff_ne.mpr hreason]; rfl
  rw [hyes] at hrun
  exact ⟨_, congrArg Host.Outcome.next hrun,
    poisonDeath_kills (s := { s with delivered := s.delivered.erase p, out := s.out ++ zerosFor p }) hs.regs hruns ..⟩

end returned

/-- A site that reads 8 bytes of the scratchpad of S-tile 15. -/
def absentRead : Packet := { dst := 1, src := 0, ctx := 0, cls := 0, typ := 0x12, len := 0, operand := scratchAddr 15 0 + 8 * 2 ^ 48 }

/-- Two columns of S-tile 15's course are fenced, so that no site serves it, and the RETURN of a context's read of it has come. -/
def absentReturned : State :=
  { Tests.State.withRegs (Tests.onNet [] []) [(0x2410, 3, 3)] with delivered := [returnOf absentRead 1 1] }

/-- The RETURN of a context's packet for an absent tile leaves the context running, and brings its read poisoned zeros (R37, R246). -/
theorem returnPacket_absentReturned : ∃ t, exec (.returnPacket (returnOf absentRead 1 1) {}) absentReturned = .next t ∧
    (returnOf absentRead 1 1).management = false ∧ t.ctxState 0 = 1 ∧ t.delivered = [] ∧
    t.out = absentReturned.out ++ [.readData 0 (List.replicate 8 0) true] := by
  obtain ⟨t, hexec, rfl⟩ := returnPacket_spares (s := absentReturned) (p := returnOf absentRead 1 1) rfl (by decide +kernel)
    (by decide +kernel) (.inr ⟨by decide +kernel, by decide +kernel⟩)
  exact ⟨_, hexec, rfl, by decide +kernel, by decide +kernel, congrArg (absentReturned.out ++ ·) (by decide +kernel)⟩

/-- Settles O50: each command is a run of the shared rules for buffers, links, accounts and returned packets, and has its lemma above. -/
theorem mortarCarriesPackets : Obligations.MortarCarriesPackets := fun _ hs =>
  ⟨fun _ _ _ _ _ hissue hsrc haddr hp hgo =>
      ⟨packetInject_sends hs hissue hsrc haddr hp hgo, fun _ => packetInject_returns hs hissue hsrc haddr hp hgo⟩,
    fun _ _ _ _ _ _ h hcls hdst =>
      ⟨fun _ _ => moveOf_xy, fun _ _ _ _ _ => routerHop_moves hs h hdst hcls, routerHop_ejects hs h hdst hcls,
        fun _ => routerHop_returns hs h hdst⟩,
    fun _ _ _ _ _ _ _ _ hsite h hcls hdst hd hnext =>
      ⟨multicastForward_moves hs hsite h hdst hd hnext hcls, multicastForward_returns hs hsite h hdst hd hnext,
        multicastHold_counts hs hsite h hdst hd hnext⟩,
    fun _ _ _ _ _ hsite h hfree =>
      ⟨packetEject_takes hs hsite h hfree, fun _ _ => packetEject_drops hs hsite h hfree⟩,
    fun _ htyp hnext h => ⟨returnPacket_spares htyp hnext h, returnPacket_kills hs htyp hnext h⟩⟩

end Sys2Proof.Machine

/-! SUPPORT. Contexts: what a change of a context's own state leaves, how descriptors start, settle and end, and how a flag operation
leaves its issuer (R257, R259, R264 to R266, R277). -/

namespace Sys2Proof.Machine

open Sys2Proof

/-! ## A context's own state -/

/-- The later of two replacements of one entry stands. -/
theorem Tab.set_set {α : Type} [DecidableEq α] {d : α} {t : Tab α} (ht : t.Pairwise fun a b => a.1 < b.1) (k : Nat) (v w : α) :
    Tab.set d (Tab.set d t k v) k w = Tab.set d t k w := by
  induction t with
  | nil =>
    by_cases hv : v = d <;> simp [Tab.set, hv]
  | cons e t ih =>
    obtain ⟨k₁, v₁⟩ := e
    obtain ⟨hlt, ht⟩ := List.pairwise_cons.mp ht
    rcases Nat.lt_trichotomy k k₁ with hk | rfl | hk
    · by_cases hv : v = d <;> simp [Tab.set, hv, hk]
    · by_cases hv : v = d
      · cases t with
        | nil => simp [Tab.set, hv]
        | cons e t => simp [Tab.set, hv, show k < e.1 from hlt e (List.mem_cons_self ..)]
      · simp [Tab.set, hv]
    · simp [Tab.set, Nat.not_lt.mpr hk.le, hk.ne', ih ht]

/-- The state with the own state of context `c` replaced. -/
def State.withCtx (s : State) (c : Nat) (x : CtxCore) : State := { s with ctxs := Tab.set {} s.ctxs c x }

theorem run_modCtx (c : Nat) (f : CtxCore → CtxCore) (s : State) : (modCtx c f).run s = s.withCtx c (f (s.ctx c)) := rfl

theorem canonical_withCtx {s : State} (h : s.Canonical) (c : Nat) (x : CtxCore) : (s.withCtx c x).Canonical :=
  run_canonical (.eff (.ctxs c x)) h

theorem ctx_withCtx {s : State} (h : s.Canonical) (c : Nat) (x : CtxCore) (j : Nat) :
    (s.withCtx c x).ctx j = if j = c then x else s.ctx j := Tab.get_set h.ctxs.1 ..

theorem ctx_withCtx_self {s : State} (h : s.Canonical) (c : Nat) (x : CtxCore) : (s.withCtx c x).ctx c = x :=
  (ctx_withCtx h c x c).trans (if_pos rfl)

theorem withCtx_withCtx {s : State} (h : s.Canonical) (c : Nat) (x y : CtxCore) : (s.withCtx c x).withCtx c y = s.withCtx c y :=
  congrArg (fun t => { s with ctxs := t }) (Tab.set_set h.ctxs.1 c x y)

/-- A change of one context's own state after another is the change of the one by both. -/
theorem run_modCtx_withCtx {s : State} (h : s.Canonical) (c : Nat) (f : CtxCore → CtxCore) (x : CtxCore) :
    (modCtx c f).run (s.withCtx c x) = s.withCtx c (f x) := by
  rw [run_modCtx, ctx_withCtx_self h, withCtx_withCtx h]

/-- A state whose contexts are those of `s` with one replaced. -/
theorem ctxsBut_of_ctxs {s t : State} (h : s.Canonical) {c : Nat} {x : CtxCore} (ht : t.ctxs = (s.withCtx c x).ctxs) :
    t.ctx c = x ∧ s.ctxsBut t c := by
  have hget : ∀ j, t.ctx j = (s.withCtx c x).ctx j := fun j => congrArg (fun C => Tab.get ({} : CtxCore) C j) ht
  exact ⟨(hget c).trans (ctx_withCtx_self h c x), fun j hj => (hget j).trans ((ctx_withCtx h c x j).trans (if_neg hj))⟩

/-! ## Descriptors that settle (R259) -/

/-- Nothing settles in a context whose descriptors that have not started are sound. -/
theorem run_settle_of_sound {s : State} {c : Nat}
    (h : ∀ d ∈ (s.ctx c).active, d.started = true ∨ d.status.isSome = true ∨ dMalformed d = false) (n : Nat) :
    (settle c n).run s = s := by
  cases n with
  | zero => rfl
  | succ n =>
    rw [settle, run_look]
    cases hfind : (s.ctx c).active.find? fun d => !d.started && d.status.isNone with
    | none => rfl
    | some d =>
      have hfresh := List.find?_some hfind
      have hsound : dMalformed d = false := by
        rcases h d (List.mem_of_find?_eq_some hfind) with hd | hd | hd
        · simp [hd] at hfresh
        · simp [Option.isNone_eq_false_iff.mpr hd] at hfresh
        · exact hd
      simp only [hsound, Bool.and_false, Bool.false_and, run_whenP, Bool.false_eq_true, if_false]

/-! ## The start of a descriptor (R257) -/

section start

variable {s : State} {c p op : Nat} {before : List ActiveDesc} {d : ActiveDesc}

/-- The state once `d` has started, and has ended with `status` if it has. -/
def State.begun (s : State) (c : Nat) (before : List ActiveDesc) (d : ActiveDesc) (status : Option Nat) : State :=
  s.withCtx c ((s.ctx c).began before d s.now status)

theorem State.Startable.find (h : s.Startable c p op before d) :
    ((s.ctx c).active.find? fun e => decide (e.num = p ∧ dOp e = op) && !e.started && e.status.isNone) = some d := by
  obtain ⟨hstart, hend⟩ := h.fresh
  rw [h.active, List.find?_append, List.find?_eq_none.mpr fun e he => by simp [(h.earlier e he).1]]
  simp [h.num, h.op, hstart, hend]

theorem State.Startable.earlier_eq (h : s.Startable c p op before d) : s.earlier c d = before := by
  rw [State.earlier, h.active, List.takeWhile_append_of_pos fun e he => by simp [h.num, (h.earlier e he).1]]
  simp

theorem State.Startable.mayStart (h : s.Startable c p op before d) (hop : op ≠ 0x02) : s.mayStart c d = true := by
  have hdone : (before.all fun e => e.started || e.status.isSome) = true :=
    List.all_eq_true.mpr fun e he => Bool.or_eq_true_iff.mpr (h.earlier e he).2.1
  have hbarrier : (!dBarrier d || before.isEmpty) = true := by
    cases hb : dBarrier d with
    | false => rfl
    | true => rw [h.barrier hb]; rfl
  have hnone : (before.any fun e => dOp e == 0x07 || dOp e == 0x0B) = false :=
    List.any_eq_false.mpr fun e he => by
      obtain ⟨-, -, hwait, hfence⟩ := h.earlier e he
      simp [hwait, hfence]
  simp [State.mayStart, h.earlier_eq, hdone, hbarrier, hnone, h.op, hop]

/-- A map that changes the descriptors of number `p` changes the last alone. -/
theorem State.Startable.map_active (h : s.Startable c p op before d) (P : ActiveDesc → Prop) [DecidablePred P]
    (f : ActiveDesc → ActiveDesc) (hP : ∀ e, P e → e.num = p) {e : ActiveDesc} (he : P e) :
    ((before ++ [e]).map fun e => if P e then f e else e) = before ++ [f e] := by
  rw [List.map_append, List.map_singleton, if_pos he]
  congr 1
  exact (List.map_congr_left fun e he => if_neg fun hp => (h.earlier e he).1 (hP e hp)).trans (List.map_id _)

/-- A descriptor that may start does so, and then what its opcode asks for. -/
theorem State.Startable.run (h : s.Startable c p op before d) (hop : op ≠ 0x02) (f : ActiveDesc → Prog) :
    (startDesc c p op f).run s = (settle c 8).run ((f d).run (s.begun c before d none)) := by
  have hmod : (modDesc c p fun e => { e with started := true, startTime := s.now }).run s = s.begun c before d none := by
    rw [modDesc, run_modCtx, h.active, h.map_active (fun e => e.num = p) _ (fun _ he => he) h.num]
    simp only [State.begun, CtxCore.began, h.fresh.2]
  simp only [startDesc, run_look, h.runs, h.engine, Bool.and_self, run_whenP, if_true, h.find, run_withP_some, h.mayStart hop,
    run_all_cons, run_all_nil, hmod, h.sound, Bool.false_eq_true, if_false]

/-- Nothing settles while every active descriptor has started or ended. -/
theorem State.Startable.run_settle (h : s.Startable c p op before d) {t : State} {status : Option Nat}
    (ht : (t.ctx c).active = ((s.ctx c).began before d s.now status).active) (n : Nat) : (settle c n).run t = t := by
  refine run_settle_of_sound (fun e he => ?_) n
  rw [ht] at he
  rcases List.mem_append.mp he with he | he
  · exact (h.earlier e he).2.1.imp_right .inl
  · exact .inl (by rw [List.mem_singleton.mp he])

/-- What a descriptor that may start does, when the context's list is then its own with the descriptor begun. -/
theorem State.Startable.run_of (h : s.Startable c p op before d) (hop : op ≠ 0x02) {f : ActiveDesc → Prog} {t : State} {status : Option Nat}
    (hf : (f d).run (s.begun c before d none) = t) (ht : (t.ctx c).active = ((s.ctx c).began before d s.now status).active) :
    (startDesc c p op f).run s = t := by
  rw [h.run hop, hf, h.run_settle ht]

/-- The descriptor that has started ends. -/
theorem State.Startable.run_end (h : s.Startable c p op before d) (hs : s.Canonical) (code : Nat) :
    (endDescriptor c p code).run (s.begun c before d none) = s.begun c before d (some code) := by
  rw [endDescriptor, State.begun, run_modCtx_withCtx hs]
  refine congrArg (fun l => s.withCtx c { s.ctx c with active := l }) ?_
  exact h.map_active (fun e => e.num = p ∧ e.status = none) _ (fun _ he => he.1) ⟨h.num, rfl⟩

theorem ctx_begun (hs : s.Canonical) (status : Option Nat) : (s.begun c before d status).ctx c = (s.ctx c).began before d s.now status :=
  ctx_withCtx_self hs ..

/-- A descriptor that does no more than end at once is over when it has started. -/
theorem State.Startable.run_ending (h : s.Startable c p op before d) (hs : s.Canonical) (hop : op ≠ 0x02) {f : ActiveDesc → Prog} {code : Nat}
    (hf : f d = endDescriptor c p code) : (startDesc c p op f).run s = s.begun c before d (some code) := by
  exact h.run_of hop (hf ▸ h.run_end hs code) (congrArg CtxCore.active (ctx_begun hs _))

end start

/-! ## The issue of a flag operation (R277) -/

section issue

variable {s : State} {c h n src : Nat}

/-- The request by which an endpoint asks for a flag operation on a cell of site `n`. -/
def flagRequest (typ c src n h mask : Nat) (origin : Origin) : Request :=
  { packet := { flagPacket typ c src n (h + place mask 32) with followed := followedBy origin && decide (typ ≤ 2) }, origin := origin }

/-- The state that asks for one more packet. -/
def State.issuing (s : State) (r : Request) : State := { s with issue := s.issue ++ [r] }

/-- An operation on a cell of another site asks for one packet to it. -/
theorem run_issueFlag_cell (hcell : s.resolve c h = .cell n) (hne : src ≠ n) (typ mask : Nat) (origin : Origin) :
    (issueFlag typ c src h mask origin).run s = s.issuing (flagRequest typ c src n h mask origin) := by
  rw [issueFlag, run_look, hcell]
  exact congrArg (Prog.run · s) (if_neg hne)

/-- No site is a queue engine's endpoint. -/
theorem queueEndpoint_ne (hn : n < 3264) (c : Nat) : queueEndpoint c ≠ n := by
  unfold queueEndpoint; omega

/-- A drop counts for the context and for the device (R277, R278). -/
theorem countStale_counts (h : s.Sorted) (c : Nat) : ∃ R, (countStale c).run s = { s with regs := R } ∧ Tab.Canon regDefault R ∧
    ∀ k, k % 256 ≠ 0x0B → Tab.get (regDefault k) R k = if k = rk 0x2800 0x04 then satAdd 64 (s.reg 0x2800 0x04) 1 else s.regAt k := by
  obtain ⟨R₁, hrun₁, hsorted₁, hreg₁⟩ := bump_counts h true 64 (0x2700 + c) 0x0B 1
  obtain ⟨R, hrun, hsorted, hreg⟩ := bump_counts (s := { s with regs := R₁ }) hsorted₁ true 64 0x2800 0x04 1
  have hne : ∀ k, k % 256 ≠ 0x0B → Tab.get (regDefault k) R₁ k = s.regAt k := fun k hk =>
    (hreg₁ k).trans (if_neg fun hc => hk (by rw [hc.2]; unfold rk; omega))
  refine ⟨R, (congrArg (Prog.run _) hrun₁).trans hrun, hsorted, fun k hk => (hreg k).trans ?_⟩
  by_cases hkey : k = rk 0x2800 0x04
  · rw [if_pos ⟨rfl, hkey⟩, if_pos hkey]
    exact congrArg (satAdd 64 · 1) (hne _ (by decide))
  · rw [if_neg fun hc => hkey hc.2, if_neg hkey]
    exact hne k hk

/-- An issuer that drops an operation counts and reports it. -/
theorem dropAtIssuer_counts (hs : s.Sorted) (c src h code : Nat) : ∃ u, (dropAtIssuer c src h code).run s = s.reported u ∧
    u.reg 0x2800 0x04 = satAdd 64 (s.reg 0x2800 0x04) 1 := by
  obtain ⟨R, hrun, -, hreg⟩ := countStale_counts hs c
  obtain ⟨u, hreport, hkeep⟩ := run_isReport (every_reportOnce code c src (endpointUnit src).1 (endpointUnit src).2 c h) { s with regs := R }
  refine ⟨u, ?_, (hkeep _ (by decide)).trans ((hreg _ (by decide)).trans (if_pos rfl))⟩
  simp only [dropAtIssuer, run_all_cons, run_all_nil, hrun, hreport]
  rfl

end issue

/-! ## The statement on the descriptors that signal -/

section signalling

variable {s : State} {c : Ctx} {p : Nat} {before : List ActiveDesc} {d : ActiveDesc} (hs : s.Canonical)

include hs

/-- NOTE ends at its start (R264). -/
theorem note_ends (h : s.Startable c p 0x0C before d) : ∃ t, exec (.note c p) s = .next t ∧
    t.ctx c = (s.ctx c).began before d s.now (some 0) ∧ t = { s with ctxs := t.ctxs } ∧ s.ctxsBut t c := by
  refine ⟨s.begun c before d (some 0), congrArg Host.Outcome.next (h.run_ending hs (by decide) rfl), ?_⟩
  obtain ⟨hctx, hbut⟩ := ctxsBut_of_ctxs hs (t := s.begun c before d (some 0)) rfl
  exact ⟨hctx, rfl, hbut⟩

/-- FENCE_ORDER ends at its start when nothing of the context is in flight (R265). -/
theorem fenceOrder_ends (h : s.Startable c p 0x0B before d) (hflags : (s.ctx c).flagOps = []) (hposts : (s.ctx c).ringPosts = []) :
    ∃ t, exec (.fenceOrder c p) s = .next t ∧ t.ctx c = (s.ctx c).began before d s.now (some 0) ∧
      t = { s with ctxs := t.ctxs } ∧ s.ctxsBut t c := by
  have hstart : (startDesc c p 0x0B fun _ => .skip).run s = s.begun c before d none :=
    h.run_of (by decide) (run_skip _) (congrArg CtxCore.active (ctx_begun hs none))
  have hfind : (((s.begun c before d none).ctx c).active.find? fun e =>
      decide (e.num = p ∧ dOp e = 0x0B) && e.started && e.status.isNone) =
      some { d with started := true, startTime := s.now, status := none } := by
    rw [ctx_begun hs, CtxCore.began, List.find?_append, List.find?_eq_none.mpr fun e he => by simp [(h.earlier e he).1]]
    simp only [h.num, true_and, List.find?_cons, Bool.and_true, Option.isNone_none, Option.none_or]
    rw [decide_eq_true (show dOp { d with num := p, started := true, startTime := s.now, status := none } = 0x0B from h.op)]
  have hruns : (s.begun c before d none).ctxRuns c = true := h.runs
  have hflags' : ((s.begun c before d none).ctx c).flagOps = [] := (congrArg CtxCore.flagOps (ctx_begun hs _)).trans hflags
  have hposts' : ((s.begun c before d none).ctx c).ringPosts = [] := (congrArg CtxCore.ringPosts (ctx_begun hs _)).trans hposts
  have hrun : (all [startDesc c p 0x0B fun _ => .skip, fenceOrderProg c p]).run s = s.begun c before d (some 0) := by
    simp only [run_all_cons, run_all_nil, hstart, fenceOrderProg, run_look, hfind, run_withP_some, hruns, hflags', hposts',
      List.isEmpty_nil, Bool.and_self, run_whenP, if_true, h.run_end hs]
  obtain ⟨hctx, hbut⟩ := ctxsBut_of_ctxs hs (t := s.begun c before d (some 0)) rfl
  exact ⟨_, congrArg Host.Outcome.next hrun, hctx, rfl, hbut⟩

/-- A SET_FLAG or CLEAR_FLAG on a cell is sent, and followed until it is applied (R265). -/
theorem run_flagDesc_cell {op typ n : Nat} (h : s.Startable c p op before d) (hop : op ≠ 0x02)
    (hcell : s.resolve c (bits (dWord d 1) 15 0) = .cell n) (hn : n < 3264) : (startDesc c p op (flagDesc c p typ)).run s =
      (s.withCtx c { (s.ctx c).began before d s.now none with flagOps := (s.ctx c).flagOps ++ [bits (dWord d 1) 15 0] }).issuing
        (flagRequest typ c (queueEndpoint c) n (bits (dWord d 1) 15 0) 0 (.descriptor c p)) := by
  let r := flagRequest typ c (queueEndpoint c) n (bits (dWord d 1) 15 0) 0 (.descriptor c p)
  have hissue := run_issueFlag_cell (s := s.begun c before d none) hcell (queueEndpoint_ne hn c) typ 0 (.descriptor c p)
  have hdrop : ((s.begun c before d none).resolve c (bits (dWord d 1) 15 0)).dropCode = none := congrArg Resolution.dropCode hcell
  have hfollow := run_modCtx_withCtx hs c (fun x => { x with flagOps := x.flagOps ++ [bits (dWord d 1) 15 0] })
    ((s.ctx c).began before d s.now none)
  have hflag : (flagDesc c p typ d).run (s.begun c before d none) =
      (s.withCtx c { (s.ctx c).began before d s.now none with flagOps := (s.ctx c).flagOps ++ [bits (dWord d 1) 15 0] }).issuing r := by
    simp only [flagDesc, run_look, run_all_cons, run_all_nil, hissue, hdrop, Option.isSome_none, Bool.false_eq_true, if_false]
    exact congrArg (fun t : State => t.issuing r) hfollow
  have hctx := ctx_withCtx_self hs c { (s.ctx c).began before d s.now none with flagOps := (s.ctx c).flagOps ++ [bits (dWord d 1) 15 0] }
  exact h.run_of (status := none) hop hflag (congrArg CtxCore.active hctx :)

/-- What a SET_FLAG or CLEAR_FLAG on a cell leaves. -/
theorem flagDesc_sends {op typ n : Nat} (h : s.Startable c p op before d) (hop : op ≠ 0x02)
    (hcell : s.resolve c (bits (dWord d 1) 15 0) = .cell n) (hn : n < 3264) : ∃ t, (startDesc c p op (flagDesc c p typ)).run s = t ∧
      t.ctx c = { (s.ctx c).began before d s.now none with flagOps := (s.ctx c).flagOps ++ [bits (dWord d 1) 15 0] } ∧
      t.issue = s.issue ++ [flagRequest typ c (queueEndpoint c) n (bits (dWord d 1) 15 0) 0 (.descriptor c p)] ∧
      t = { s with ctxs := t.ctxs, issue := t.issue } ∧ s.ctxsBut t c := by
  obtain ⟨hctx, hbut⟩ := ctxsBut_of_ctxs hs (c := c) rfl
  exact ⟨_, run_flagDesc_cell hs h hop hcell hn, hctx, rfl, rfl, hbut⟩

/-- A SET_FLAG or CLEAR_FLAG on an unmapped handle is dropped, and ends (R265, R277). -/
theorem run_flagDesc_unmapped {op typ : Nat} (h : s.Startable c p op before d) (hop : op ≠ 0x02)
    (hnone : s.resolve c (bits (dWord d 1) 15 0) = .unmapped) : ∃ u, (startDesc c p op (flagDesc c p typ)).run s =
      (s.begun c before d (some 0)).reported u ∧ u.reg 0x2800 0x04 = satAdd 64 (s.reg 0x2800 0x04) 1 := by
  obtain ⟨u, hdrop, hcount⟩ := dropAtIssuer_counts (s := s.begun c before d none) hs.regs c (queueEndpoint c) (bits (dWord d 1) 15 0) 0x800D
  have hissue : (issueFlag typ c (queueEndpoint c) (bits (dWord d 1) 15 0) 0 (.descriptor c p)).run (s.begun c before d none) =
      (s.begun c before d none).reported u := by
    have hnone' : (s.begun c before d none).resolve c (bits (dWord d 1) 15 0) = .unmapped := hnone
    rw [issueFlag, run_look, hnone']
    exact hdrop
  have hflag : (flagDesc c p typ d).run (s.begun c before d none) = (s.begun c before d (some 0)).reported u := by
    have hcode : ((s.begun c before d none).resolve c (bits (dWord d 1) 15 0)).dropCode = some 0x800D := congrArg Resolution.dropCode hnone
    simp only [flagDesc, run_look, run_all_cons, run_all_nil, hissue, hcode, Option.isSome_some, if_true]
    exact congrArg (fun t : State => t.reported u) (h.run_end hs 0)
  exact ⟨u, h.run_of hop hflag (congrArg CtxCore.active (ctx_begun hs (some 0)) :), hcount⟩

/-- WAIT_FLAG asks for its wait, and stays active (R266). -/
theorem waitFlag_asks {n : Nat} (h : s.Startable c p 0x07 before d) (hcell : s.resolve c (bits (dWord d 1) 15 0) = .cell n)
    (hn : n < 3264) : ∃ t, exec (.waitFlag c p) s = .next t ∧ t.ctx c = (s.ctx c).began before d s.now none ∧
      t.issue = s.issue ++ [flagRequest 0x03 c (queueEndpoint c) n (bits (dWord d 1) 15 0) (bits (dWord d 1) 63 32) (.descriptor c p)] ∧
      t = { s with ctxs := t.ctxs, issue := t.issue } ∧ s.ctxsBut t c := by
  have hissue := run_issueFlag_cell (s := s.begun c before d none) hcell (queueEndpoint_ne hn c) 0x03 (bits (dWord d 1) 63 32) (.descriptor c p)
  have hwait : (waitDescProg c p d).run (s.begun c before d none) = (s.begun c before d none).issuing
      (flagRequest 0x03 c (queueEndpoint c) n (bits (dWord d 1) 15 0) (bits (dWord d 1) 63 32) (.descriptor c p)) := by
    have hdrop : ((s.begun c before d none).resolve c (bits (dWord d 1) 15 0)).dropCode = none := congrArg Resolution.dropCode hcell
    simp only [waitDescProg, run_look, hdrop, hissue]
  have hrun := h.run_of (by decide) hwait (congrArg CtxCore.active (ctx_begun hs none) :)
  obtain ⟨hctx, hbut⟩ := ctxsBut_of_ctxs hs (t := s.begun c before d none) rfl
  exact ⟨_, congrArg Host.Outcome.next hrun, hctx, rfl, rfl, hbut⟩

end signalling

/-- Settles O16: a descriptor that may start is the last active one, and each opcode's own effect has its lemma above. -/
theorem signallingDescriptorsStart : Obligations.SignallingDescriptorsStart := by
  intro s c p before d hs
  refine ⟨note_ends hs, fun h n hcell hn => ?_, fun h hnone => ?_, fun h n hcell hn => ?_, fun h n => waitFlag_asks hs h,
    fenceOrder_ends hs⟩
  · obtain ⟨t, hrun, hrest⟩ := flagDesc_sends (typ := 0x01) hs h (by decide) hcell hn
    exact ⟨t, congrArg Host.Outcome.next hrun, hrest⟩
  · obtain ⟨u, hrun, hcount⟩ := run_flagDesc_unmapped (typ := 0x01) hs h (by decide) hnone
    obtain ⟨hctx, hbut⟩ := ctxsBut_of_ctxs hs (t := s.begun c before d (some 0)) rfl
    exact ⟨_, congrArg Host.Outcome.next hrun, hctx, hcount, rfl, hbut⟩
  · obtain ⟨t, hrun, hrest⟩ := flagDesc_sends (typ := 0x02) hs h (by decide) hcell hn
    exact ⟨t, congrArg Host.Outcome.next hrun, hrest⟩

end Sys2Proof.Machine

/-! SUPPORT. The tile monitor and the queue engine's waits: what taking a flag packet leaves, a SET, a CLEAR, a rebind, a wait, a wake and
a retry (O17, O18; R266, R277 to R285). -/

namespace Sys2Proof.Machine

open Sys2Proof

/-! ## The next flag packet of a tile (R278, R285) -/

/-- The next flag packet of its type is taken from the endpoint and then applied. -/
theorem run_flagPacket {s : State} {p : Packet} {typ : Nat} (hn : s.isNext p = true) (ht : p.typ = typ) (f : Prog) :
    (applyPacket typ p f).run s = f.run (s.without p) := run_applyPacket hn ht f

/-- The state with other registers and other contexts' own states. -/
def State.accounting (s : State) (R : Tab Nat) (C : Tab CtxCore) : State := { s with regs := R, ctxs := C }

/-- The state with other flag cells. -/
def State.withCells (s : State) (X : Tab Cell) : State := { s with cells := X }

/-- The end of a packet, when it is a flag operation, changes registers and contexts' own states alone. -/
theorem run_packetDone_accounting {s : State} (h : s.Sorted) (p : Packet) : ∃ R C, (packetDone p).run s = s.accounting R C ∧
    (s.accounting R C).Sorted ∧ ∀ k, k % 256 ≠ 0x0A → (s.accounting R C).regAt k = s.regAt k :=
  run_isAccount (every_packetDone_isAccount p) h

/-- The state with other registers. -/
def State.withRegisters (s : State) (R : Tab Nat) : State := { s with regs := R }

/-- The end of a wait packet counts in its context alone (R285). -/
theorem packetDone_wait {p : Packet} (htyp : p.typ = 0x03) (s : State) : ∃ R, (packetDone p).run s = s.withRegisters R ∧
    ∀ k, k ≠ rk (0x2700 + p.ctx) 0x0A → (s.withRegisters R).regAt k = s.regAt k := by
  have hevery : (packetDone p).Every fun e => e.isScalar [rk (0x2700 + p.ctx) 0x0A] = true := by
    simp [packetDone, htyp, setReg, Eff.isScalar]
  obtain ⟨R, hrun, hkeep⟩ := run_isScalar hevery s
  exact ⟨R, hrun, fun k hk => hkeep k (by simpa using hk)⟩

/-- A monitor that drops an operation counts and reports it (R278). -/
theorem dropAtCell_counts {s : State} (hs : s.Sorted) (p : Packet) (site : Nat) : ∃ u, (dropAtCell p site).run s = s.reported u ∧
    u.reg (0x3000 + site) 0x91 = satAdd 32 (s.reg (0x3000 + site) 0x91) 1 := by
  obtain ⟨R₁, hcount, hsorted₁, hreg₁⟩ := bump_counts hs true 32 (0x3000 + site) 0x91 1
  have hcount : (count32 (0x3000 + site) 0x91 1).run s = s.withRegisters R₁ := hcount
  obtain ⟨R₂, hstale, -, hreg₂⟩ := countStale_counts (s := s.withRegisters R₁) hsorted₁ p.ctx
  have hstale : _ = s.withRegisters R₂ := hstale
  obtain ⟨u, hreport, hkeep⟩ := run_isReport (every_reportOnce 0x800C p.ctx site 0 site p.ctx (pairArg (bits p.operand 15 0) site))
    (s.withRegisters R₂)
  refine ⟨u, ?_, ?_⟩
  · simp only [dropAtCell, run_all_cons, run_all_nil, hcount, hstale, hreport]
    rfl
  · calc u.regAt (rk (0x3000 + site) 0x91)
      _ = (s.withRegisters R₂).regAt (rk (0x3000 + site) 0x91) := hkeep _ (site_notMem_reportKeys site _)
      _ = (s.withRegisters R₁).regAt (rk (0x3000 + site) 0x91) := (hreg₂ _ (by unfold rk; omega)).trans (if_neg (by unfold rk; omega))
      _ = satAdd 32 (s.reg (0x3000 + site) 0x91) 1 := (hreg₁ _).trans (if_pos ⟨rfl, rfl⟩)

theorem cellAt_set {s t : State} (h : s.Canonical) {k : Nat} {x : Cell} (ht : t.cells = Tab.set {} s.cells k x) (j : Nat) :
    t.cellAt j = if j = k then x else s.cellAt j := by
  unfold State.cellAt
  rw [ht, Tab.get_set h.cells.1]

theorem waitersAt_set {s t : State} (h : s.Canonical) {l : Nat} {ws : List Waiter} (ht : t.waiters = Tab.set [] s.waiters l ws) (j : Nat) :
    t.waitersAt j = if j = l then ws else s.waitersAt j := by
  unfold State.waitersAt
  rw [ht, Tab.get_set h.waiters.1]

/-- A cell that is found is one of the tile's 32, and bound. -/
theorem findCell_eq_some {s : State} {l c h k : Nat} (hk : s.findCell l c h = some k) :
    k < 32 ∧ (s.cellAt (l * 32 + k)).bound = true ∧ (s.cellAt (l * 32 + k)).ctx = c ∧ (s.cellAt (l * 32 + k)).index = handleIndex h ∧
      (s.cellAt (l * 32 + k)).gen = handleGen h := by
  have hmem := List.mem_range.mp (List.mem_of_find?_eq_some hk)
  have hmatch := List.find?_some hk
  obtain ⟨hbound, hctx, hindex, hgen⟩ : _ ∧ _ ∧ _ ∧ _ := by simpa using hmatch
  exact ⟨hmem, hbound, hctx, hindex, hgen⟩

/-- A cell whose binding stays is found as before. -/
theorem findCell_congr {s u : State} {l : Nat} (h : ∀ k, (u.cellAt (l * 32 + k)).bound = (s.cellAt (l * 32 + k)).bound ∧
    (u.cellAt (l * 32 + k)).ctx = (s.cellAt (l * 32 + k)).ctx ∧ (u.cellAt (l * 32 + k)).index = (s.cellAt (l * 32 + k)).index ∧
    (u.cellAt (l * 32 + k)).gen = (s.cellAt (l * 32 + k)).gen) (c hd : Nat) : u.findCell l c hd = s.findCell l c hd := by
  unfold State.findCell
  refine congrArg (List.find? · (List.range 32)) (funext fun k => ?_)
  obtain ⟨hbound, hctx, hindex, hgen⟩ := h k
  simp only [hbound, hctx, hindex, hgen]

/-- A wake that goes to another endpoint asks for one packet. -/
theorem run_wake {site dst : Nat} (h : dst ≠ site) (c hd mark : Nat) (s : State) :
    (wake site dst c hd mark).run s = s.issuing { packet := flagPacket 0x04 c site dst (hd + mark) } :=
  congrArg (Prog.run · s) (if_neg (Ne.symm h))

/-! ## SET and CLEAR (R278, R279) -/

/-- What a SET or a CLEAR of packet `p` leaves of its cell. -/
def Cell.signalled (x : Cell) (p : Packet) (v : Bool) : Cell := { x with value := v, lastEp := p.src, lastCtx := p.ctx }

/-- The rest of a packet that has been applied: it is done, the operation counts, and its context progresses. -/
def appliedAt (p : Packet) : Prog := .seq (count64 (0x3000 + p.dst) 0x90 1) (progress p.ctx)

theorem appliedAt_counts {s : State} (h : s.Sorted) (p : Packet) : ∃ R, (appliedAt p).run s = { s with regs := R } ∧
    Tab.get (regDefault (rk (0x3000 + p.dst) 0x90)) R (rk (0x3000 + p.dst) 0x90) = satAdd 64 (s.reg (0x3000 + p.dst) 0x90) 1 := by
  obtain ⟨R, hcount, -, hreg⟩ := bump_counts h true 64 (0x3000 + p.dst) 0x90 1
  have hcount : (count64 (0x3000 + p.dst) 0x90 1).run s = _ := hcount
  refine ⟨_, (congrArg (Prog.run _) hcount).trans rfl, ?_⟩
  exact (regAt_setReg_of_ne (rk_sub_ne (by decide) (by decide) (by decide)) { s with regs := R }).trans
    ((hreg _).trans (if_pos ⟨rfl, rfl⟩))

section signal

variable {s : State} (hs : s.Canonical) {p : Packet} {l k : Nat} (hnext : s.isNext p = true) (htile : s.tileOf p.dst = some l)
  (hcell : s.findCell l p.ctx (bits p.operand 15 0) = some k)

include hs hnext htile hcell

/-- A SET or a CLEAR of a bound cell changes the cell and counts; then the tile's waiters are tested. -/
theorem applySet_signals {typ : Nat} (htyp : p.typ = typ) (v : Bool) : ∃ R C,
    (applyPacket typ p (applySet p v)).run s = (testWaiters p.dst l (s.waitersAt l)).run
      (((s.without p).accounting R C).withCells (Tab.set {} s.cells (l * 32 + k) ((s.cellAt (l * 32 + k)).signalled p v))) ∧
    Tab.get (regDefault (rk (0x3000 + p.dst) 0x90)) R (rk (0x3000 + p.dst) 0x90) = satAdd 64 (s.reg (0x3000 + p.dst) 0x90) 1 := by
  obtain ⟨R₁, C, hdone, hsorted, hkeep⟩ := run_packetDone_accounting (s := s.without p) hs.regs p
  generalize hX : Tab.set {} s.cells (l * 32 + k) ((s.cellAt (l * 32 + k)).signalled p v) = X
  obtain ⟨R, happlied, hcount⟩ := appliedAt_counts (p := p) (s := ((s.without p).accounting R₁ C).withCells X) hsorted
  have happlied : _ = ((s.without p).accounting R C).withCells X := happlied
  refine ⟨R, C, ?_, hcount.trans (congrArg (satAdd 64 · 1) (hkeep _ (by unfold rk; omega)))⟩
  have htile' : (s.without p).tileOf p.dst = some l := htile
  have hcell' : (s.without p).findCell l p.ctx (bits p.operand 15 0) = some k := hcell
  have hmod : (modCell (l * 32 + k) fun x => { x with value := v, lastEp := p.src, lastCtx := p.ctx }).run ((s.without p).accounting R₁ C) =
      ((s.without p).accounting R₁ C).withCells X := congrArg ((s.without p).accounting R₁ C).withCells hX
  rw [run_flagPacket hnext htyp, applySet, run_look]
  simp only [htile', hcell', run_withP_some, run_all_cons, run_all_nil, hdone, hmod]
  change (Prog.look fun t => testWaiters p.dst l (t.waitersAt l)).run ((appliedAt p).run _) = _
  rw [happlied, run_look]
  rfl

/-- Without a waiter nothing else happens. -/
theorem applySet_signals_only (hnone : s.waitersAt l = []) {typ : Nat} (htyp : p.typ = typ) (v : Bool) :
    ∃ t, (applyPacket typ p (applySet p v)).run s = t ∧
      t.cellAt (l * 32 + k) = { s.cellAt (l * 32 + k) with value := v, lastEp := p.src, lastCtx := p.ctx } ∧
      t.reg (0x3000 + p.dst) 0x90 = satAdd 64 (s.reg (0x3000 + p.dst) 0x90) 1 ∧ t.delivered = s.delivered.erase p ∧
      t = { s with regs := t.regs, ctxs := t.ctxs, cells := t.cells, delivered := t.delivered } ∧
      (∀ j, j ≠ l * 32 + k → t.cellAt j = s.cellAt j) := by
  obtain ⟨R, C, hrun, hcount⟩ := applySet_signals hs hnext htile hcell htyp v
  rw [hnone] at hrun
  exact ⟨_, hrun, (cellAt_set hs rfl _).trans (if_pos rfl), hcount, rfl, rfl, fun j hj => (cellAt_set hs rfl _).trans (if_neg hj)⟩

/-- A SET wakes the one waiter of its cell (R280). -/
theorem flagSet_wakes {w : Waiter} (hone : s.waitersAt l = [w]) (hctx : w.ctx = p.ctx) (hhandle : w.handle = bits p.operand 15 0)
    (hmask : w.mask = 0) (hep : w.ep ≠ p.dst) (htyp : p.typ = 0x01) : ∃ t, exec (.flagSet p) s = .next t ∧
      (t.cellAt (l * 32 + k)).value = true ∧ t.waitersAt l = [] ∧
      t.issue = s.issue ++ [{ packet := flagPacket 0x04 p.ctx p.dst w.ep w.handle }] := by
  obtain ⟨R, C, hrun, -⟩ := applySet_signals hs hnext htile hcell htyp true
  obtain ⟨hlt, hbinding⟩ := findCell_eq_some hcell
  generalize hx : Tab.set {} s.cells (l * 32 + k) ((s.cellAt (l * 32 + k)).signalled p true) = X at hrun
  let u : State := ((s.without p).accounting R C).withCells X
  have hcells : ∀ j, u.cellAt j = if j = l * 32 + k then (s.cellAt (l * 32 + k)).signalled p true else s.cellAt j :=
    cellAt_set hs hx.symm
  have hfind : u.findCell l w.ctx w.handle = some k := by
    rw [hctx, hhandle, ← hcell]
    refine findCell_congr (fun j => ?_) _ _
    rw [hcells]
    split
    · next hj => rw [hj]; exact ⟨rfl, rfl, rfl, rfl⟩
    · exact ⟨rfl, rfl, rfl, rfl⟩
  have hholds : u.waitHolds l k w.mask = true := by
    refine List.all_eq_true.mpr fun j hj => ?_
    obtain rfl : j = k := by simpa [waitCells, hmask] using (List.mem_filter.mp hj).2
    rw [hcells, if_pos rfl]; rfl
  have hwaiters : u.waitersAt l = [w] := hone
  have htest : (testWaiters p.dst l [w]).run u =
      { u with waiters := Tab.set [] s.waiters l [], issue := s.issue ++ [{ packet := flagPacket 0x04 w.ctx p.dst w.ep w.handle }] } := by
    simp only [testWaiters, run_seq, run_look, hfind, hholds, run_whenP, if_true, run_all_cons, run_all_nil, run_withState, hwaiters,
      List.erase_cons_head, run_wake hep, run_skip]
    rfl
  rw [hone] at hrun
  refine ⟨_, congrArg Host.Outcome.next (hrun.trans htest), ?_, (waitersAt_set hs rfl _).trans (if_pos rfl), by rw [← hctx]⟩
  exact congrArg Cell.value ((hcells _).trans (if_pos rfl))

end signal

/-! ## Rebinds (R283, R285) -/

/-- Writes of cells change cells alone, and no cell that none of them names. -/
theorem eachP_cells_writes {α : Type} {xs : List α} {key : α → Nat} (val : α → Cell) {s : State} (h : s.Canonical) :
    ∃ X, (eachP xs fun x => .eff (.cells (key x) (val x))).run s = s.withCells X ∧
      ∀ j, (∀ x ∈ xs, j ≠ key x) → (s.withCells X).cellAt j = s.cellAt j := by
  induction xs generalizing s with
  | nil => exact ⟨s.cells, rfl, fun _ _ => rfl⟩
  | cons x xs ih =>
    obtain ⟨X, hrun, hkeep⟩ := ih (run_canonical (.eff (.cells (key x) (val x))) h)
    refine ⟨X, hrun, fun j hj => ?_⟩
    obtain ⟨hne, hj⟩ := List.forall_mem_cons.mp hj
    exact (hkeep j hj).trans ((cellAt_set h rfl j).trans (if_neg hne))

/-- The key of an entry's cell lies among those of the entry's tile. -/
theorem fmKey_bounds (e : Nat) : fmTile e * 32 ≤ fmKey e ∧ fmKey e < fmTile e * 32 + 32 := by
  have hcell : fmCell e < 32 := Nat.mod_lt _ (by decide)
  unfold fmKey
  omega

/-- The cell that a rebind of packet `p` binds for entry `e`. -/
def boundCell (p : Packet) (e : Nat) : Cell :=
  { value := false, bound := true, ctx := p.ctx, gen := fmGen e, index := bits p.operand 11 0, lastEp := p.src, lastCtx := p.ctx }

/-- The cells of tile `l` that a rebind of packet `p` for entry `e` unbinds. -/
def State.unbinds (s : State) (p : Packet) (l e : Nat) : List Nat :=
  (List.range 32).filter fun k => (s.cellAt (l * 32 + k)).bound &&
    decide ((s.cellAt (l * 32 + k)).ctx = p.ctx ∧ (s.cellAt (l * 32 + k)).index = bits p.operand 11 0) &&
    !(fmValid e && decide (fmKey e = l * 32 + k))

/-- While no map write waits, the rebind of an entry ends no wait. -/
theorem run_entryRebound_nil {s : State} (h : s.entryWaits = []) (c i : Nat) : (entryRebound c i).run s = s := by
  rw [entryRebound, run_look, h]; rfl

/-- A rebind of a valid entry of the tile binds the entry's cell, and reaches no cell of another tile. -/
theorem rebind_binds {s : State} (hs : s.Canonical) {p : Packet} {l : Nat} (hnext : s.isNext p = true) (htile : s.tileOf p.dst = some l)
    (htyp : p.typ = 0x02) (hbit : p.operand.testBit 16 = true) {e : Nat} (hentry : s.entryAt (p.ctx * 4096 + bits p.operand 11 0) = e)
    (hvalid : fmValid e = true) (hl : fmTile e = l) (hwaits : s.entryWaits = []) : ∃ t, exec (.rebind p) s = .next t ∧
      t.cellAt (fmKey e) = boundCell p e ∧ t.delivered = s.delivered.erase p ∧
      t = { s with regs := t.regs, ctxs := t.ctxs, cells := t.cells, delivered := t.delivered } ∧
      ∀ j, j < l * 32 ∨ l * 32 + 32 ≤ j → t.cellAt j = s.cellAt j := by
  obtain ⟨R₁, C, hdone, hsorted, -⟩ := run_packetDone_accounting (s := s.without p) hs.regs p
  have hcanon : ((s.without p).accounting R₁ C).Canonical := hdone ▸ run_canonical _ (canonical_without hs p)
  obtain ⟨X, hunbind, hothers⟩ := eachP_cells_writes (xs := s.unbinds p l e) (key := (l * 32 + ·)) (fun _ => unboundCell p.src p.ctx) hcanon
  have hcanonX : (((s.without p).accounting R₁ C).withCells X).Canonical := hunbind ▸ run_canonical _ hcanon
  obtain ⟨R, happlied, -⟩ := appliedAt_counts (p := p)
    (s := ((s.without p).accounting R₁ C).withCells (Tab.set {} X (fmKey e) (boundCell p e))) hsorted
  have happlied : _ = ((s.without p).accounting R C).withCells (Tab.set {} X (fmKey e) (boundCell p e)) := happlied
  have hbind : (whenP (fmValid e && decide (fmTile e = l)) (.eff (.cells (fmKey e) (boundCell p e)))).run
      (((s.without p).accounting R₁ C).withCells X) =
      ((s.without p).accounting R₁ C).withCells (Tab.set {} X (fmKey e) (boundCell p e)) := by
    rw [run_whenP, if_pos (by simp [hvalid, hl])]; rfl
  have hrun : (applyPacket 0x02 p (applyRebind p)).run s = ((s.without p).accounting R C).withCells (Tab.set {} X (fmKey e) (boundCell p e)) := by
    have htile' : (s.without p).tileOf p.dst = some l := htile
    have hentry' : (s.without p).entryAt (p.ctx * 4096 + bits p.operand 11 0) = e := hentry
    rw [run_flagPacket hnext htyp, applyRebind, run_look]
    simp only [htile', hentry', run_withP_some, run_all_cons, run_all_nil, hdone]
    change (entryRebound _ _).run ((appliedAt p).run ((whenP _ (.eff (.cells _ (boundCell p e)))).run ((eachP (s.unbinds p l e) _).run _))) = _
    rw [hunbind, hbind, happlied]
    exact run_entryRebound_nil (s := ((s.without p).accounting R C).withCells (Tab.set {} X (fmKey e) (boundCell p e))) hwaits ..
  have hexec : exec (.rebind p) s = .next ((applyPacket 0x02 p (applyRebind p)).run s) := by
    change finish (if bit p.operand 16 then _ else _) s = _
    rw [bit, if_pos hbit]; rfl
  rw [hrun] at hexec
  obtain ⟨hlo, hhi⟩ := hl ▸ fmKey_bounds e
  refine ⟨_, hexec, (cellAt_set hcanonX rfl _).trans (if_pos rfl), rfl, rfl, fun j hj => ?_⟩
  refine (cellAt_set hcanonX rfl _).trans ((if_neg (by omega)).trans (hothers j fun k hk => ?_))
  have := List.mem_range.mp (List.mem_filter.mp hk).1
  omega

/-- Settles O17: one lemma says what a SET or a CLEAR of a bound cell does before the waiters are tested. -/
theorem monitorsApplySetAndClear : Obligations.MonitorsApplySetAndClear := by
  intro s p l hs hnext htile
  refine ⟨fun k hcell hnone => ⟨fun htyp => ?_, fun htyp hbit => ?_⟩, fun k w hcell => flagSet_wakes hs hnext htile hcell,
    fun htyp hbit e => rebind_binds hs hnext htile htyp hbit⟩
  · obtain ⟨t, hrun, hrest⟩ := applySet_signals_only hs hnext htile hcell hnone htyp true
    exact ⟨t, congrArg Host.Outcome.next hrun, hrest⟩
  · obtain ⟨t, hrun, hrest⟩ := applySet_signals_only hs hnext htile hcell hnone htyp false
    refine ⟨t, ?_, hrest⟩
    change finish (if bit p.operand 16 then _ else _) s = _
    rw [if_neg (by rw [bit, hbit]; decide)]
    exact congrArg Host.Outcome.next hrun

/-! ## Waits (R278, R280, R281) -/

/-- What becomes of the wait of packet `p` on bound cell `k` of tile `l` that comes in `s`. -/
def State.waitOutcome (s : State) (p : Packet) (l k : Nat) : Prog :=
  if s.waitHolds l k (bits p.operand 63 32) then wake p.dst p.src p.ctx (bits p.operand 15 0) 0
  else if (s.waitersAt l).length < 8 then
    withState fun t => .waiters l (t.waitersAt l ++ [⟨p.src, p.ctx, bits p.operand 15 0, bits p.operand 63 32⟩])
  else all [count32 (0x3000 + p.dst) 0x94 1, reportOnce 0x8010 p.ctx p.dst 0 p.dst p.ctx p.dst,
    wake p.dst p.src p.ctx (bits p.operand 15 0) (2 ^ 17)]

section wait

variable {s : State} (hs : s.Canonical) {p : Packet} {l : Nat} (hnext : s.isNext p = true) (htyp : p.typ = 0x03)
  (htile : s.tileOf p.dst = some l)

include hs hnext htyp htile

/-- A wait on a bound cell counts; then it is woken, or registered, or answered busy. -/
theorem flagWait_bound {k : Nat} (hcell : s.findCell l p.ctx (bits p.operand 15 0) = some k)
    (hbound : s.waitBound l p.ctx (bits p.operand 15 0) k (bits p.operand 63 32) = true) :
    ∃ R, exec (.flagWait p) s = .next ((s.waitOutcome p l k).run ((s.without p).withRegisters R)) := by
  obtain ⟨R₁, hdone, -⟩ := packetDone_wait htyp (s.without p)
  have hsorted : ((s.without p).withRegisters R₁).Sorted := hdone ▸ run_sorted _ (s := s.without p) hs.regs
  obtain ⟨R, happlied, -⟩ := appliedAt_counts (p := p) hsorted
  have happlied : _ = (s.without p).withRegisters R := happlied
  have htile' : (s.without p).tileOf p.dst = some l := htile
  have hcell' : (s.without p).findCell l p.ctx (bits p.operand 15 0) = some k := hcell
  have hbound' : (s.without p).waitBound l p.ctx (bits p.operand 15 0) k (bits p.operand 63 32) = true := hbound
  refine ⟨R, congrArg Host.Outcome.next ?_⟩
  rw [run_flagPacket hnext htyp, applyWait, run_look]
  simp only [htile', hcell', hbound', Bool.not_true, Bool.false_eq_true, if_false, run_withP_some, run_all_cons, run_all_nil, hdone]
  rw [← happlied]
  rfl

/-- A wait whose condition holds is answered at once. -/
theorem flagWait_wakes (hne : p.src ≠ p.dst) {k : Nat} (hcell : s.findCell l p.ctx (bits p.operand 15 0) = some k)
    (hbound : s.waitBound l p.ctx (bits p.operand 15 0) k (bits p.operand 63 32) = true)
    (hholds : s.waitHolds l k (bits p.operand 63 32) = true) : ∃ t, exec (.flagWait p) s = .next t ∧
      t.issue = s.issue ++ [{ packet := flagPacket 0x04 p.ctx p.dst p.src (bits p.operand 15 0) }] ∧
      t = { s with regs := t.regs, delivered := s.delivered.erase p, issue := t.issue } := by
  obtain ⟨R, hexec⟩ := flagWait_bound hs hnext htyp htile hcell hbound
  rw [State.waitOutcome, if_pos hholds, run_wake hne] at hexec
  exact ⟨_, hexec, rfl, rfl⟩

/-- One whose condition does not hold registers last while there is room. -/
theorem flagWait_registers {k : Nat} (hcell : s.findCell l p.ctx (bits p.operand 15 0) = some k)
    (hbound : s.waitBound l p.ctx (bits p.operand 15 0) k (bits p.operand 63 32) = true)
    (hholds : s.waitHolds l k (bits p.operand 63 32) = false) (hroom : (s.waitersAt l).length < 8) :
    ∃ t, exec (.flagWait p) s = .next t ∧
      t.waitersAt l = s.waitersAt l ++ [⟨p.src, p.ctx, bits p.operand 15 0, bits p.operand 63 32⟩] ∧
      t = { s with regs := t.regs, delivered := s.delivered.erase p, waiters := t.waiters } ∧
      ∀ l', l' ≠ l → t.waitersAt l' = s.waitersAt l' := by
  obtain ⟨R, hexec⟩ := flagWait_bound hs hnext htyp htile hcell hbound
  rw [State.waitOutcome, if_neg (by rw [hholds]; decide), if_pos hroom] at hexec
  exact ⟨_, hexec, (waitersAt_set hs rfl _).trans (if_pos rfl), rfl, fun j hj => (waitersAt_set hs rfl _).trans (if_neg hj)⟩

/-- A wait on a cell that nobody is bound to is stale. -/
theorem flagWait_stale (hne : p.src ≠ p.dst) (hnone : s.findCell l p.ctx (bits p.operand 15 0) = none) :
    ∃ t, exec (.flagWait p) s = .next t ∧
      t.issue = s.issue ++ [{ packet := flagPacket 0x04 p.ctx p.dst p.src (bits p.operand 15 0 + 2 ^ 18) }] ∧
      t.reg (0x3000 + p.dst) 0x91 = satAdd 32 (s.reg (0x3000 + p.dst) 0x91) 1 ∧
      t = { s.reported t with delivered := s.delivered.erase p, issue := t.issue } := by
  obtain ⟨R, hdone, hkeep⟩ := packetDone_wait htyp (s.without p)
  have hsorted : ((s.without p).withRegisters R).Sorted := hdone ▸ run_sorted _ (s := s.without p) hs.regs
  obtain ⟨u, hdrop, hcount⟩ := dropAtCell_counts hsorted p p.dst
  have htile' : (s.without p).tileOf p.dst = some l := htile
  have hnone' : (s.without p).findCell l p.ctx (bits p.operand 15 0) = none := hnone
  have hrun : (applyPacket 0x03 p (applyWait p)).run s = (((s.without p).withRegisters R).reported u).issuing
      { packet := flagPacket 0x04 p.ctx p.dst p.src (bits p.operand 15 0 + 2 ^ 18) } := by
    rw [run_flagPacket hnext htyp, applyWait, run_look]
    simp only [htile', hnone', run_withP_some, run_all_cons, run_all_nil, hdone, hdrop, run_wake hne]
  exact ⟨_, congrArg Host.Outcome.next hrun, rfl, hcount.trans (congrArg (satAdd 32 · 1) (hkeep _ (by unfold rk; omega))), rfl⟩

end wait

/-! ## Wakes and retries (R266, R281) -/

/-- A FLAG_WAKE at a queue engine that is neither busy nor stale ends the descriptor that waits. -/
theorem flagWake_ends {s : State} (hs : s.Canonical) {p : Packet} {d : ActiveDesc} (e : Ecc) (hnext : s.isNext p = true)
    (htyp : p.typ = 0x04) (hdst : 0xD80 ≤ p.dst) (hbusy : p.operand.testBit 17 = false) (hstale : p.operand.testBit 18 = false)
    (hwaits : s.waitDesc p.ctx (bits p.operand 15 0) = some d) : ∃ t, exec (.flagWake p e) s = .next t ∧
      t = { s with delivered := s.delivered.erase p, ctxs := t.ctxs } ∧
      t.ctx p.ctx = { s.ctx p.ctx with active := (s.ctx p.ctx).active.map (fun e => if e.num = d.num ∧ e.status = none then { e with status := some 0 } else e) } ∧
      s.ctxsBut t p.ctx := by
  have hwaits' : (s.without p).waitDesc p.ctx (bits p.operand 15 0) = some d := hwaits
  have hrun : (applyPacket 0x04 p (applyWake p e)).run s = (endDescriptor p.ctx d.num 0).run (s.without p) := by
    rw [run_flagPacket hnext htyp, applyWake, run_look]
    change (if 0xD80 ≤ p.dst then _ else _ : Prog).run (s.without p) = _
    rw [if_pos hdst]
    simp only [hwaits', run_withP_some, bit, hbusy, hstale, Bool.false_eq_true, if_false]
  obtain ⟨hctx, hbut⟩ := ctxsBut_of_ctxs hs (t := (endDescriptor p.ctx d.num 0).run (s.without p)) rfl
  exact ⟨_, congrArg Host.Outcome.next hrun, rfl, hctx, hbut⟩

theorem run_eachP_filter_none {α : Type} {xs : List α} {P : α → Bool} (h : ∀ x ∈ xs, P x = false) (f : α → Prog) (s : State) :
    (eachP (xs.filter P) f).run s = s := by
  rw [List.filter_eq_nil_iff.mpr fun x hx => by simp [h x hx]]
  rfl

/-- A WAIT_FLAG that was answered busy asks for its wait again. -/
theorem waitRetry_asks {s : State} (hs : s.Canonical) {c : Ctx} {h n : Nat} {d : ActiveDesc} (e : Ecc) (hactive : (s.ctx c).active = [d])
    (hretry : d.retry = true) (hhandle : bits (dWord d 1) 15 0 = h) (hcell : s.resolve c h = .cell n) (hn : n < 3264)
    (hrings : ∀ e ∈ s.ringsOn, e.2.busy = none) : ∃ t, exec (.waitRetry c h e) s = .next t ∧
      t.issue = s.issue ++ [flagRequest 0x03 c (queueEndpoint c) n h (bits (dWord d 1) 63 32) (.descriptor c d.num)] ∧
      t.ctx c = { s.ctx c with active := [{ d with retry := false }] } ∧ t = { s with issue := t.issue, ctxs := t.ctxs } ∧
      s.ctxsBut t c := by
  have hdescs : (s.ctx c).active.filter (fun d => d.retry && decide (bits (dWord d 1) 15 0 = h)) = [d] := by
    rw [hactive, List.filter_singleton, hretry, hhandle, decide_eq_true rfl]
    rfl
  let x : CtxCore := { s.ctx c with active := [{ d with retry := false }] }
  have hmod : (modCtx c fun x => { x with active := x.active.map fun e => if e.num = d.num then { e with retry := false } else e }).run s =
      s.withCtx c x := by
    rw [run_modCtx, hactive, List.map_singleton, if_pos rfl]
  have hissue := run_issueFlag_cell (s := s.withCtx c x) hcell (queueEndpoint_ne hn c) 0x03 (bits (dWord d 1) 63 32) (.descriptor c d.num)
  have hdrop : ((s.withCtx c x).resolve c h).dropCode = none := congrArg Resolution.dropCode hcell
  have hrun : (waitRetryProg c h e).run s =
      (s.withCtx c x).issuing (flagRequest 0x03 c (queueEndpoint c) n h (bits (dWord d 1) 63 32) (.descriptor c d.num)) := by
    rw [waitRetryProg, run_look, run_all_cons, run_all_cons, run_all_nil]
    change (eachP (List.filter _ s.ringsOn) _).run ((eachP ((s.ctx c).active.filter fun d => d.retry && decide (bits (dWord d 1) 15 0 = h)) _).run s) = _
    rw [hdescs, run_eachP_cons, run_eachP_nil, run_all_cons, run_all_cons, run_all_nil, hmod, run_look, hdrop]
    refine (run_eachP_filter_none (fun e he => ?_) _ _).trans hissue
    rw [hrings e he]
    cases e.2.gate <;> simp
  obtain ⟨hctx, hbut⟩ := ctxsBut_of_ctxs hs (t := s.withCtx c x) rfl
  exact ⟨_, congrArg Host.Outcome.next hrun, rfl, hctx, rfl, hbut⟩

/-- Settles O18: each outcome of a wait, of a wake and of a retry has its lemma above. -/
theorem waitsRegisterAndWake : Obligations.WaitsRegisterAndWake := fun _ hs =>
  ⟨fun _ _ hnext htyp htile hne => ⟨fun _ hcell hbound => ⟨flagWait_wakes hs hnext htyp htile hne hcell hbound,
      flagWait_registers hs hnext htyp htile hcell hbound⟩, flagWait_stale hs hnext htyp htile hne⟩,
    fun _ _ e => flagWake_ends hs e, fun _ _ _ _ e => waitRetry_asks hs e⟩

end Sys2Proof.Machine

/-! SUPPORT. The descriptors of a queue engine: the fetch of one, and the completion record of one that has ended (O15; R257, R258). -/

namespace Sys2Proof.Machine

open Sys2Proof

/-! ## DESCRIPTOR_FETCH (R257) -/

/-- A part of a run of bytes. -/
theorem bytesAt_drop_take (s : State) (a : Nat) {n i m : Nat} (h : i + m ≤ n) : ((s.bytesAt a n).drop i).take m = s.bytesAt (a + i) m := by
  refine List.ext_getElem (by simp [State.bytesAt]; omega) fun k _ _ => ?_
  simp [State.bytesAt, Nat.add_assoc]

theorem recordOf_bytesAt (s : State) (a : Nat) :
    fetchProg.recordOf (s.bytesAt a 64) = (List.range 8).map fun i => s.load (a + 8 * i) 8 := by
  refine List.map_congr_left fun i hi => congrArg ofBytes (bytesAt_drop_take s a ?_)
  have := List.mem_range.mp hi
  omega

section fetch

variable {s : State} (hs : s.Canonical) {c : Ctx} {p : Nat} (hruns : s.ctxRuns c = true) (hengine : s.engineUp c = true)

include hruns hengine

/-- A posted descriptor whose line the stack gives joins the active ones, and those that may start settle. -/
theorem run_fetchProg (hfetched : s.reg (0x2700 + c) 0x06 = p) (hposted : s.reg (0x2700 + c) 0x09 ≠ p) (hroom : (s.ctx c).active.length < 8)
    (hserves : s.hbmServes (s.descAddr c p) 64 = true) (hdump : touchesDump (s.descAddr c p) 64 = false)
    (hbad : s.rangeBad (s.descAddr c p) 64 = false) (hwaits : s.hbmWaits (s.descAddr c p) 64 = false) :
    (fetchProg c false).run s = (settle c 8).run (((setReg (0x2700 + c) 0x06 ((p + 1) % 2 ^ 32)).run s).withCtx c { s.ctx c with
      active := (s.ctx c).active ++ [{ num := p, words := (List.range 8).map fun i => s.load (s.descAddr c p + 8 * i) 8 }] }) := by
  simp only [fetchProg, run_look, hfetched, hruns, hengine, hwaits, hserves, hdump, hbad, engineDump, recordOf_bytesAt, hposted.symm, hroom,
    Bool.not_true, Bool.not_false, Bool.or_self, Bool.and_self, ne_eq, not_false_eq_true, decide_true, run_whenP, if_true,
    Bool.false_eq_true, if_false, run_all_cons, run_all_nil]
  rfl

include hs

theorem descriptorFetch_fetches (hfetched : s.reg (0x2700 + c) 0x06 = p) (hposted : s.reg (0x2700 + c) 0x09 ≠ p)
    (hroom : (s.ctx c).active.length < 8) (hserves : s.hbmServes (s.descAddr c p) 64 = true)
    (hdump : touchesDump (s.descAddr c p) 64 = false) (hbad : s.rangeBad (s.descAddr c p) 64 = false)
    (hwaits : s.hbmWaits (s.descAddr c p) 64 = false)
    (hearlier : ∀ e ∈ (s.ctx c).active, e.started = true ∨ e.status.isSome = true ∨ dMalformed e = false) {d : ActiveDesc}
    (hd : d = { num := p, words := (List.range 8).map fun i => s.load (s.descAddr c p + 8 * i) 8 }) (hsound : dMalformed d = false) :
    ∃ t, exec (.descriptorFetch c false) s = .next t ∧ t.reg (0x2700 + c) 0x06 = (p + 1) % 2 ^ 32 ∧
      t.ctx c = { s.ctx c with active := (s.ctx c).active ++ [d] } ∧ t = { s with regs := t.regs, ctxs := t.ctxs } ∧ s.ctxsBut t c ∧
      ∀ k, k ≠ rk (0x2700 + c) 0x06 → t.regAt k = s.regAt k := by
  have hrun := run_fetchProg hruns hengine hfetched hposted hroom hserves hdump hbad hwaits
  rw [← hd] at hrun
  obtain ⟨hctx, hbut⟩ := ctxsBut_of_ctxs hs (c := c) (x := { s.ctx c with active := (s.ctx c).active ++ [d] })
    (t := ((setReg (0x2700 + c) 0x06 ((p + 1) % 2 ^ 32)).run s).withCtx c { s.ctx c with active := (s.ctx c).active ++ [d] }) rfl
  have hsettled : ∀ e ∈ (s.ctx c).active ++ [d], e.started = true ∨ e.status.isSome = true ∨ dMalformed e = false := fun e he => by
    rcases List.mem_append.mp he with he | he
    · exact hearlier e he
    · exact .inr (.inr (List.mem_singleton.mp he ▸ hsound))
  rw [run_settle_of_sound (by rw [hctx]; exact hsettled)] at hrun
  have hreg := regAt_setReg hs.regs (0x2700 + c) 0x06 ((p + 1) % 2 ^ 32)
  exact ⟨_, congrArg Host.Outcome.next hrun, (hreg _).trans (if_pos rfl), hctx, rfl, hbut, fun k hk => (hreg k).trans (if_neg hk)⟩

end fetch

/-! ## DESCRIPTOR_COMPLETE (R258) -/

/-- A range of 16 bytes on a 16-byte boundary lies in one line. -/
theorem linesOf_record {a : Nat} (h : a % 16 = 0) : linesOf a 16 = [a / 64] := by
  have hone : (a + 16 - 1) / 64 - a / 64 + 1 = 1 := by omega
  rw [linesOf, if_neg (by decide), hone]
  rfl

/-- The completed count passes the one record that is written and that it stands at. -/
theorem run_advanceCompleted_one {s : State} {c r : Nat} (hrecords : (s.ctx c).records = [r]) (hat : r / 2 = s.reg (0x2700 + c) 0x08) :
    (advanceCompleted c 1).run s = (whenP (r % 2 == 1) (sendMsix c)).run
      (((setReg (0x2700 + c) 0x08 ((s.reg (0x2700 + c) 0x08 + 1) % 2 ^ 32)).run s).withCtx c { s.ctx c with records := [] }) := by
  have hfind : (s.ctx c).records.find? (fun r => decide (r / 2 = s.reg (0x2700 + c) 0x08)) = some r := by simp [hrecords, hat]
  have hgone : (s.ctx c).records.filter (fun q => decide (q ≠ r)) = [] := by simp [hrecords]
  rw [advanceCompleted, run_look]
  dsimp only
  rw [hfind]
  simp only [run_all_cons, run_all_nil, advanceCompleted, run_skip, run_modCtx]
  change (whenP _ _).run (State.withCtx _ c { s.ctx c with records := (s.ctx c).records.filter _ }) = _
  rw [hgone]

/-- A replacement of a context's own state leaves what an earlier one of it left of the others. -/
theorem withCtx_of_ctxs {s t : State} (h : s.Canonical) {c : Nat} {x : CtxCore} (ht : t.ctxs = (s.withCtx c x).ctxs) (y : CtxCore) :
    t.withCtx c y = { t with ctxs := (s.withCtx c y).ctxs } := by
  have hset : Tab.set {} t.ctxs c y = Tab.set {} s.ctxs c y := by rw [ht]; exact Tab.set_set h.ctxs.1 c x y
  exact congrArg (fun C => { t with ctxs := C }) hset

/-- The state with other memory. -/
def State.stored (s : State) (M : List Host.Cell) (L : Tab Bool) : State := { s with mem := M, poisonLines := L }

theorem regAt_withCtx (s : State) (c : Nat) (x : CtxCore) (k : Nat) : (s.withCtx c x).regAt k = s.regAt k := rfl

theorem context_notMem_reportKeys (c : Ctx) {j : Nat} (hj : j < 256) : rk (0x2700 + c) j ∉ reportKeys := by
  simp only [reportKeys, rk, List.mem_cons, List.not_mem_nil, or_false]
  omega

section complete

variable {s : State} (hs : s.Canonical) {c : Ctx} {p code : Nat} {d : ActiveDesc} (hactive : (s.ctx c).active = [d]) (hnum : d.num = p)
  (hrecords : (s.ctx c).records = []) (hcompleted : s.reg (0x2700 + c) 0x08 = p) (hwritable : s.recordWritable c p = true)
  (haligned : s.recordAddr c p % 16 = 0) (hlive : s.retiredLine (s.recordAddr c p / 64) = false)

/-- The bytes of a completion record (Table 10-3). -/
def State.recordBytes (s : State) (d : ActiveDesc) (code : Nat) : List Byte :=
  toBytes 8 (s.recordWords d code).1 ++ toBytes 8 (s.recordWords d code).2

theorem length_recordBytes (s : State) (d : ActiveDesc) (code : Nat) : (s.recordBytes d code).length = 16 := by simp [State.recordBytes]

/-- The context's own state while the record `rs` of its one descriptor is being written. -/
def State.recording (s : State) (c : Nat) (rs : List Nat) : CtxCore := { s.ctx c with active := [], records := rs }

/-- The number and the interrupt bit of a written descriptor. -/
def writtenMark (d : ActiveDesc) : Nat := d.num * 2 + (if bit (d.words.headD 0) 56 then 1 else 0)

theorem writtenMark_div (d : ActiveDesc) : writtenMark d / 2 = d.num := by
  unfold writtenMark
  split <;> omega

include hs hcompleted in
/-- A written record counts, and the completed count passes it. -/
theorem run_recordWritten {q : Nat} (hq : (p + 1) % 2 ^ 32 = q) (hd : writtenMark d / 2 = p) (M : List Host.Cell) (L : Tab Bool) : ∃ u,
    (all [whenP (decide (code ≠ 0)) (count32 (0x2700 + c) 0x0C 1), progress c, .look fun t => advanceCompleted c (t.ctx c).records.length]).run
      ((s.withCtx c (s.recording c [writtenMark d])).stored M L) = ((s.withCtx c (s.recording c [])).stored M L).reported u ∧
    u.reg (0x2700 + c) 0x08 = q ∧
    u.reg (0x2700 + c) 0x0C = if code = 0 then s.reg (0x2700 + c) 0x0C else satAdd 32 (s.reg (0x2700 + c) 0x0C) 1 := by
  obtain ⟨R, hfailed, hsorted, hreg⟩ := bump_counts (s := (s.withCtx c (s.recording c [writtenMark d])).stored M L) hs.regs
    (decide (code ≠ 0)) 32 (0x2700 + c) 0x0C 1
  let v := ((s.withCtx c (s.recording c [writtenMark d])).stored M L).withRegisters R
  let w := (progress c).run v
  have hkept : ∀ k, k ≠ rk (0x2700 + c) 0x36 → w.regAt k = Tab.get (regDefault k) R k := fun k hk => regAt_setReg_of_ne hk v
  have hctx : w.ctx c = s.recording c [writtenMark d] := ctx_withCtx_self hs ..
  have hat : w.reg (0x2700 + c) 0x08 = p := (hkept _ (rk_sub_ne (by decide) (by decide) (by decide))).trans
    ((hreg _).trans ((if_neg fun h => rk_sub_ne (by decide) (by decide) (by decide) h.2).trans hcompleted))
  have hadvance := run_advanceCompleted_one (s := w) (c := c) (congrArg CtxCore.records hctx) (hd.trans hat.symm)
  rw [hctx, hat, hq] at hadvance
  have hdone := regAt_setReg (run_sorted (progress c) (s := v) hsorted) (0x2700 + c) 0x08 q
  have hcleared := withCtx_of_ctxs hs (t := (setReg (0x2700 + c) 0x08 q).run w) (c := c)
    (x := s.recording c [writtenMark d]) rfl (s.recording c [])
  obtain ⟨u, hmsix, hkeep⟩ := run_isReport (p := whenP (writtenMark d % 2 == 1) (sendMsix c)) (by simp [every_sendMsix])
    (((setReg (0x2700 + c) 0x08 q).run w).withCtx c (s.recording c []))
  simp only [regAt_withCtx] at hkeep
  refine ⟨u, ?_, (hkeep _ (context_notMem_reportKeys c (by decide))).trans ((hdone _).trans (if_pos rfl)), ?_⟩
  · rw [run_all_cons, run_all_cons, run_all_cons, run_all_nil]
    change (Prog.look _).run ((progress c).run ((whenP _ (bump _ _ _ _)).run _)) = _
    rw [hfailed]
    change (Prog.look _).run w = _
    rw [run_look, hctx]
    exact hadvance.trans (hmsix.trans (hcleared ▸ rfl))
  · refine (hkeep _ (context_notMem_reportKeys c (by decide))).trans ((hdone _).trans ((if_neg (rk_sub_ne (by decide) (by decide) (by decide))).trans
      ((hkept _ (rk_sub_ne (by decide) (by decide) (by decide))).trans ((hreg _).trans ?_))))
    by_cases hcode : code = 0 <;> simp [hcode] <;> rfl

include hs hactive hnum hrecords hcompleted hwritable haligned hlive

/-- The record of the one active descriptor is written, and the completed count passes it. -/
theorem writeRecord_writes : ∃ u M L, (writeRecord c d code).run s = ((s.withCtx c (s.recording c [])).stored M L).reported u ∧
    s.wrote (s.stored M L) (s.recordAddr c p) (s.recordBytes d code) ∧ u.reg (0x2700 + c) 0x08 = (p + 1) % 2 ^ 32 ∧
    u.reg (0x2700 + c) 0x0C = if code = 0 then s.reg (0x2700 + c) 0x0C else satAdd 32 (s.reg (0x2700 + c) 0x0C) 1 := by
  subst hnum
  obtain ⟨-, hdump⟩ := Bool.and_eq_true_iff.mp hwritable
  have hdump : touchesDump (s.recordAddr c d.num) 16 = false := by simpa using hdump
  obtain ⟨M, L, hput, hwrote⟩ := hbmPut_stores (canonical_withCtx hs c (s.recording c [])) (s.recordAddr c d.num) (s.recordBytes d code)
    false (by rw [length_recordBytes, linesOf_record haligned]; exact List.forall_mem_singleton.mpr hlive)
  have hput : _ = (s.withCtx c (s.recording c [])).stored M L := hput
  obtain ⟨u, hrest, hcounts⟩ := run_recordWritten hs (code := code) hcompleted rfl (writtenMark_div d) M L
  refine ⟨u, M, L, ?_, hwrote, hcounts⟩
  have hcleared : (modCtx c fun x => { x with active := x.active.filter fun e => decide (e.num ≠ d.num) }).run s = s.withCtx c (s.recording c []) := by
    rw [run_modCtx, State.recording, hactive, ← hrecords]
    simp
  have hmarked : (modCtx c fun x => { x with records := x.records ++ [writtenMark d] }).run ((s.withCtx c (s.recording c [])).stored M L) =
      (s.withCtx c (s.recording c [writtenMark d])).stored M L :=
    congrArg (State.stored · M L) (run_modCtx_withCtx hs c (fun x => { x with records := x.records ++ [writtenMark d] }) (s.recording c []))
  rw [writeRecord, run_look, run_all_cons, hcleared, run_all_cons, engineDump, hdump, run_all_cons, run_all_nil, hwritable]
  simp only [run_whenP, if_true, Bool.false_eq_true, if_false, run_all_cons (p := hbmPut _ _ _)]
  change (all _).run ((modCtx c fun x => { x with records := x.records ++ [writtenMark d] }).run
    ((hbmPut (s.recordAddr c d.num) (s.recordBytes d code) false).run _)) = _
  rw [hput, hmarked]
  exact hrest

/-- The only active descriptor, once it has ended, completes. -/
theorem descriptorComplete_writes (hruns : s.ctxRuns c = true) (hengine : s.engineUp c = true) (hstatus : d.status = some code)
    (hwaits : s.hbmWaits (s.recordAddr c p) 16 = false) : ∃ t, exec (.descriptorComplete c p false) s = .next t ∧
      t.bytesAt (s.recordAddr c p) 16 = s.recordBytes d code ∧
      (∀ a, a < s.recordAddr c p ∨ s.recordAddr c p + 16 ≤ a → readByte t.mem a = readByte s.mem a) ∧
      (t.ctx c).active = [] ∧ t.reg (0x2700 + c) 0x08 = (p + 1) % 2 ^ 32 ∧
      t.reg (0x2700 + c) 0x0C = (if code = 0 then s.reg (0x2700 + c) 0x0C else satAdd 32 (s.reg (0x2700 + c) 0x0C) 1) ∧
      t = { s.reported t with mem := t.mem, poisonLines := t.poisonLines, ctxs := t.ctxs } ∧ s.ctxsBut t c := by
  obtain ⟨u, M, L, hrecord, ⟨hbytes, hothers⟩, hcompleted', hfailed⟩ :=
    writeRecord_writes (code := code) hs hactive hnum hrecords hcompleted hwritable haligned hlive
  rw [length_recordBytes] at hbytes hothers
  obtain ⟨hctx, hbut⟩ := ctxsBut_of_ctxs hs (c := c) (x := s.recording c []) (t := ((s.withCtx c (s.recording c [])).stored M L).reported u) rfl
  have hfind : (s.ctx c).active.find? (fun d => decide (d.num = p) && d.status.isSome) = some d := by
    rw [hactive]
    simp [hnum, hstatus]
  have hsettled : ∀ e ∈ ((((s.withCtx c (s.recording c [])).stored M L).reported u).ctx c).active,
      e.started = true ∨ e.status.isSome = true ∨ dMalformed e = false := by
    rw [hctx]
    exact fun e he => absurd he List.not_mem_nil
  have hrun : (completeProg c p false).run s = ((s.withCtx c (s.recording c [])).stored M L).reported u := by
    simp only [completeProg, run_look, hruns, hengine, hwaits, hwritable, hfind, hstatus, Bool.not_false, Bool.not_true, Bool.and_self,
      Bool.or_self, Bool.false_eq_true, run_whenP, if_true, if_false, run_withP_some, run_all_cons, run_all_nil, Option.getD_some, hrecord,
      run_settle_of_sound hsettled]
  exact ⟨_, congrArg Host.Outcome.next hrun, hbytes, hothers, congrArg CtxCore.active hctx, hcompleted', hfailed, rfl, hbut⟩

end complete

/-- Settles O15: the fetch adds the descriptor last, and the one descriptor that has ended leaves with its record. -/
theorem descriptorFetchAndCompletion : Obligations.DescriptorFetchAndCompletion := by
  intro s c p hs hruns hengine
  refine ⟨fun hfetched hposted hroom hserves hdump hbad hwaits hearlier d hd =>
      descriptorFetch_fetches hs hruns hengine hfetched hposted hroom hserves hdump hbad hwaits hearlier hd,
    fun d code hactive hnum hstatus hrecords hcompleted hwritable haligned hlive hwaits => ?_⟩
  exact descriptorComplete_writes hs hactive hnum hrecords hcompleted hwritable haligned hlive hruns hengine hstatus hwaits

end Sys2Proof.Machine

/-! SUPPORT. Wait-idle (O20; R287, R362), and the flag-map writes, which fail where a path's selector reaches outside the map (O19; R283). -/

namespace Sys2Proof.Machine

open Sys2Proof

/-! ## Wait-idle (R287, R362) -/

theorem idleAt_set {s : State} (h : s.Canonical) (n v m : Nat) :
    ({ s with idle := Tab.set 0 s.idle n v } : State).idleAt m = if m = n then v else s.idleAt m := Tab.get_set h.idle.1 ..

/-- A site whose case has held for the threshold enters wait-idle. -/
theorem waitIdleEnter_enters {s : State} (hs : s.Canonical) {n : Site} {beats : Nat} (hon : s.reg 0x2800 0x02 = 1)
    (hlong : s.reg 0x2800 0x01 ≤ beats) (hout : s.idleAt n = 0) (hcase : s.idleCase n = true) :
    ∃ t, exec (.waitIdleEnter n beats) s = .next t ∧
      t.idleAt n = (if s.offerHeld n = true ∨ s.powerHeld (siteField n) = true then 2 else 1) ∧
      t.reg (0x3000 + n) 0x92 = satAdd 32 (s.reg (0x3000 + n) 0x92) 1 ∧ t = { s with idle := t.idle, regs := t.regs } ∧
      (∀ m, m ≠ n.val → t.idleAt m = s.idleAt m) ∧ ∀ k, k ≠ rk (0x3000 + n) 0x92 → t.regAt k = s.regAt k := by
  let v := if s.offerHeld n || s.powerHeld (siteField n) then 2 else 1
  let u : State := { s with idle := Tab.set 0 s.idle n v }
  have hrun : (idleEnterProg n beats).run s = (count32 (0x3000 + n) 0x92 1).run u := by
    simp [idleEnterProg, hon, hlong, hout, hcase, u, v, Eff.apply]
  have hreg := regAt_bump (s := u) hs.regs 32 (0x3000 + n) 0x92 1
  refine ⟨_, congrArg Host.Outcome.next hrun, (idleAt_set hs ..).trans ((if_pos rfl).trans ?_), (hreg _).trans (if_pos rfl), rfl,
    fun m hm => (idleAt_set hs ..).trans (if_neg hm), fun k hk => (hreg k).trans (if_neg hk)⟩
  simp only [v, Bool.or_eq_true]

/-- A site whose case no longer holds leaves wait-idle, and its next offer is held. -/
theorem waitIdleExit_leaves {s : State} (hs : s.Canonical) {n : Site} {beats : Nat} (hin : s.idleAt n ≠ 0) (hcase : s.idleCase n = false)
    (hhold : s.reg 0x2210 0x03 ≠ 0) : ∃ t, exec (.waitIdleExit n beats) s = .next t ∧
      t.idleAt n = 0 ∧ t.offerHeld n = true ∧ t.reg (0x3000 + n) 0x93 = satAdd 64 (s.reg (0x3000 + n) 0x93) beats ∧
      t = { s with idle := t.idle, regs := t.regs, offerHold := t.offerHold } ∧
      (∀ m, m ≠ n.val → t.idleAt m = s.idleAt m) ∧ ∀ k, k ≠ rk (0x3000 + n) 0x93 → t.regAt k = s.regAt k := by
  let u : State := { s with idle := Tab.set 0 s.idle n 0 }
  have hrun : (idleExitProg n beats).run s = (Eff.offerHold n true).apply ((count64 (0x3000 + n) 0x93 beats).run u) := by
    simp [idleExitProg, hin, hcase, hhold, u, Eff.apply]
  have hreg := regAt_bump (s := u) hs.regs 64 (0x3000 + n) 0x93 beats
  exact ⟨_, congrArg Host.Outcome.next hrun, (idleAt_set hs ..).trans (if_pos rfl), (Tab.get_set hs.offerHold.1 ..).trans (if_pos rfl),
    (hreg _).trans (if_pos rfl), rfl, fun m hm => (idleAt_set hs ..).trans (if_neg hm), fun k hk => (hreg k).trans (if_neg hk)⟩

/-- Settles O20: each command changes the site's entry of the table and one counter. -/
theorem waitIdleCounts : Obligations.WaitIdleCounts := fun _ _ _ hs => ⟨waitIdleEnter_enters hs, waitIdleExit_leaves hs⟩

/-! ## Flag-map writes (R276, R283) -/

/-- A device on which the selector of the JTAG path for context 0's map stands at 4096, one past the map: the entry that it names is the
first of context 1's map, which is valid. -/
def selectorBeyond : State := { State.reset with
  selectors := [(pathNo .jtag * 2 ^ 32 + rk 0x2840 0x02, 4096)]
  fmap := [(4096, 2 ^ 63)]
  booted := true }

/-- Refutes O19: in `selectorBeyond` the write that invalidates the selected entry asks for its rebind, but the model takes a wait of index
4096 for the abort of a domain write, so the path is answered at once and no wait is left. -/
theorem not_flagMapWrites : ¬ Obligations.FlagMapWrites := by
  intro h
  have hcanon : selectorBeyond.Canonical := by constructor <;> decide +kernel
  obtain ⟨hentry, -⟩ := h selectorBeyond .jtag 0 hcanon (by decide +kernel) rfl
  obtain ⟨t, hexec, -, -, -, hwaits, -⟩ := hentry 0 4096 (by decide +kernel) (by decide +kernel) (by decide +kernel) (by decide +kernel)
    (by decide +kernel) (by decide +kernel)
  obtain rfl : _ = t := Host.Outcome.next.inj hexec
  revert hwaits
  decide +kernel

end Sys2Proof.Machine

/-! SUPPORT. A context's open, its close and the writes of its doorbell page (O14; R252 to R256, R319). -/

namespace Sys2Proof.Machine

open Sys2Proof

/-! ## Several scalars of one object -/

/-- Writes scalars of object `i`, each a subindex with its value, in order. -/
def setRegs (i : Nat) (ws : List (Nat × Nat)) : Prog := eachP ws fun w => setReg i w.1 w.2

/-- Writes of scalars with subindices that differ leave each its value, and the other scalars. -/
theorem setRegs_writes {s : State} (h : s.Sorted) (i : Nat) {ws : List (Nat × Nat)} (hws : (ws.map Prod.fst).Nodup) :
    ∃ R, (setRegs i ws).run s = s.withRegisters R ∧ (∀ w ∈ ws, (s.withRegisters R).regAt (rk i w.1) = w.2) ∧
      ∀ k, (∀ j ∈ ws.map Prod.fst, k ≠ rk i j) → (s.withRegisters R).regAt k = s.regAt k := by
  induction ws generalizing s with
  | nil => exact ⟨s.regs, rfl, fun _ hw => absurd hw List.not_mem_nil, fun _ _ => rfl⟩
  | cons w ws ih =>
    obtain ⟨hw, hws⟩ := List.nodup_cons.mp hws
    obtain ⟨R, hrun, hvalues, hothers⟩ := ih (run_sorted (setReg i w.1 w.2) h) hws
    refine ⟨R, hrun, fun x hx => ?_, fun k hk => ?_⟩
    · rcases List.mem_cons.mp hx with rfl | hx
      · refine (hothers _ fun j hj hkey => hw ?_).trans ((regAt_setReg h ..).trans (if_pos rfl))
        have : x.1 = j := by unfold rk at hkey; omega
        exact this ▸ hj
      · exact hvalues x hx
    · exact (hothers k fun j hj => hk j (List.mem_cons_of_mem _ hj)).trans (regAt_setReg_of_ne (hk _ (List.mem_cons_self ..)) s)

/-! ## Open (R253) -/

theorem run_ctxs (c : Nat) (x : CtxCore) (s : State) : (Prog.eff (.ctxs c x)).run s = s.withCtx c x := rfl

theorem withCtx_setReg (i j v c : Nat) (x : CtxCore) (s : State) :
    ((setReg i j v).run s).withCtx c x = (setReg i j v).run (s.withCtx c x) := rfl

/-- The command object of a context is there in every step of the bring-up. -/
theorem contextCommand_available (c : Ctx) (s : State) (b : Bool) : s.available (0x2700 + c) 0x02 b = true :=
  available_of_sourceStep ((by decide : ∀ c : Ctx, sourceStep (0x2700 + c) 0x02 = 0) c) s b

/-- A command whose effect writes scalars and contexts' own states alone leaves the rest but for the answer. -/
theorem answered_regs_ctxs {s u t : State} (h : t = u.answered t) (hu : u = { s with regs := u.regs, ctxs := u.ctxs }) :
    t = { s.answered t with regs := t.regs, ctxs := t.ctxs } := by
  have hr : t.regs = (u.answered t).regs := congrArg State.regs h
  have hc : t.ctxs = (u.answered t).ctxs := congrArg State.ctxs h
  rw [hu] at h hr hc
  rw [hr, hc]; exact h

/-- What an open writes. -/
theorem run_openCommand (c : Ctx) (s : State) : ∃ v, (openCommand c).effect.run s =
    (setRegs (0x2700 + c) [(0x06, 0), (0x08, 0), (0x09, 0), (0x36, 0), (0x37, v), (0x01, 1)]).run (s.withCtx c {}) := by
  simp only [openCommand, setRegs, run_all_cons, run_all_nil, run_look, run_eachP_cons, run_eachP_nil]
  rw [run_ctxs, withCtx_setReg, withCtx_setReg, withCtx_setReg]
  exact ⟨_, rfl⟩

/-- An open gives the context its first state, and its counts 0. -/
theorem contextOpen_opens {s : State} {c : Ctx} {p : Path} (hs : s.Canonical) (hserves : s.serves p = true) (hup : s.controllerDown = false)
    (hmay : s.mayOpen c = true) : ∃ t, exec (.contextOpen p c) s = .next t ∧ t.reg (0x2700 + c) 0x01 = 1 ∧
      t.reg (0x2700 + c) 0x06 = 0 ∧ t.reg (0x2700 + c) 0x08 = 0 ∧ t.reg (0x2700 + c) 0x09 = 0 ∧ t.ctx c = {} ∧
      t.out = s.out ++ [.dictDone p 0 0] ∧ t = { s.answered t with regs := t.regs, ctxs := t.ctxs } ∧ s.ctxsBut t c ∧
      ∀ k, (∀ j ∈ [0x01, 0x06, 0x08, 0x09, 0x36, 0x37], k ≠ rk (0x2700 + c) j) → t.regAt k = s.regAt k := by
  obtain ⟨v, heffect⟩ := run_openCommand c s
  obtain ⟨R, hrun, hvalues, hothers⟩ := setRegs_writes (canonical_withCtx hs c {}).regs (0x2700 + c)
    (ws := [(0x06, 0), (0x08, 0), (0x09, 0), (0x36, 0), (0x37, v), (0x01, 1)]) (by simp)
  have hcode : (openCommand c).code s (0x2700 + c) 0x02 = 0 := Command.code_zero hup rfl (contextCommand_available c s _) hmay
  obtain ⟨ht, hout⟩ := command_accepted hserves hcode rfl
  rw [heffect.trans hrun] at ht hout
  obtain ⟨hctx, hbut⟩ := ctxsBut_of_ctxs hs (c := c) (x := {}) (congrArg State.ctxs ht :)
  have hreg := fun k => answered_regAt ht k
  simp only [List.forall_mem_cons, List.not_mem_nil, false_imp_iff, implies_true, and_true] at hvalues
  obtain ⟨h06, h08, h09, -, -, h01⟩ := hvalues
  exact ⟨_, rfl, (hreg _).trans h01, (hreg _).trans h06, (hreg _).trans h08, (hreg _).trans h09, hctx, hout, answered_regs_ctxs ht rfl, hbut,
    fun k hk => (hreg k).trans (hothers k fun j hj => hk j (by simp at hj ⊢; omega))⟩

/-! ## Doorbells (R256, R319) -/

theorem ofBytes_lt (bs : List Byte) : ofBytes bs < 256 ^ bs.length := by
  induction bs with
  | nil => simp [ofBytes]
  | cons b bs ih =>
    have hb : b.toNat < 256 := b.isLt
    rw [ofBytes, List.length_cons, Nat.pow_succ]
    omega

/-- The count that 4 bytes spell. -/
theorem doorbell_lt {bs : List Byte} {v : Nat} (hlen : bs.length = 4) (hv : ofBytes bs = v) : v < 2 ^ 32 := by
  have hlt := ofBytes_lt bs
  rw [hlen, hv] at hlt
  exact hlt

section doorbell

variable {s : State} {c : Ctx} {h : HostPort} (hserves : s.serves (hostPath h) = true) (hactive : s.isActivePort h = true)

include hserves hactive

/-- A doorbell write rings at the queue engine that works. -/
theorem run_doorbell {bs : List Byte} {v : Nat} (hreset : s.computeReset = false) (hengine : s.engineUp c = true) (hlen : bs.length = 4)
    (hv : ofBytes bs = v) : exec (.doorbell h c 0 bs) s = .next ((ringDoorbell c v).run s) := by
  refine congrArg Host.Outcome.next ?_
  simp only [doorbellProg, run_look, hserves, hactive, hreset, hengine, hlen, hv, run_whenP]
  simp

/-- A count within the bound is posted. -/
theorem doorbell_posts (hs : s.Canonical) {bs : List Byte} {v : Nat} (hreset : s.computeReset = false) (hengine : s.engineUp c = true)
    (hlen : bs.length = 4) (hv : ofBytes bs = v) (hruns : s.ctxRuns c = true)
    (hahead : (v + 2 ^ 32 - s.reg (0x2700 + c) 0x06) % 2 ^ 32 ≤ 2 ^ s.reg (0x2700 + c) 0x05) :
    ∃ t, exec (.doorbell h c 0 bs) s = .next t ∧ t.reg (0x2700 + c) 0x09 = v ∧ t = { s with regs := t.regs } ∧
      ∀ k, k ≠ rk (0x2700 + c) 0x09 → t.regAt k = s.regAt k := by
  have hsmall := Nat.mod_eq_of_lt (doorbell_lt hlen hv)
  have hring : (ringDoorbell c v).run s = (setReg (0x2700 + c) 0x09 v).run s := by
    rw [ringDoorbell, run_look]
    simp only [hsmall, hruns, hahead, decide_true, Bool.and_self, if_true]
  have hreg := regAt_setReg hs.regs (0x2700 + c) 0x09 v
  exact ⟨_, (run_doorbell hserves hactive hreset hengine hlen hv).trans (congrArg Host.Outcome.next hring), (hreg _).trans (if_pos rfl),
    setReg_frame .., fun k hk => (hreg k).trans (if_neg hk)⟩

/-- A count outside the bound, or one for a context that does not run, is reported. -/
theorem doorbell_reports {bs : List Byte} {v : Nat} (hreset : s.computeReset = false) (hengine : s.engineUp c = true)
    (hlen : bs.length = 4) (hv : ofBytes bs = v)
    (hbad : s.ctxRuns c = false ∨ 2 ^ s.reg (0x2700 + c) 0x05 < (v + 2 ^ 32 - s.reg (0x2700 + c) 0x06) % 2 ^ 32) :
    ∃ t, exec (.doorbell h c 0 bs) s = .next t ∧ t = s.reported t ∧ s.scalarsBut [] t := by
  have hsmall := Nat.mod_eq_of_lt (doorbell_lt hlen hv)
  have hcond : (s.ctxRuns c && decide ((v + 2 ^ 32 - s.reg (0x2700 + c) 0x06) % 2 ^ 32 ≤ 2 ^ s.reg (0x2700 + c) 0x05)) = false := by
    rcases hbad with hstopped | hahead
    · rw [hstopped]; rfl
    · rw [decide_eq_false (Nat.not_le.mpr hahead), Bool.and_false]
  have hring : (ringDoorbell c v).run s = (report 0x8002 2 (queueDie c) c v).run s := by
    rw [ringDoorbell, run_look]
    simp only [hsmall, hcond, Bool.false_eq_true, if_false]
  obtain ⟨ht, hkeep⟩ := report_step 0x8002 2 (queueDie c) c v s
  exact ⟨_, (run_doorbell hserves hactive hreset hengine hlen hv).trans (congrArg Host.Outcome.next hring), ht, fun k _ hk => hkeep k hk⟩

/-- Any other write of the page is dropped and counted. -/
theorem doorbell_drops (hs : s.Canonical) {off : Fin 4096} {bs : List Byte} (hbad : off ≠ 0 ∨ bs.length ≠ 4) :
    ∃ t, exec (.doorbell h c off bs) s = .next t ∧ t.reg 0x2E10 0x09 = satAdd 64 (s.reg 0x2E10 0x09) 1 ∧ t = { s with regs := t.regs } ∧
      ∀ k, k ≠ rk 0x2E10 0x09 → t.regAt k = s.regAt k := by
  have hcond : (s.computeReset || !decide ((off : Nat) = 0 ∧ bs.length = 4)) = true := by
    have : ¬((off : Nat) = 0 ∧ bs.length = 4) := fun hand => hbad.elim (fun h => h (Fin.ext hand.1)) fun h => h hand.2
    rw [decide_eq_false this]; simp
  have hrun : (doorbellProg h c off bs).run s = (count64 0x2E10 0x09 1).run s := by
    simp only [doorbellProg, run_look, hserves, hactive, hcond, run_whenP, if_true, Bool.not_true, Bool.false_eq_true, if_false]
    rfl
  have hreg := regAt_bump hs.regs 64 0x2E10 0x09 1
  exact ⟨_, congrArg Host.Outcome.next hrun, (hreg _).trans (if_pos rfl), rfl, fun k hk => (hreg k).trans (if_neg hk)⟩

end doorbell

/-! ## What a close frees (R254) -/

/-- The fields that no stop of a section and no rebind touches. -/
def freedFields : List Field := [.mem, .cells, .ctxs, .entryWaits, .plans, .fmap]

/-- An effect on none of the fields that a close keeps, nor on plans and the flag map. -/
def Eff.isFree (e : Eff) : Bool := decide (e.field ∉ freedFields)

@[simp] theorem Eff.isFree_of_field {e : Eff} (h : e.field ∉ freedFields) : e.isFree = true := decide_eq_true h

theorem isFree_of_isReport (e : Eff) (h : e.isReport = true) : e.isFree = true :=
  Eff.isFree_of_field (Eff.field_notMem_of_spares (spares_of_isReport (fs := freedFields) (sub := 1) (by decide) (by decide) e h))

@[simp] theorem every_report_isFree (code kind num a1 a2 : Nat) : (report code kind num a1 a2).Every fun e => e.isFree = true :=
  every_mono isFree_of_isReport (every_report code kind num a1 a2)

@[simp] theorem every_setReg_isFree (i j v : Nat) : (setReg i j v).Every fun e => e.isFree = true := by
  simp [setReg, freedFields]

@[simp] theorem every_setSlotState_isFree (n k v : Nat) : (setSlotState n k v).Every fun e => e.isFree = true := by
  simp [setSlotState]

@[simp] theorem every_dropDispute_isFree (n : Nat) : (dropDispute n).Every fun e => e.isFree = true := by
  simp [dropDispute, count64, bump, freedFields]

theorem every_stopTile_isFree (n : Nat) : (stopTile n).Every fun e => e.isFree = true := by
  intro s
  dsimp only
  split
  · trivial
  · simp [modBond, modM, modF, modS, freedFields]

theorem every_sendRebind_isFree (c i gen n : Nat) : (sendRebind c i gen n).Every fun e => e.isFree = true := by
  unfold sendRebind sendFlag
  split <;> simp [freedFields]

/-- What such effects leave. -/
structure FreeStep (s t : State) : Prop where
  mem : t.mem = s.mem
  cells : t.cells = s.cells
  ctxs : t.ctxs = s.ctxs
  entryWaits : t.entryWaits = s.entryWaits

theorem FreeStep.refl (s : State) : FreeStep s s := ⟨rfl, rfl, rfl, rfl⟩

theorem FreeStep.trans {s m t : State} (h₁ : FreeStep s m) (h₂ : FreeStep m t) : FreeStep s t :=
  ⟨h₂.mem.trans h₁.mem, h₂.cells.trans h₁.cells, h₂.ctxs.trans h₁.ctxs, h₂.entryWaits.trans h₁.entryWaits⟩

theorem Eff.keeps_entryWaits {e : Eff} (h : e.field ≠ .entryWaits) (s : State) : (e.apply s).entryWaits = s.entryWaits := by
  cases e <;> first | rfl | exact absurd rfl h

theorem Eff.keeps_plans {e : Eff} (h : e.field ≠ .plans) (s : State) : (e.apply s).plans = s.plans := by
  cases e <;> first | rfl | exact absurd rfl h

theorem Eff.keeps_fmap {e : Eff} (h : e.field ≠ .fmap) (s : State) : (e.apply s).fmap = s.fmap := by
  cases e <;> first | rfl | exact absurd rfl h

/-- A program of such effects leaves what they leave, the plans and the flag map. -/
theorem run_isFree {p : Prog} (hp : p.Every fun e => e.isFree = true) (s : State) :
    FreeStep s (p.run s) ∧ (p.run s).plans = s.plans ∧ (p.run s).fmap = s.fmap := by
  have hne : ∀ e : Eff, e.isFree = true → ∀ f ∈ freedFields, e.field ≠ f := fun e he f hf hef => of_decide_eq_true he (hef ▸ hf)
  refine ⟨⟨?_, ?_, ?_, ?_⟩, ?_, ?_⟩
  · exact run_keeps hp (fun e s he => Eff.keeps_mem (hne e he _ (by decide)) s) s
  · exact run_keeps hp (fun e s he => Eff.keeps_cells (hne e he _ (by decide)) s) s
  · exact run_keeps hp (fun e s he => Eff.keeps_ctxs (hne e he _ (by decide)) s) s
  · exact run_keeps hp (fun e s he => Eff.keeps_entryWaits (hne e he _ (by decide)) s) s
  · exact run_keeps hp (fun e s he => Eff.keeps_plans (hne e he _ (by decide)) s) s
  · exact run_keeps hp (fun e s he => Eff.keeps_fmap (hne e he _ (by decide)) s) s

/-- Emptying slots takes their plans and no other. -/
theorem run_emptySlotOfs {ks : List Nat} {s : State} (h : s.Canonical) :
    FreeStep s ((eachP ks fun k => emptySlotOf (k / 4) (k % 4)).run s) ∧
      ∀ k, ((eachP ks fun k => emptySlotOf (k / 4) (k % 4)).run s).planAt k = if k ∈ ks then none else s.planAt k := by
  induction ks generalizing s with
  | nil => exact ⟨.refl s, fun _ => rfl⟩
  | cons j ks ih =>
    let u : State := { s with plans := Tab.set none s.plans (j / 4 * 4 + j % 4) none }
    have hslot : (emptySlotOf (j / 4) (j % 4)).run s = (withP (s.siteOf (j / 4)) fun n => setSlotState n (j % 4) 0).run u := rfl
    have hfree : (withP (s.siteOf (j / 4)) fun n => setSlotState n (j % 4) 0).Every fun e => e.isFree = true := by
      cases s.siteOf (j / 4) <;> simp [withP]
    obtain ⟨hstep, hplans, -⟩ := run_isFree hfree u
    obtain ⟨hrest, hothers⟩ := ih (run_canonical (emptySlotOf (j / 4) (j % 4)) h)
    rw [hslot] at hrest hothers
    have hstep : FreeStep s ((withP (s.siteOf (j / 4)) fun n => setSlotState n (j % 4) 0).run u) :=
      ⟨hstep.mem, hstep.cells, hstep.ctxs, hstep.entryWaits⟩
    refine ⟨by rw [run_eachP_cons, hslot]; exact hstep.trans hrest, fun k => ?_⟩
    rw [run_eachP_cons, hslot, hothers]
    have hj : j / 4 * 4 + j % 4 = j := by omega
    have hat : ((withP (s.siteOf (j / 4)) fun n => setSlotState n (j % 4) 0).run u).planAt k = if k = j then none else s.planAt k := by
      unfold State.planAt
      rw [hplans, ← hj]
      exact Tab.get_set h.plans.1 ..
    rw [hat]
    by_cases hk : k = j <;> simp [hk]

/-- The keys of a context's slots are those that `emptySlots` takes. -/
theorem run_emptySlots_eq (s : State) (c : Nat) : ∃ ks : List Nat, (emptySlots c).run s = (eachP ks fun k => emptySlotOf (k / 4) (k % 4)).run s ∧
    ∀ k x, (k, some x) ∈ s.plans → x.ctx = c → k ∈ ks :=
  ⟨_, rfl, fun k _ hmem hx => List.mem_map.mpr ⟨(k, _), List.mem_filter.mpr ⟨hmem, decide_eq_true hx⟩, rfl⟩⟩

/-- An entry that is not the default stands in the table. -/
theorem mem_of_get_ne {α : Type} {d : α} {t : Tab α} (ht : t.Pairwise fun a b => a.1 < b.1) {k : Nat} {v : α} (h : Tab.get d t k = v)
    (hne : v ≠ d) : (k, v) ∈ t := by
  by_contra hmem
  refine hne (h.symm.trans (get_of_notMem fun w hw => hmem ?_))
  exact (h.symm.trans (get_of_mem ht hw)) ▸ hw

/-- A context's slots, once emptied, leave no plan of it. -/
theorem run_emptySlots {s : State} (h : s.Canonical) (c : Nat) : FreeStep s ((emptySlots c).run s) ∧
    ∀ k x, ((emptySlots c).run s).planAt k = some x → x.ctx ≠ c := by
  obtain ⟨ks, hrun, hks⟩ := run_emptySlots_eq s c
  obtain ⟨hstep, hplan⟩ := run_emptySlotOfs (ks := ks) h
  rw [hrun]
  refine ⟨hstep, fun k x hx hc => ?_⟩
  rw [hplan] at hx
  split at hx
  · exact absurd hx (Option.some_ne_none x).symm
  · next hk => exact hk (hks k x (mem_of_get_ne h.plans.1 hx (Option.some_ne_none x)) hc)

/-- What freeing a context leaves, and that no plan and no entry of its map is left. -/
theorem run_freeResources {s : State} (h : s.Canonical) (c : Nat) : FreeStep s ((freeResources c).run s) ∧
    (∀ k x, ((freeResources c).run s).planAt k = some x → x.ctx ≠ c) ∧
    ∀ i, i < 4096 → ((freeResources c).run s).entryAt (c * 4096 + i) = 0 := by
  let stops := eachP (s.sectionSites c) stopTile
  let rest := all [eachP (s.ctxEntries c) fun e => withP (s.siteOf (fmTile e.2)) fun n => sendRebind c e.1 (fmGen e.2) n,
    .eff (.snaps c none), withState fun t => .onceUsed (t.onceUsed.filter fun e => decide (e.2.1 ≠ c))]
  have hstops : stops.Every fun e => e.isFree = true := by
    simp [stops, every_stopTile_isFree]
  have hrest : rest.Every fun e => e.isFree = true := by
    simp [rest, every_sendRebind_isFree, freedFields]
  let u := (emptySlots c).run (stops.run s)
  let v : State := { u with fmap := Tab.drop u.fmap (c * 4096) (c * 4096 + 4096) }
  have hrun : (freeResources c).run s = rest.run v := rfl
  obtain ⟨hstep₁, -, -⟩ := run_isFree hstops s
  obtain ⟨hstep₂, hplans⟩ := run_emptySlots (run_canonical stops h) c
  obtain ⟨hstep₃, hplans₃, hfmap₃⟩ := run_isFree hrest v
  have hstep₃ : FreeStep u (rest.run v) := ⟨hstep₃.mem, hstep₃.cells, hstep₃.ctxs, hstep₃.entryWaits⟩
  rw [hrun]
  refine ⟨(hstep₁.trans hstep₂).trans hstep₃, fun k x hx => hplans k x ?_, fun i hi => ?_⟩
  · rw [← hx]
    exact congrArg (fun T => Tab.get none T k) hplans₃.symm
  · refine (congrArg (fun T => Tab.get 0 T (c * 4096 + i)) hfmap₃).trans ((Tab.get_drop ..).trans (if_pos ?_))
    omega

/-! ## The answer of a path whose rebinds are applied (R283) -/

/-- While no abort waits, the path is answered when nothing of it and the context waits, and nothing else changes. -/
theorem answerMapped_answers {s : State} {p : Path} {c : Nat} (h : s.noAborts p c) : AnswerStep s ((answerMapped p c).run s) ∧
    ((∀ w ∈ s.entryWaits, ¬(w.1 = p ∧ w.2.1 = c)) → .dictDone p 0 0 ∈ ((answerMapped p c).run s).out) := by
  cases hany : s.entryWaits.any fun w => decide (w.1 = p ∧ w.2.1 = c ∧ w.2.2.1 < 4096) with
  | true =>
    have hrun : (answerMapped p c).run s = s := by
      rw [answerMapped, run_look, hany]; rfl
    rw [hrun]
    refine ⟨rfl, fun hnone => ?_⟩
    obtain ⟨w, hw, hmatch⟩ := List.any_eq_true.mp hany
    obtain ⟨hp, hc, -⟩ := of_decide_eq_true hmatch
    exact absurd ⟨hp, hc⟩ (hnone w hw)
  | false =>
    have hnone : ∀ w ∈ s.entryWaits, ¬(w.1 = p ∧ w.2.1 = c) := fun w hw ⟨hp, hc⟩ =>
      List.any_eq_false.mp hany w hw (decide_eq_true ⟨hp, hc, h w hw hp hc⟩)
    have hfilter : s.entryWaits.filter (fun w => decide ¬(w.1 = p ∧ w.2.1 = c)) = s.entryWaits :=
      List.filter_eq_self.mpr fun w hw => decide_eq_true (hnone w hw)
    have hcode : s.waitCode p c = 0 := by
      rw [State.waitCode, List.find?_eq_none.mpr fun w hw => by simpa using fun hp hc => absurd ⟨hp, hc⟩ (hnone w hw)]
      rfl
    have hrun : (answerMapped p c).run s = (answer p 0 0).run s := by
      simp only [answerMapped, run_look, hany, Bool.not_false, run_whenP, if_true, run_all_cons, run_all_nil, run_withState, hfilter, hcode]
      rfl
    rw [hrun]
    exact ⟨answer_step .., fun _ => by rw [answer_out]; simp⟩

/-! ## Close (R254) -/

/-- The waits that a close of a context on a path adds. -/
def State.closeWaits (s : State) (p : Path) (c : Nat) : List (Path × Nat × Nat × Nat) :=
  ((s.ctxEntries c).filter fun e => (s.siteOf (fmTile e.2)).isSome).map fun e => (p, c, e.1, 1)

theorem closeWaits_lt {s : State} {p : Path} {c : Nat} : ∀ w ∈ s.closeWaits p c, w.2.2.1 < 4096 := by
  intro w hw
  obtain ⟨e, he, rfl⟩ := List.mem_map.mp hw
  obtain ⟨x, -, rfl⟩ := List.mem_map.mp (List.mem_filter.mp he).1
  exact Nat.mod_lt _ (by decide)

/-- The state whose waits are those of `s` and those that a close adds. -/
def State.closing (s : State) (p : Path) (c : Nat) : State := { s with entryWaits := s.entryWaits ++ s.closeWaits p c }

/-- What a close writes before its answer. -/
theorem run_closeCommand (p : Path) (c : Nat) (s : State) : (closeCommand p c).effect.run s = (answerMapped p c).run
    ((setRegs (0x2700 + c) [(0x01, 0), (0x31, 0xFF), (0x32, 0xFF), (0x37, 0xFFFF)]).run
      (((freeResources c).run (s.closing p c)).withCtx c {})) := by
  have hwait : (withState fun t => .entryWaits (t.entryWaits ++ ((s.ctxEntries c).filter fun e => (s.siteOf (fmTile e.2)).isSome).map fun e =>
      (p, c, e.1, 1))).run s = s.closing p c := rfl
  rw [closeCommand, run_look]
  simp only [setRegs, run_all_cons, run_all_nil, run_eachP_cons, run_eachP_nil, run_ctxs, hwait]

/-- A close frees the context, and answers once its rebinds are applied. -/
theorem contextClose_closes {s : State} {c : Ctx} {p : Path} (hs : s.Canonical) (hserves : s.serves p = true) (hup : s.controllerDown = false)
    (hmay : s.mayClose c = true) (haborts : s.noAborts p c) : ∃ t, exec (.contextClose p c) s = .next t ∧ t.reg (0x2700 + c) 0x01 = 0 ∧
      t.reg (0x2700 + c) 0x31 = 0xFF ∧ t.reg (0x2700 + c) 0x32 = 0xFF ∧ t.ctx c = {} ∧
      (∀ i, i < 4096 → t.entryAt (c * 4096 + i) = 0) ∧ t.cells = s.cells ∧ t.entryWaits = s.entryWaits ++ s.closeWaits p c ∧
      ((∀ e ∈ s.ctxEntries c, s.siteOf (fmTile e.2) = none) → (∀ w ∈ s.entryWaits, ¬(w.1 = p ∧ w.2.1 = c.val)) → .dictDone p 0 0 ∈ t.out) ∧
      (∀ k x, t.planAt k = some x → x.ctx ≠ c.val) ∧ t.mem = s.mem ∧ s.ctxsBut t c := by
  have hs₀ : (s.closing p c).Canonical := run_canonical (withState fun t => .entryWaits (t.entryWaits ++ s.closeWaits p c)) hs
  obtain ⟨hfree, hplans, hentries⟩ := run_freeResources hs₀ c
  generalize hv : (freeResources c).run (s.closing p c) = v at hfree hplans hentries
  have hcanon : v.Canonical := hv ▸ run_canonical _ hs₀
  obtain ⟨R, hregs, hvalues, -⟩ := setRegs_writes (canonical_withCtx hcanon c {}).regs (0x2700 + c)
    (ws := [(0x01, 0), (0x31, 0xFF), (0x32, 0xFF), (0x37, 0xFFFF)]) (by decide)
  obtain ⟨h01, h31, h32, -⟩ := by simpa only [List.forall_mem_cons] using hvalues
  have hwaits : ((v.withCtx c {}).withRegisters R).entryWaits = s.entryWaits ++ s.closeWaits p c := hfree.entryWaits
  obtain ⟨hanswer, hout⟩ := answerMapped_answers (s := (v.withCtx c {}).withRegisters R) (p := p) (c := c) fun w hw hp hc => by
    rcases List.mem_append.mp (hwaits ▸ hw) with hw | hw
    · exact haborts w hw hp hc
    · exact closeWaits_lt w hw
  have heffect : (closeCommand p c).effect.run s = (answerMapped p c).run ((v.withCtx c {}).withRegisters R) := by
    rw [run_closeCommand, hv, hregs]
  have hcode : (closeCommand p c).code s (0x2700 + c) 0x02 = 0 := Command.code_zero hup rfl (contextCommand_available c s _) hmay
  have hrun : (commandWrite p (0x2700 + c) 0x02 (closeCommand p c)).run s =
      (dropSnapshots (0x2700 + c)).run ((answerMapped p c).run ((v.withCtx c {}).withRegisters R)) := by
    have hlater : (closeCommand p c).answersLater = true := rfl
    simp only [commandWrite, run_look, hserves, hcode, hlater, Bool.not_true, Bool.false_eq_true, if_false, if_true, run_all_cons,
      run_all_nil, run_skip, heffect]
  have ht : AnswerStep ((v.withCtx c {}).withRegisters R) ((commandWrite p (0x2700 + c) 0x02 (closeCommand p c)).run s) := by
    rw [hrun]
    exact hanswer.trans _ _ _ (dropSnapshots_step _ _)
  have hreg : ∀ k, ((commandWrite p (0x2700 + c) 0x02 (closeCommand p c)).run s).regAt k = ((v.withCtx c {}).withRegisters R).regAt k :=
    answered_regAt ht
  have hctxs : ((commandWrite p (0x2700 + c) 0x02 (closeCommand p c)).run s).ctxs = (s.withCtx c {}).ctxs :=
    (congrArg State.ctxs ht).trans (congrArg (fun C => Tab.set ({} : CtxCore) C c {}) hfree.ctxs :)
  obtain ⟨hctx, hbut⟩ := ctxsBut_of_ctxs hs hctxs
  refine ⟨_, rfl, (hreg _).trans h01, (hreg _).trans h31, (hreg _).trans h32, hctx, fun i hi => ?_, ?_, ?_, fun hsites hnone => ?_,
    fun k x hx => hplans k x ?_, ?_, hbut⟩
  · exact (congrArg (fun t => State.entryAt t _) ht).trans (hentries i hi)
  · exact (congrArg State.cells ht).trans hfree.cells
  · exact (congrArg State.entryWaits ht).trans hwaits
  · rw [hrun, dropSnapshots_out]
    refine hout ?_
    have hclose : s.closeWaits p c = [] := by
      rw [State.closeWaits, List.filter_eq_nil_iff.mpr fun e he => by simp [hsites e he]]
      rfl
    rw [hwaits, hclose, List.append_nil]
    exact hnone
  · exact (congrArg (fun t => State.planAt t k) ht).symm.trans hx
  · exact (congrArg State.mem ht).trans hfree.mem

/-- Settles O14: an open writes six scalars and the context's own state, a close frees what the context holds, and a write of the page
either rings, or reports, or counts. -/
theorem contextsOpenAndClose : Obligations.ContextsOpenAndClose := fun _ _ hs =>
  ⟨fun _ hserves hup => ⟨contextOpen_opens hs hserves hup, contextClose_closes hs hserves hup⟩,
    fun _ _ _ hserves hactive hreset hengine hlen hv => ⟨doorbell_posts hserves hactive hs hreset hengine hlen hv,
      doorbell_reports hserves hactive hreset hengine hlen hv⟩,
    fun _ _ _ hserves hactive => doorbell_drops hserves hactive hs⟩

end Sys2Proof.Machine

/-! SUPPORT. The engines of signal and send rings: what taking the message at a head leaves, and what each engine asks for (O23; R269,
R271, R272). -/

namespace Sys2Proof.Machine

open Sys2Proof

/-! ## What beats leave -/

/-- No beat counter is part of the remap tables, so the sites of the logical tiles stay (R35). -/
theorem siteOf_of_beats {s t : State} {n : Nat} (h : ∀ k, k ∉ beatKeys [n] → t.regAt k = s.regAt k) (l : Nat) : t.siteOf l = s.siteOf l := by
  have hkey : rk (0x2410 + tileRegion l) (courseOf (tileRow l) + 1) ∉ beatKeys [n] := by
    have := courseOf_lt (tileRow l)
    simp only [beatKeys, List.flatMap_cons, List.flatMap_nil, List.append_nil, List.mem_cons, List.not_mem_nil, or_false, rk]
    omega
  unfold State.siteOf
  rw [fenceMask_of_reg (h _ hkey)]

theorem portMap_notMem_beatKeys (n : Nat) : rk (0x3000 + n) 0x50 ∉ beatKeys [n] := by
  simp only [beatKeys, List.flatMap_cons, List.flatMap_nil, List.append_nil, List.mem_cons, List.not_mem_nil, or_false, rk]
  omega

/-- A handle resolves as before while the map and the sites stay. -/
theorem resolve_congr {s t : State} (hfmap : t.fmap = s.fmap) (hsite : ∀ l, t.siteOf l = s.siteOf l) (c h : Nat) :
    t.resolve c h = s.resolve c h := by
  unfold State.resolve State.entryAt
  rw [hfmap]
  simp only [hsite]

/-! ## Taking slots (R161, R269) -/

/-- The state with other tags. -/
def State.withTags (s : State) (T : Tab Nat) : State := { s with tags := T }

section take

variable {s : State} {r n : Nat} (hkind : rdKind (s.ring r).desc = 1 ∨ rdKind (s.ring r).desc = 3)

include hkind

/-- The head of a signal or send ring does not follow its slots. -/
theorem run_ringHead_engine (e : Ecc) : (ringHead r e).run s = s := by
  rw [ringHead, run_look]
  rcases hkind with h | h <;> simp [h]

/-- No head moves when a slot of a signal or send ring becomes empty that no other ring holds. -/
theorem run_slotEmptied_engine {k : Nat} (hother : ∀ x ∈ s.tileRings (ringTile r), x.1 ≠ r → slotInRing x.2.desc k = false) (e : Ecc) :
    (slotEmptied (ringTile r) k e).run s = s := by
  rw [slotEmptied, run_look]
  refine run_eachP_id fun x hx => ?_
  obtain ⟨hmem, hin⟩ := List.mem_filter.mp hx
  have hx : x.1 = r := by
    by_contra hne
    exact absurd hin (by rw [show decide _ = false from hother x hmem hne]; decide)
  rw [hx]
  exact run_ringHead_engine hkind e

/-- Slots that the engine takes through the wide port become empty, and nothing else changes. -/
theorem run_takeSlots (hs : s.Canonical) {ks : List Nat} (hwide : s.takesWide r n ks) (c : Nat) :
    ∃ T, (eachP ks fun k => takeSlot (ringTile r) n c k {}).run s = s.withTags T ∧
      (∀ k ∈ ks, (s.withTags T).slotTag (ringTile r) k = 0) ∧
      ∀ j, (∀ k ∈ ks, j ≠ ringTile r * 65536 + k) → (s.withTags T).tagAt j = s.tagAt j := by
  induction ks generalizing s with
  | nil => exact ⟨s.tags, rfl, fun _ hk => absurd hk List.not_mem_nil, fun _ _ => rfl⟩
  | cons k ks ih =>
    obtain ⟨⟨hport, hother⟩, hrest⟩ := List.forall_mem_cons.mp hwide
    have htake : (takeSlot (ringTile r) n c k {}).run s = (setTag (ringTile r) k 0).run s := by
      rw [takeSlot, run_look, if_pos hport, consumeNow, run_all_cons, run_all_cons, run_all_nil]
      exact run_slotEmptied_engine (s := (setTag (ringTile r) k 0).run s) hkind hother {}
    have htag := fun j => tagAt_setTag hs.tags (ringTile r) k 0 j
    have hframe : ∀ T, ((setTag (ringTile r) k 0).run s).withTags T = s.withTags T := fun _ => rfl
    obtain ⟨T, hrun, hzero, hkeep⟩ := ih (s := (setTag (ringTile r) k 0).run s) hkind (run_canonical _ hs) hrest
    rw [hframe] at hrun hzero hkeep
    refine ⟨T, by rw [run_eachP_cons, htake, hrun], fun i hi => ?_, fun j hj => ?_⟩
    · by_cases hks : ∃ i' ∈ ks, i = i'
      · obtain ⟨i', hi', rfl⟩ := hks
        exact hzero i hi'
      · have hik : i = k := (List.mem_cons.mp hi).resolve_right fun h => hks ⟨i, h, rfl⟩
        refine (hkeep _ fun i' hi' hkey => hks ⟨i', hi', ?_⟩).trans ((htag _).trans (if_pos (by rw [hik])))
        omega
    · exact (hkeep j fun i hi => hj i (List.mem_cons_of_mem _ hi)).trans
        ((htag j).trans (if_neg (hj k (List.mem_cons_self ..))))

end take

/-! ## The message at a head is taken (R269) -/

/-- The engine of ring `r` at site `n` has taken `k` slots at the head in `s`. -/
structure State.HeadConsumed (s t : State) (r n k : Nat) : Prop where
  ring : t.ring r = (s.ring r).consumed k
  rings : ∀ j, j ≠ r → t.ring j = s.ring j
  empty : ∀ j ∈ ringRun (s.ring r).desc (s.ring r).head k, t.slotTag (ringTile r) j = 0
  slots : s.slotsBut t (ringTile r) r (ringRun (s.ring r).desc (s.ring r).head k)
  frame : t = { s with rings := t.rings, tags := t.tags, mem := t.mem, stiles := t.stiles, regs := t.regs }
  scalars : ∀ x, x ∉ beatKeys [n] → t.regAt x = s.regAt x

/-- The writing of the status word touches the status slot alone. -/
theorem writeStatus_slots {s : State} (hs : s.Canonical) (r : Nat) :
    (∀ b, (∀ w ∈ slotWords (rdStatus (s.ring r).desc), b < wordAddr (ringTile r) w ∨ wordAddr (ringTile r) w + 8 ≤ b) →
      readByte ((writeStatus r {}).run s).mem b = readByte s.mem b) ∧
    ∀ i, i ≠ ringTile r * 65536 + rdStatus (s.ring r).desc → ((writeStatus r {}).run s).tagAt i = s.tagAt i := by
  obtain ⟨R, hbeats, -⟩ := countBeats_counts (s.sSiteNo (ringTile r)) (slotWords (rdStatus (s.ring r).desc)) s
  have hcanon := run_canonical (countBeats (s.sSiteNo (ringTile r)) (slotWords (rdStatus (s.ring r).desc))) hs
  obtain ⟨M, T, S, hrun, hwritten⟩ := plainWriteWords_writes hcanon (ringTile r) (nodup_slotWords (rdStatus (s.ring r).desc))
    (bs := toBytes 64 (statusWord (s.ring r))) (by simp [length_slotWords]) false
  obtain ⟨⟨-, hmem⟩, -, htags, -⟩ := hwritten
  rw [run_writeStatus, hrun]
  rw [hbeats] at hmem htags ⊢
  exact ⟨hmem, fun i hi => htags i fun k hk => by
    rw [slotsOf_slotWords] at hk
    exact List.mem_singleton.mp hk ▸ hi⟩

theorem consumeHead_takes {s : State} (hs : s.Canonical) {r n k : Nat} (hsite : s.sSite (ringTile r) = some n)
    (hkind : rdKind (s.ring r).desc = 1 ∨ rdKind (s.ring r).desc = 3)
    (hwide : s.takesWide r n (ringRun (s.ring r).desc (s.ring r).head k)) :
    s.HeadConsumed ((consumeHead r n k true {}).run s) r n k := by
  obtain ⟨T, htake, hzero, hkeep⟩ := run_takeSlots hkind hs hwide (rdCtx (s.ring r).desc)
  have hcanonT : (s.withTags T).Canonical := htake ▸ run_canonical _ hs
  generalize hv : (modRing r fun y => y.consumed k).run (s.withTags T) = v
  have hcanon : v.Canonical := hv ▸ run_canonical _ hcanonT
  have hring : ∀ j, v.ring j = if j = r then (s.ring r).consumed k else s.ring j := hv ▸ ring_modRing hcanonT r (fun y => y.consumed k)
  have hframe : v = { s with rings := v.rings, tags := T } := hv ▸ rfl
  have hrun : (consumeHead r n k true {}).run s = (writeStatus r {}).run v := by
    rw [consumeHead, run_look, run_all_cons, run_all_cons, run_all_cons, run_all_nil, htake, ← hv]
    rfl
  have hrings : ∀ j, ((consumeHead r n k true {}).run s).ring j = v.ring j := fun j => by
    rw [hrun]
    exact (congrArg (fun t => State.ring t j) (writeStatus_step r v).1 :)
  have hno : v.sSiteNo (ringTile r) = n := by
    have hsite' : v.sSite (ringTile r) = some n := hframe ▸ hsite
    rw [State.sSiteNo, hsite']
    rfl
  have hself : v.ring r = (s.ring r).consumed k := (hring r).trans (if_pos rfl)
  have hdesc : (v.ring r).desc = (s.ring r).desc := (congrArg Ring.desc hself :)
  obtain ⟨hstep, hbeats⟩ := writeStatus_step r v
  obtain ⟨hmem, htags⟩ := writeStatus_slots hcanon r
  rw [hdesc] at hmem htags
  rw [hno] at hbeats
  refine ⟨(hrings r).trans hself, fun j hj => (hrings j).trans ((hring j).trans (if_neg hj)), fun j hj => ?_, ⟨fun b hb => ?_, fun i hi => ?_⟩,
    ?_, fun x hx => ?_⟩
  · have hv0 : v.tagAt (ringTile r * 65536 + j) = 0 := hframe ▸ hzero j hj
    rw [hrun]
    exact (tagAt_writeStatus (by rw [hv0]; decide) r).trans hv0
  · rw [hrun, hmem b (hb _ (List.mem_cons_self ..)), hframe]
  · rw [hrun, htags i (hi _ (List.mem_cons_self ..)), hframe]
    exact hkeep i fun j hj => hi j (List.mem_cons_of_mem _ hj)
  · rw [hrun, hstep, hframe]
  · rw [hrun, hbeats x hx, hframe]
    rfl

/-- Reading slots that the codes find sound counts beats alone. -/
theorem run_readHead_clean (r n k : Nat) (s : State) : ∃ R, (readHead r n k {}).run s = s.withRegisters R ∧
    ∀ x, x ∉ beatKeys [n] → (s.withRegisters R).regAt x = s.regAt x := by
  obtain ⟨R, hbeats, hkeep⟩ := countBeats_counts n ((ringRun (s.ring r).desc (s.ring r).head k).flatMap slotWords) s
  refine ⟨R, ?_, hkeep⟩
  rw [readHead, run_look, run_all_cons, run_all_cons, run_all_cons, run_all_cons, run_all_nil, hbeats]
  exact run_readErrors_clean ..

/-- The state in which the engine consumes the message at the head of ring `r`, after it has read it and changed the ring's own counts,
and the state that it then ends in. -/
structure State.Consumes (s u t : State) (r n l : Nat) : Prop where
  before : u = { s with rings := u.rings, issue := u.issue, regs := u.regs }
  rings : ∀ j, j ≠ r → u.ring j = s.ring j
  desc : (u.ring r).desc = (s.ring r).desc
  head : (u.ring r).head = (s.ring r).head
  scalars : ∀ x, x ∉ beatKeys [n] → u.regAt x = s.regAt x
  consumed : u.HeadConsumed t r n (messageSlots l)

section consumes

variable {s u t : State} {r n l : Nat} (h : s.Consumes u t r n l)

include h

/-- Sites, map and contexts are as before when the message has been taken. -/
theorem State.Consumes.resolve (c hd : Nat) : t.resolve c hd = s.resolve c hd := by
  have hfmap : t.fmap = s.fmap := (congrArg State.fmap h.consumed.frame :).trans (congrArg State.fmap h.before :)
  exact resolve_congr hfmap (siteOf_of_beats fun x hx => (h.consumed.scalars x hx).trans (h.scalars x hx)) c hd

theorem State.Consumes.ring_desc : (t.ring r).desc = (s.ring r).desc :=
  (congrArg Ring.desc h.consumed.ring).trans h.desc

/-- The message is taken, whatever else the engine then does with the ring and the packets to be issued. -/
theorem State.Consumes.headTaken {t' : State} (ht : t' = { t with rings := t'.rings, issue := t'.issue })
    (hrings : ∀ j, j ≠ r → t'.ring j = t.ring j) : s.headTaken t' r n l := by
  have hrun : ringRun (u.ring r).desc (u.ring r).head (messageSlots l) = s.headRun r l := by rw [h.desc, h.head]; rfl
  obtain ⟨hmem, htags⟩ := h.consumed.slots
  have hempty := h.consumed.empty
  rw [hrun] at hmem htags hempty
  rw [h.desc] at hmem htags
  have htagAt : ∀ i, t'.tagAt i = t.tagAt i := fun i => (congrArg (fun t => State.tagAt t i) ht :)
  refine ⟨fun k hk => (htagAt _).trans (hempty k hk), fun j hj => ?_, ⟨fun b hb => ?_, fun i hi => ?_⟩, ?_, fun x hx => ?_⟩
  · rw [hrings j hj, h.consumed.rings j hj, h.rings j hj]
  · rw [show t'.mem = t.mem from (congrArg State.mem ht :), hmem b hb, show u.mem = s.mem from (congrArg State.mem h.before :)]
  · rw [htagAt, htags i hi]
    exact (congrArg (fun t => State.tagAt t i) h.before :)
  · rw [ht, h.consumed.frame, h.before]
  · rw [show t'.regAt x = t.regAt x from (congrArg (fun t => State.regAt t x) ht :), h.consumed.scalars x hx, h.scalars x hx]

end consumes

/-! ## Signal rings (R271) -/

section signal

variable {s : State} (hs : s.Canonical) {r : RingNo} {n w : Nat} (hsite : s.sSite (ringTile r) = some n) (hheader : s.headHeader r = some w)
  (hfree : s.ringEngineFree (ringTile r) = true) (hruns : s.ctxRuns (rdCtx (s.ring r).desc) = true)
  (hcomplete : s.headComplete r (headerLength w) = true) (hclean : s.headPoisoned r (headerLength w) = false)
  (hwide : s.takesWide r n (s.headRun r (headerLength w)))

include hs hsite hwide in
/-- The engine reads the message at the head and consumes it. -/
theorem consumes_read (hkind : rdKind (s.ring r).desc = 1 ∨ rdKind (s.ring r).desc = 3) {R : Tab Nat}
    (hread : (readHead r n (messageSlots (headerLength w)) {}).run s = s.withRegisters R)
    (hkeep : ∀ x, x ∉ beatKeys [n] → (s.withRegisters R).regAt x = s.regAt x) :
    s.Consumes (s.withRegisters R) ((consumeHead r n (messageSlots (headerLength w)) true {}).run (s.withRegisters R)) r n (headerLength w) where
  before := rfl
  rings _ _ := rfl
  desc := rfl
  head := rfl
  scalars := hkeep
  consumed := consumeHead_takes (hread ▸ run_canonical _ hs) ((siteOf_of_beats hkeep _).trans hsite) hkind fun k hk => by
    obtain ⟨hport, hother⟩ := hwide k hk
    exact ⟨(isWide_of_portMap (hkeep _ (portMap_notMem_beatKeys n)) _).trans hport, hother⟩

include hs hsite hheader hfree hruns hcomplete hclean hwide

/-- A signal ring takes the message at its head, and then acts on it. -/
theorem signalProg_acts (hkind : rdKind (s.ring r).desc = 3) (hgate : (s.ring r).gate = none)
    (hlength : signalLength (headerType w) = some (headerLength w)) (act : Nat → List Byte → Prog) :
    ∃ u t, (signalProg r (headerType w) {} act).run s = (act n (s.headPayload r (headerLength w))).run t ∧ t.Canonical ∧
      s.Consumes u t r n (headerLength w) ∧ u.ring r = s.ring r ∧ t.issue = s.issue := by
  obtain ⟨R, hread, hkeep⟩ := run_readHead_clean r n (messageSlots (headerLength w)) s
  have hconsumes := consumes_read hs hsite hwide (.inr hkind) hread hkeep
  have hclean' : (s.withRegisters R).headPoisoned r (headerLength w) = false := hclean
  have hcanon : (s.withRegisters R).Canonical := hread ▸ run_canonical _ hs
  refine ⟨_, _, ?_, run_canonical (consumeHead r n (messageSlots (headerLength w)) true {}) hcanon, hconsumes, rfl,
    (congrArg State.issue hconsumes.consumed.frame :)⟩
  simp only [signalProg, run_look, hsite, hheader, run_withP_some, hkind, hgate, hfree, hruns, hlength, hcomplete, decide_true,
    Option.isNone_none, Bool.and_self, run_whenP, if_true, ne_eq, not_true_eq_false, if_false, run_seq, hread, run_all_cons, run_all_nil,
    hclean', Bool.false_eq_true]
  rfl

/-- A SET or CLEAR message asks for its operation. -/
theorem signalFlag_asks {m : Nat} (hkind : rdKind (s.ring r).desc = 3) (hgate : (s.ring r).gate = none)
    (hlength : signalLength (headerType w) = some (headerLength w))
    (hcell : s.resolve (rdCtx (s.ring r).desc) (ofBytes ((s.headPayload r (headerLength w)).take 2)) = .cell m) (hne : m ≠ n) :
    ∃ t, (signalProg r (headerType w) {} fun n bs => .look fun t =>
        issueFlag (headerType w) (rdCtx (t.ring r).desc) n (ofBytes (bs.take 2)) 0 (.ring r)).run s = t ∧
      t.ring r = (s.ring r).consumed (messageSlots (headerLength w)) ∧
      t.issue = s.issue ++ [flagRequest (headerType w) (rdCtx (s.ring r).desc) n m (ofBytes ((s.headPayload r (headerLength w)).take 2)) 0 (.ring r)] ∧
      s.headTaken t r n (headerLength w) := by
  obtain ⟨u, t, hrun, -, hconsumes, hring, hissue⟩ := signalProg_acts hs hsite hheader hfree hruns hcomplete hclean hwide hkind hgate hlength
    fun n bs => .look fun t => issueFlag (headerType w) (rdCtx (t.ring r).desc) n (ofBytes (bs.take 2)) 0 (.ring r)
  have hasks := run_issueFlag_cell ((hconsumes.resolve ..).trans hcell) hne.symm (headerType w) 0 (.ring r)
  rw [run_look, hconsumes.ring_desc, hasks] at hrun
  refine ⟨_, hrun, hconsumes.consumed.ring.trans (congrArg (Ring.consumed · _) hring), congrArg (· ++ _) hissue,
    hconsumes.headTaken rfl fun _ _ => rfl⟩

/-- The gate slot, the handle and the mask that ring `x` notes when it takes a WAIT message of payload `bs` (R271). -/
def Ring.waiting (x : Ring) (bs : List Byte) : Ring :=
  { x with gate := some (ofBytes ((bs.drop 2).take 2), ofBytes (bs.take 2)), busy := some (ofBytes (bs.drop 4), 0) }

/-- A WAIT message notes its gate and asks for its wait. -/
theorem signalWait_asks {m : Nat} (hkind : rdKind (s.ring r).desc = 3) (hgate : (s.ring r).gate = none)
    (hlength : signalLength (headerType w) = some (headerLength w))
    (hcell : s.resolve (rdCtx (s.ring r).desc) (ofBytes ((s.headPayload r (headerLength w)).take 2)) = .cell m) (hne : m ≠ n) :
    ∃ t, (signalProg r (headerType w) {} fun n bs => signalWait r n bs {}).run s = t ∧
      t.ring r = ((s.ring r).consumed (messageSlots (headerLength w))).waiting (s.headPayload r (headerLength w)) ∧
      t.issue = s.issue ++ [flagRequest 0x03 (rdCtx (s.ring r).desc) n m (ofBytes ((s.headPayload r (headerLength w)).take 2))
        (ofBytes ((s.headPayload r (headerLength w)).drop 4)) (.ring r)] ∧
      s.headTaken t r n (headerLength w) := by
  obtain ⟨u, t, hrun, hcanon, hconsumes, hring, hissue⟩ := signalProg_acts hs hsite hheader hfree hruns hcomplete hclean hwide hkind hgate
    hlength fun n bs => signalWait r n bs {}
  have hasks := run_issueFlag_cell (s := (modRing r fun x => x.waiting (s.headPayload r (headerLength w))).run t)
    ((hconsumes.resolve ..).trans hcell) hne.symm 0x03 (ofBytes ((s.headPayload r (headerLength w)).drop 4)) (.ring r)
  have hrings := ring_modRing hcanon r fun x => x.waiting (s.headPayload r (headerLength w))
  have hwait : (signalWait r n (s.headPayload r (headerLength w)) {}).run t =
      (issueFlag 0x03 (rdCtx (s.ring r).desc) n (ofBytes ((s.headPayload r (headerLength w)).take 2))
        (ofBytes ((s.headPayload r (headerLength w)).drop 4)) (.ring r)).run
        ((modRing r fun x => x.waiting (s.headPayload r (headerLength w))).run t) := by
    rw [signalWait, run_look]
    simp only [hconsumes.ring_desc, hconsumes.resolve, hcell, Resolution.dropCode, run_all_cons, run_all_nil]
    rfl
  rw [hwait, hasks] at hrun
  refine ⟨_, hrun, (hrings r).trans ((if_pos rfl).trans ?_), congrArg (· ++ _) hissue,
    hconsumes.headTaken rfl fun j hj => (hrings j).trans (if_neg hj)⟩
  rw [hconsumes.consumed.ring, hring]

end signal

/-! ## Send rings (R272) -/

/-- An enabled ring other than `r` is one of `s`, when the other rings are those of `s`. -/
theorem mem_tileRings {s u : State} (hs : s.Canonical) (hu : u.Canonical) {r : Nat} (hrings : ∀ j, j ≠ r → u.ring j = s.ring j) {t : Nat}
    {x : Nat × Ring} (hx : x ∈ u.tileRings t) (hne : x.1 ≠ r) : x ∈ s.tileRings t := by
  obtain ⟨hon, htile⟩ := List.mem_filter.mp hx
  obtain ⟨hmem, hon⟩ := List.mem_filter.mp hon
  have hring : s.ring x.1 = x.2 := (hrings x.1 hne).symm.trans (get_of_mem hu.rings.1 hmem)
  refine List.mem_filter.mpr ⟨List.mem_filter.mpr ⟨mem_of_get_ne hs.rings.1 hring ?_, hon⟩, htile⟩
  intro hdefault
  rw [hdefault] at hon
  exact absurd hon (by decide)

/-- The packet in which send ring `r` at site `n` ships the message at its head (R272). -/
def State.shipped (s : State) (r n dst w : Nat) : Packet :=
  { dst := dst, src := n, ctx := rdCtx (s.ring r).desc, cls := 1, typ := 0x10, len := headerLength w
    operand := rdPartner (s.ring r).desc + place (headerType w) 16, payload := s.headPayload r (headerLength w) }

/-- The state with the record of ring `r` replaced. -/
def State.withRing (s : State) (r : Nat) (x : Ring) : State := { s with rings := Tab.set {} s.rings r x }

theorem run_modRing (r : Nat) (f : Ring → Ring) (s : State) : (modRing r f).run s = s.withRing r (f (s.ring r)) := rfl

theorem canonical_withRing {s : State} (h : s.Canonical) (r : Nat) (x : Ring) : (s.withRing r x).Canonical :=
  run_canonical (.eff (.rings r x)) h

theorem ring_withRing {s : State} (h : s.Canonical) (r : Nat) (x : Ring) (j : Nat) :
    (s.withRing r x).ring j = if j = r then x else s.ring j := Tab.get_set h.rings.1 ..

theorem ring_withRing_self {s : State} (h : s.Canonical) (r : Nat) (x : Ring) : (s.withRing r x).ring r = x :=
  (ring_withRing h r x r).trans (if_pos rfl)

theorem withRing_withRing {s : State} (h : s.Canonical) (r : Nat) (x y : Ring) : (s.withRing r x).withRing r y = s.withRing r y :=
  congrArg (fun t => { s with rings := t }) (Tab.set_set h.rings.1 r x y)

/-- Ring `x` once it has waited `waited` beats more for credits. -/
def Ring.stalled (x : Ring) (waited : Nat) : Ring := { x with senderStall := satAdd 64 x.senderStall waited }

/-- The state in which send ring `r` consumes its message: the beats have been counted, the packet asked for and the credits spent. -/
def State.shipping (s : State) (r : Nat) (R : Tab Nat) (q : Request) (waited k : Nat) : State :=
  ((s.withRing r { (s.ring r).stalled waited with credits := (s.ring r).credits - k }).withRegisters R).issuing q

section ship

variable {s : State} (hs : s.Canonical) {r : RingNo} {n w : Nat} (hsite : s.sSite (ringTile r) = some n) (hheader : s.headHeader r = some w)
  (hfree : s.ringEngineFree (ringTile r) = true) (hruns : s.ctxRuns (rdCtx (s.ring r).desc) = true)
  (hcomplete : s.headComplete r (headerLength w) = true) (hclean : s.headPoisoned r (headerLength w) = false)
  (hwide : s.takesWide r n (s.headRun r (headerLength w))) (hkind : rdKind (s.ring r).desc = 1)

include hs hheader hfree hruns hcomplete hclean hkind

/-- A send ring with enough credits reads its message, asks for the packet, spends the credits and consumes the message. -/
theorem run_shipProg {dst waited : Nat} (hlen : headerLength w ≠ 0) (hfits : headerLength w + 72 ≤ rdSize (s.ring r).desc)
    (hsite : s.sSite (ringTile r) = some n) (hmax : headerLength w ≤ 1024) (hpartner : s.sSite (ringTile (rdPartner (s.ring r).desc)) = some dst)
    (hroom : rdEnabled (s.ring (rdPartner (s.ring r).desc)).desc = true → headerLength w + 72 ≤ rdSize (s.ring (rdPartner (s.ring r).desc)).desc)
    (hcredits : messageSlots (headerLength w) ≤ (s.ring r).credits) : ∃ R, (∀ x, x ∉ beatKeys [n] → (s.withRegisters R).regAt x = s.regAt x) ∧
      (s.shipping r R { packet := s.shipped r n dst w, origin := .ring r } waited (messageSlots (headerLength w))).Canonical ∧
      (shipProg r waited {}).run s = (consumeHead r n (messageSlots (headerLength w)) true {}).run
        (s.shipping r R { packet := s.shipped r n dst w, origin := .ring r } waited (messageSlots (headerLength w))) := by
  have hsends : (decide (1024 < headerLength w) || (rdEnabled (s.ring (rdPartner (s.ring r).desc)).desc &&
      decide (rdSize (s.ring (rdPartner (s.ring r).desc)).desc < headerLength w + 72))) = false := by
    rw [decide_eq_false (Nat.not_lt.mpr hmax), Bool.false_or, Bool.and_eq_false_imp]
    exact fun hon => decide_eq_false (Nat.not_lt.mpr (hroom hon))
  have hstalled := ring_withRing_self hs r ((s.ring r).stalled waited)
  obtain ⟨R, hread, hkeep⟩ := run_readHead_clean r n (messageSlots (headerLength w)) (s.withRing r ((s.ring r).stalled waited))
  have hcanon : ((s.withRing r ((s.ring r).stalled waited)).withRegisters R).Canonical :=
    hread ▸ run_canonical (readHead r n (messageSlots (headerLength w)) {}) (canonical_withRing hs r _)
  have hrun : ((s.withRing r ((s.ring r).stalled waited)).withRegisters R).headRun r (headerLength w) = s.headRun r (headerLength w) :=
    (congrArg (fun x : Ring => ringRun x.desc x.head (messageSlots (headerLength w))) hstalled :)
  have hpoison : ((s.withRing r ((s.ring r).stalled waited)).withRegisters R).headPoisoned r (headerLength w) = false := by
    rw [State.headPoisoned, hrun]; exact hclean
  have hpayload : ((s.withRing r ((s.ring r).stalled waited)).withRegisters R).headPayload r (headerLength w) = s.headPayload r (headerLength w) := by
    rw [State.headPayload, hrun]; rfl
  have hspend : (modRing r fun y => { y with credits := y.credits - messageSlots (headerLength w) }).run
      (((s.withRing r ((s.ring r).stalled waited)).withRegisters R).issuing { packet := s.shipped r n dst w, origin := .ring r }) =
      s.shipping r R { packet := s.shipped r n dst w, origin := .ring r } waited (messageSlots (headerLength w)) := by
    have hspent := congrArg (fun t => (State.withRegisters t R).issuing { packet := s.shipped r n dst w, origin := .ring r })
      (withRing_withRing hs r ((s.ring r).stalled waited)
        { (s.ring r).stalled waited with credits := (s.ring r).credits - messageSlots (headerLength w) })
    have hring : State.ring (((s.withRing r ((s.ring r).stalled waited)).withRegisters R).issuing
      { packet := s.shipped r n dst w, origin := .ring r }) r = (s.ring r).stalled waited := hstalled
    rw [run_modRing, hring]
    exact hspent
  refine ⟨R, hkeep, hspend ▸ run_canonical _ (run_canonical (ringRequest r (s.shipped r n dst w)) hcanon), ?_⟩
  have hstall : (modRing r fun y => { y with senderStall := satAdd 64 y.senderStall waited }).run s =
      s.withRing r ((s.ring r).stalled waited) := rfl
  simp only [shipProg, run_look, hsite, hheader, run_withP_some, hkind, hfree, hruns, decide_true, Bool.and_self, run_whenP, if_true, hlen,
    if_false, Nat.not_lt.mpr hfits, hcomplete, hpartner, hsends, Bool.false_eq_true, hcredits, run_seq, run_all_cons, run_all_nil, hstall, hread,
    hpoison, hpayload]
  rw [← hspend]
  rfl

/-- A send ring with enough credits ships the message at its head. -/
theorem channelShip_ships {dst waited : Nat} (hlen : headerLength w ≠ 0) (hfits : headerLength w + 72 ≤ rdSize (s.ring r).desc)
    (hsite : s.sSite (ringTile r) = some n) (hmax : headerLength w ≤ 1024) (hpartner : s.sSite (ringTile (rdPartner (s.ring r).desc)) = some dst)
    (hroom : rdEnabled (s.ring (rdPartner (s.ring r).desc)).desc = true → headerLength w + 72 ≤ rdSize (s.ring (rdPartner (s.ring r).desc)).desc)
    (hcredits : messageSlots (headerLength w) ≤ (s.ring r).credits) (hwide : s.takesWide r n (s.headRun r (headerLength w))) :
    ∃ t, exec (.channelShip r waited {}) s = .next t ∧
      t.ring r = { ((s.ring r).stalled waited).consumed (messageSlots (headerLength w)) with
        credits := (s.ring r).credits - messageSlots (headerLength w) } ∧
      t.issue = s.issue ++ [{ packet := s.shipped r n dst w, origin := .ring r }] ∧ s.headTaken t r n (headerLength w) := by
  obtain ⟨R, hkeep, hcanon, hrun⟩ :=
    run_shipProg hs hheader hfree hruns hcomplete hclean hkind (waited := waited) hlen hfits hsite hmax hpartner hroom hcredits
  generalize hu : s.shipping r R { packet := s.shipped r n dst w, origin := .ring r } waited (messageSlots (headerLength w)) = u at hcanon hrun
  have hframe : u = { s with rings := u.rings, issue := u.issue, regs := u.regs } := hu ▸ rfl
  have hissue : u.issue = s.issue ++ [{ packet := s.shipped r n dst w, origin := .ring r }] := hu ▸ rfl
  have hscalars : ∀ x, x ∉ beatKeys [n] → u.regAt x = s.regAt x := hu ▸ hkeep
  have hring : ∀ j : Nat, u.ring j = if j = r then
      { (s.ring r).stalled waited with credits := (s.ring r).credits - messageSlots (headerLength w) } else s.ring j := hu ▸ ring_withRing hs r _
  have hself := (hring r).trans (if_pos rfl)
  have hdesc : (u.ring r).desc = (s.ring r).desc := (congrArg Ring.desc hself :)
  have hhead : (u.ring r).head = (s.ring r).head := (congrArg Ring.head hself :)
  have hrings : ∀ j : Nat, j ≠ r → u.ring j = s.ring j := fun j hj => (hring j).trans (if_neg hj)
  have hwide' : u.takesWide r n (ringRun (u.ring r).desc (u.ring r).head (messageSlots (headerLength w))) := by
    rw [hdesc, hhead]
    intro k hk
    obtain ⟨hport, hother⟩ := hwide k hk
    exact ⟨(isWide_of_portMap (hscalars _ (portMap_notMem_beatKeys n)) _).trans hport,
      fun x hx hne => hother x (mem_tileRings hs hcanon hrings hx hne) hne⟩
  have hconsumed := consumeHead_takes hcanon ((siteOf_of_beats hscalars _).trans hsite) (.inl (hdesc ▸ hkind)) hwide'
  generalize (consumeHead r n (messageSlots (headerLength w)) true {}).run u = t at hrun hconsumed
  have hconsumes : s.Consumes u t r n (headerLength w) := ⟨hframe, hrings, hdesc, hhead, hscalars, hconsumed⟩
  refine ⟨_, congrArg Host.Outcome.next hrun, hconsumed.ring.trans (congrArg (Ring.consumed · _) hself),
    (congrArg State.issue hconsumed.frame :).trans hissue, hconsumes.headTaken rfl fun _ _ => rfl⟩

end ship

/-- Settles O23: each ring takes the message at its head as `Consumes` says, and then asks for its packet. -/
theorem signalAndSendRingsAct : Obligations.SignalAndSendRingsAct := by
  intro s r n w hs hsite hheader hfree hruns hcomplete hclean hwide
  refine ⟨fun m hkind hgate hlength hcell hne => ?_, fun dst waited hkind hlen hfits hmax hpartner hroom hcredits =>
    channelShip_ships hs hheader hfree hruns hcomplete hclean hkind hlen hfits hsite hmax hpartner hroom hcredits hwide⟩
  obtain ⟨t, hflag, hflagged⟩ := signalFlag_asks hs hsite hheader hfree hruns hcomplete hclean hwide hkind hgate hlength hcell hne
  obtain ⟨u, hwait, hwaited⟩ := signalWait_asks hs hsite hheader hfree hruns hcomplete hclean hwide hkind hgate hlength hcell hne
  refine ⟨fun htyp => ⟨t, congrArg Host.Outcome.next ?_, ?_⟩, fun htyp => ⟨t, congrArg Host.Outcome.next ?_, ?_⟩,
    fun htyp => ⟨u, congrArg Host.Outcome.next ?_, hwaited⟩⟩
  all_goals rw [htyp] at hflag hflagged hwait
  · exact hflag
  · exact hflagged
  · exact hflag
  · exact hflagged
  · exact hwait

end Sys2Proof.Machine
